-- ==== Sys2Proof/Word.lean ====
section
/-!
DEFINITION. The plain value types of the KV7 model: bytes, addresses, the bit patterns of the
float formats, and the decoded form of a float (R8, R9, R195).
-/

namespace Sys2Proof

/-- One byte (R8). -/
abbrev Byte := BitVec 8

/-- A 52-bit device address (R271). -/
abbrev Addr := BitVec 52

/-- A queue number, 0 to 4,095 (R342). -/
abbrev QueueId := BitVec 12

/-- The bit pattern of an IEEE 754 binary32 value (R195). -/
abbrev F32 := BitVec 32

/-- The bit pattern of an IEEE 754 binary64 value (R119, R133). -/
abbrev F64 := BitVec 64

/-- A float, decoded: a NaN, an infinity, or the exact number `(-1)^neg * m * 2^e`. -/
inductive Flt where
  | nan (neg : Bool)
  | inf (neg : Bool)
  | fin (neg : Bool) (m : Nat) (e : Int)
  deriving DecidableEq, Repr

/-- A float format: exponent bits and fraction bits (R193). -/
structure FltFormat where
  ebits : Nat
  mbits : Nat
  deriving DecidableEq, Repr

def fmt32 : FltFormat := ⟨8, 23⟩
def fmt64 : FltFormat := ⟨11, 52⟩
def fmtBf16 : FltFormat := ⟨8, 7⟩
def fmtFp16 : FltFormat := ⟨5, 10⟩
def fmtE5M2 : FltFormat := ⟨5, 2⟩

end Sys2Proof
end

