-- ==== Sys2Proof/Syntax.lean ====
section
/-!
DEFINITION. The commands of the KV7 block: one constructor per row of spec/opcode_table.json.
An operand is what the sender or the environment supplies with the step and the state does not
determine.
-/

namespace Sys2Proof

/-- Where a mailbox request comes from (R483): the block in MAILBOX_BUFFER after GO, or a block
that arrived over SMBus. -/
inductive MailReq where
  | uzone
  | smbus (req : List Byte)
  deriving DecidableEq, Repr

/-- How a copy of a migrating unit ends (R295). -/
inductive CopyEnd where
  | ok | mediaError | linkDown | peerLost
  deriving DecidableEq, Repr

/-- One finding of a scrub pass: a line of the stack, by byte offset, corrected or not (R553, R556). -/
structure ScrubFinding where
  offset : Nat
  corrected : Bool
  deriving DecidableEq, Repr

/-- What a cold boot meets (R492, R495): which stacks and NAND dies fail training, which memory
expanders train on links 0 to 3 (bytes of each), whether Lintel's ROM can read the firmware slots, and
whether the newest flush is complete (R552). -/
structure BootFindings where
  romOk : Bool
  identityOk : Bool
  stackFail : List Nat
  dieFail : List (Nat × Nat)
  xfMode : Nat
  xfBytes : List Nat
  mainOk : Bool
  flushMissing : Option Nat
  deriving DecidableEq, Repr

/-- One temperature reading of R586, in whole degrees. -/
structure ThermalReading where
  kiln : Int
  stack : Int
  nand : Int
  bank : Int
  coolantIn : Int
  coolantOut : Int
  hottestStack : BitVec 3
  hottestPackage : BitVec 5
  deriving DecidableEq, Repr

/-- The header of a Mortar message as it arrives (R445), with the port it arrived on. -/
structure MortarHeader where
  port : BitVec 3
  dest : BitVec 13
  source : BitVec 13
  alive : Byte
  tag : BitVec 32
  pairSeq : BitVec 32
  route : BitVec 32
  address : BitVec 64
  last : Bool := true
  deriving DecidableEq, Repr

/-- What an expander's answer is for (R282): a command, a re-rank request, a stream, a Slab operation, a
request of the companion, or one of the mailbox. -/
inductive FarRead where
  | cmd (id : Nat)
  | req (id : Nat)
  | stream (id : Nat)
  | op (id : Nat)
  | dev
  | mail
  deriving DecidableEq, Repr

/-- A value that the companion writes to the control space, and the TAG of its MMIO_WR (R418, R419). -/
structure Written (n : Nat) where
  value : BitVec n
  tag : BitVec 12
  deriving DecidableEq, Repr

/-- The commands of the block. `q` is a submission queue number: the step dispatches the oldest
command of that queue that waits for it. `tag` is the TAG of a request of the companion (R418), which its
response carries back. -/
inductive Instr where
  | search (q : QueueId)
  | searchBatch (q : QueueId)
  | rerank (q : QueueId)
  | scan (q : QueueId)
  | project (q : QueueId)
  | insert (q : QueueId)
  | delete (q : QueueId)
  | update (q : QueueId)
  | epochSetSchedule (q : QueueId)
  | epochCancelSchedule (q : QueueId)
  | epochPublishNow (q : QueueId)
  | epochSetFloor (q : QueueId)
  | compact (q : QueueId)
  | repair (q : QueueId)
  | collectionCreate (q : QueueId)
  | collectionDrop (q : QueueId)
  | kvCreate (q : QueueId)
  | kvAppend (q : QueueId)
  | kvAttend (q : QueueId)
  | kvEvict (q : QueueId)
  | kvEvictAll (q : QueueId)
  | kvSwapOut (q : QueueId)
  | kvSwapIn (q : QueueId)
  | kvDestroy (q : QueueId)
  | matmul (q : QueueId)
  | rescaleLoad (q : QueueId)
  | hodStream (q : QueueId)
  | hodChain (q : QueueId)
  | plumbScan (q : QueueId)
  | migrateMove (q : QueueId)
  | migratePlace (q : QueueId)
  | migrateVacate (q : QueueId)
  | migrateFaultOn (q : QueueId)
  | migrateFaultOff (q : QueueId)
  | queueCreate (q : QueueId)
  | queueDelete (q : QueueId)
  | queueRestartRetry (q : QueueId)
  | queueRestartSkip (q : QueueId)
  | logRead (q : QueueId)
  | powerState (q : QueueId)
  | identify (q : QueueId)
  | commandFetch
  | coalesceTimeout (cq : QueueId)
  | sqTailDoorbell (q : QueueId) (w : Written 32)
  | cqHeadDoorbell (q : QueueId) (w : Written 32)
  /-- `w` carries the whole word written to ADMIN_QUEUE_CONTROL, its ENABLE bit set by the row. -/
  | adminQueueEnable (w : Written 32)
  | adminQueueRetry (w : Written 32)
  | adminQueueSkip (w : Written 32)
  | rangeLockGrant (cmd : Nat)
  | dispatchWaitEnd (cmd : Nat)
  | domainReady (domain : Nat)
  | walkAdmission (brick : BitVec 6)
  | admissionQueueRoom (brick : BitVec 6)
  | landingBufferGrant (brick : BitVec 6)
  | remoteBlockReadRequest (brick : BitVec 6)
  /-- The array read at the head of the plane's queue ends after `retries` retries; `mismatch`: its
  corrected bytes fail the check of R51 (R554). -/
  | flashReadComplete (brick : BitVec 6) (plane : BitVec 5) (retries : Nat) (mismatch : Bool)
  | blockLanded (walk entry : Nat)
  | walkDeadline (walk : Nat)
  | rerankTileClose (tile : Nat)
  | slabPairAdmit
  | slabQueueRoom
  | slabPrologueEnd (pair : BitVec 1)
  | slabComputeEnd
  | slabEpilogueEnd
  | kvAttendMerge (cmd : Nat)
  | sealDurable (cmd : Nat)
  | epochBoundary
  | epochPublicationComplete
  | patchFold (brick : BitVec 6)
  | changeEntryWaitEnd (cmd : Nat)
  | patchLogWaitEnd (cmd : Nat)
  | insertStagingWaitEnd (cmd : Nat)
  | compactSwitchWaitEnd (cmd : Nat)
  | tierFaultResolved (unit : Addr)
  | tierFaultTimeout (unit : Addr)
  | tierFaultQueueHead (w : Written 32)
  | tierFaultQueueEnable (w : Written 32)
  | migrateUnitDone (cmd : Nat) (result : CopyEnd)
  | hodTileIssue (engine : BitVec 4)
  | hodTileDelivered (stream : Nat)
  | hodLinkPoolWaitEnd (cmd : Nat)
  | plumbUnitWaitEnd (cmd : Nat)
  | hodWatchdogExpiry (stream : Nat)
  | fabricTimeTick
  | fabricTimeSet (w : Written 64)
  /-- `lanes` are the lanes that fail the step that timed out. -/
  | uzoneTrainingTimeout (lanes : BitVec 16)
  | uzoneParameterBlock (block : List Byte)
  /-- `low` and `high` are the symbol errors, by active lane, of the codeword that begins in the flit, where
  one does: those of the first eight lanes and of the others (R409). -/
  | uzoneFlitReceived (flit : List Byte) (low high : List Nat)
  | uzoneNakReceived (seq : BitVec 12)
  | uzoneFecLockLost (lane : BitVec 4)
  | uzoneAckTimeout
  | uzoneDownRetry
  | uzoneLowPowerExit
  | devRd (addr : Addr) (lines : BitVec 2) (tag : BitVec 12)
  | devWr (addr : Addr) (data : List Byte) (tag : BitVec 12)
  | devWrPartial (addr : Addr) (mask : BitVec 64) (data : List Byte) (tag : BitVec 12)
  | snpShare (addr : Addr) (tag : BitVec 12)
  | snpInv (addr : Addr) (tag : BitVec 12)
  | grantE (tag : BitVec 12)
  /-- `grant`: 0 none, 1 S, 2 E; `status`: 0 OK, 1 ERROR, 2 POISON (R418). -/
  | data (tag : BitVec 12) (grant : BitVec 2) (status : BitVec 16) (bytes : List Byte)
  | cmp (tag : BitVec 12) (status : BitVec 16)
  | mortarPortEnable (w : Written 32)
  | mortarTrainingTimeout (port : BitVec 3) (lanes : BitVec 8)
  | mortarDownRetry (port : BitVec 3)
  | hello (port : BitVec 3) (alive : Byte) (block : List Byte)
  | timeSyncTimer
  | timeSync (port : BitVec 3) (alive : Byte) (t0 t1 t2 t3 : BitVec 64)
  | linkState (port : BitVec 3) (alive : Byte) (number : BitVec 13) (link : BitVec 3) (up : Bool)
  | keyRoll (port : BitVec 3) (alive : Byte) (keyId : BitVec 32) (salt : List Byte)
  | mortarTransitForward (port : BitVec 3) (vc : Bool) (message : List Byte)
  | remoteRd (h : MortarHeader) (length : BitVec 32)
  | remoteWr (h : MortarHeader) (bytes : List Byte)
  | remoteData (h : MortarHeader) (bytes : List Byte)
  | remoteCmp (h : MortarHeader) (status : Byte)
  | backoff (h : MortarHeader)
  | backoffResend (dest : BitVec 13)
  | fanout (h : MortarHeader) (payload : List Byte)
  | fanoutEpochWaitTimeout (fan : Nat)
  | partialList (h : MortarHeader) (payload : List Byte)
  | mortarRequestTimeout (tag : BitVec 32)
  | mortarLinkDown (port : BitVec 3)
  | xfLinkDown (link : BitVec 2)
  | xfCapacityChange (link : BitVec 2) (bytes : Nat)
  | coldBoot (findings : BootFindings)
  | mainInputReturn (findings : BootFindings)
  | rstPin
  | powerFailure
  | auxInputLoss
  | wakePin
  | powerControlWake
  | powerStateEntry
  | powerStateExit
  | drowseIdleTimer
  | bankedIdleTimer
  | targetStateReturn
  | holdupTestTimer
  | thermalSample (reading : ThermalReading)
  | refclkLost
  | refclkRestored
  | memoryScrub (stack : BitVec 3) (findings : List ScrubFinding)
  | blockRefresh (brick : BitVec 6)
  /-- A program (`erase` false) or an erase of the Brick ends, well or badly (R555). -/
  | nandProgramComplete (brick : BitVec 6) (erase ok : Bool)
  | nandDieFailure (brick : BitVec 6) (die : BitVec 3)
  | entropyHealthFail
  | readRegister (r : MailReq)
  | writeRegister (r : MailReq)
  | bondStage (r : MailReq)
  | bondApply (r : MailReq)
  | drainTimeout
  | moduleReset (r : MailReq)
  | firmwareStage (r : MailReq)
  | firmwareActivate (r : MailReq)
  | secureErase (r : MailReq)
  | holdupTest (r : MailReq)
  | telemetryRequest
  | setEndpointId (eid : Byte)
  | getEndpointId
  | getMctpVersionSupport
  | getMessageTypeSupport
  | getVendorDefinedMessageSupport
  | smbusAlertResponse
  | lintelStage (r : MailReq)
  | lintelRead (r : MailReq)
  | attest (r : MailReq)
  | rollbackCommit (r : MailReq)
  | debugChallenge (r : MailReq)
  | debugUnlock (r : MailReq)
  | debugClose (r : MailReq)
  | debugExpiry
  | challengeExpiry
  | keyInstall (r : MailReq)
  | keyDestroy (r : MailReq)
  | anchorUpdate (r : MailReq)
  | extest
  | clamp
  | highz
  | samplePreload (pins : List Bool)
  | idcode
  | bypass
  | tapReset
  | uzoneErrorCountsRead
  | plumbAliveFailuresRead
  | mortarPeerEventsRead
  | errorCountsRead
  | epochPublishDelayRead
  | clockStatusRead
  /-- An access of 8 bytes when `eight`, else of 4, to a control-space address (R593). -/
  | registerWrite (addr : BitVec 32) (eight : Bool) (w : Written 64)
  | mortarFlitReceived (port : BitVec 3) (flit : List Byte) (errors : List Nat)
  | mortarNakReceived (port : BitVec 3) (seq : BitVec 12)
  | mortarFecLockLost (port : BitVec 3) (lane : BitVec 3)
  | mortarAckTimeout (port : BitVec 3)
  | uzoneCompanionRetrain
  | xfReadResponse (who : FarRead) (poison : Bool)
  /-- Voltages before and after the discharge, in mV (R549). -/
  | holdupTestEnd (v1 v2 : Nat) (storedMj : Nat)
  | holdupFloorCrossing (storedMj : Nat)
  | entropyHealthPass
  | railFault (rail : BitVec 8) (millivolts : Nat)
  /-- The 10 ms averages: input power in mW, main and auxiliary input in mV, the duty the cap needs. -/
  | powerCapThrottle (inputMw mainMv auxMv : Nat) (mainOver : Bool) (capDuty : Nat)
  deriving DecidableEq, Repr

end Sys2Proof
end

