-- ==== Sys2Proof/Machine/Bytes.lean ====
section
/-!
DEFINITION. Byte strings: little-endian fields (R9), reserved space, the cyclic checks of R48,
R327 and R412, and the hash `mix` of R53.
-/

namespace Sys2Proof.Machine

/-- A little-endian number (R9). -/
def fromLE : List Byte → Nat
  | [] => 0
  | b :: bs => b.toNat + 256 * fromLE bs

/-- `n` bytes of a number, little-endian (R9). -/
def leBytes : Nat → Nat → List Byte
  | 0, _ => []
  | n + 1, v => BitVec.ofNat 8 v :: leBytes n (v / 256)

/-- The field of `n` bytes at offset `off`; bytes beyond the string read 0. -/
def getLE (bs : List Byte) (off n : Nat) : Nat := fromLE ((bs.drop off).take n)

/-- One byte of a string, 0 beyond its end. -/
def byteAt (bs : List Byte) (off : Nat) : Nat := (bs.getD off 0).toNat

/-- `n` zero bytes: reserved space (R10). -/
def zeros (n : Nat) : List Byte := List.replicate n 0

/-- A string cut or padded with zeros to `n` bytes. -/
def fit (n : Nat) (bs : List Byte) : List Byte := (bs ++ zeros (n - bs.length)).take n

/-- Bits `hi` down to `lo` of a number (R8). -/
def bits (v hi lo : Nat) : Nat := (v >>> lo) % 2 ^ (hi + 1 - lo)

/-- One bit of a number (R8). -/
def bit (v i : Nat) : Bool := v.testBit i

/-- A Bool as a bit. -/
def b2n (b : Bool) : Nat := if b then 1 else 0

/-- The version, major and minor, and size that open a structure (R14). -/
def header (size : Nat) : List Byte := [0, 1] ++ leBytes 2 size

/-- Whether a structure's version and size pass R15, for major 1 and the least size `min`. -/
def versionOk (bs : List Byte) (min : Nat) : Bool :=
  byteAt bs 1 == 1 && decide (min ≤ getLE bs 2 2)

/-- The offset at which R15 fails: the major byte, or the size. -/
def versionFault (bs : List Byte) : Nat := if byteAt bs 1 == 1 then 2 else 1

/-- One byte of a reflected CRC step (R48). -/
def crcBits : Nat → Nat → Nat
  | 0, r => r
  | n + 1, r => crcBits n (if r % 2 == 1 then (r >>> 1) ^^^ 0x82F63B78 else r >>> 1)

/-- CRC-32C of R48. -/
def crc32c (bs : List Byte) : Nat :=
  (bs.foldl (fun r b => crcBits 8 (r ^^^ b.toNat)) 0xFFFFFFFF) ^^^ 0xFFFFFFFF

/-- The bits of one byte, highest first, through a register of `w` bits (R327). -/
def shiftBits (w poly b : Nat) : Nat → Nat → Nat
  | 0, r => r
  | i + 1, r =>
    let fb := bit r (w - 1) != bit b i
    let r' := (r <<< 1) % 2 ^ w
    shiftBits w poly b i (if fb then r' ^^^ (poly % 2 ^ w) else r')

/-- A number with its low `w` bits in the opposite order (R327). -/
def reverseBits : Nat → Nat → Nat
  | 0, _ => 0
  | w + 1, v => (v % 2) <<< w ||| reverseBits w (v / 2)

/-- The register of R327 after a string of bytes. -/
def plumbFold (w poly : Nat) (reflectIn : Bool) (reg : Nat) (bs : List Byte) : Nat :=
  bs.foldl (fun r b =>
    shiftBits w poly (if reflectIn then reverseBits 8 b.toNat else b.toNat) 8 r) reg

/-- The CRC-64 of R412, over bytes 0 to 247 of a flit. -/
def crc64 (bs : List Byte) : Nat :=
  plumbFold 64 0x42F0E1EBA9EA3693 false (2 ^ 64 - 1) bs ^^^ (2 ^ 64 - 1)

/-- The hash of R53, modulo 2^64. -/
def mix (x : Nat) : Nat :=
  let z := (x + 0x9E3779B97F4A7C15) % 2 ^ 64
  let z := ((z ^^^ (z >>> 30)) * 0xBF58476D1CE4E5B9) % 2 ^ 64
  let z := ((z ^^^ (z >>> 27)) * 0x94D049BB133111EB) % 2 ^ 64
  z ^^^ (z >>> 31)

/-- The number of 1 bits among the low `n` bits. -/
def popcount : Nat → Nat → Nat
  | 0, _ => 0
  | n + 1, v => v % 2 + popcount n (v / 2)

/-- Hamming distance of two sketches of `S` bits (R42). -/
def hamming (S a b : Nat) : Nat := popcount S (a ^^^ b)

/-- Division rounded up. -/
def ceilDiv (a b : Nat) : Nat := (a + b - 1) / b

/-- A number rounded up to a multiple of `m`. -/
def roundUp (a m : Nat) : Nat := ceilDiv a m * m

/-- Saturation at `m`. -/
def sat (m v : Nat) : Nat := min m v

/-- A list with its element `i` changed. -/
def modAt {α : Type} (l : List α) (i : Nat) (f : α → α) : List α :=
  match l, i with
  | [], _ => []
  | x :: xs, 0 => f x :: xs
  | x :: xs, n + 1 => x :: modAt xs n f

/-- A list with `f` applied to the elements that satisfy `p`. -/
def mapIf {α : Type} (p : α → Bool) (f : α → α) (l : List α) : List α :=
  l.map (fun x => if p x then f x else x)

/-- Insertion that keeps a list in the order `le`, after the elements it does not precede. -/
def insertBy {α : Type} (lt : α → α → Bool) (x : α) : List α → List α
  | [] => [x]
  | y :: ys => if lt x y then x :: y :: ys else y :: insertBy lt x ys

/-- A stable sort by `lt`. -/
def sortBy {α : Type} (lt : α → α → Bool) (l : List α) : List α :=
  l.foldl (fun acc x => insertBy lt x acc) []

/-- Pieces of at most `n` elements, in order (`fuel` bounds their number). -/
def chunks {α : Type} (n : Nat) : Nat → List α → List (List α)
  | 0, _ => []
  | _ + 1, [] => []
  | f + 1, l => l.take n :: chunks n f (l.drop n)

end Sys2Proof.Machine
end

