-- ==== Sys2Proof/Machine/Float.lean ====
section
/-!
DEFINITION. Float arithmetic to the bit: IEEE 754 binary32 and binary64 with round to nearest even
(R195), rounding towards +Inf (R246), conversion between formats (R204), square root (R107), and
the exponential and logarithm correctly rounded (R247, R249, R251). Each operation forms its exact
result, or an approximation far finer than any rounding boundary, and rounds once.
-/

namespace Sys2Proof.Machine

/-- How a result is rounded. -/
abbrev RoundUp := Bool

/-- The value a bit pattern stands for in a format with infinities. -/
def fltOfBits (f : FltFormat) (v : Nat) : Flt :=
  let neg := bit v (f.ebits + f.mbits)
  let e := bits v (f.ebits + f.mbits - 1) f.mbits
  let m := v % 2 ^ f.mbits
  let bias : Int := 2 ^ (f.ebits - 1) - 1
  if e == 2 ^ f.ebits - 1 then (if m == 0 then .inf neg else .nan neg)
  else if e == 0 then .fin neg m (1 - bias - f.mbits)
  else .fin neg (2 ^ f.mbits + m) (e - bias - f.mbits)

/-- The integer `m * 2^e / 2^q` rounded: to nearest with ties to even, or away from zero when
`away`, or towards zero when neither (`mode` 0 nearest, 1 away from zero, 2 towards zero). -/
def roundShift (mode : Nat) (m : Nat) (e q : Int) : Nat :=
  if q ≤ e then m <<< (e - q).toNat
  else
    let s := (q - e).toNat
    let lo := m % 2 ^ s
    let hi := m >>> s
    let up := match mode with
      | 0 => decide (2 ^ s < 2 * lo) || (2 * lo == 2 ^ s && hi % 2 == 1)
      | 1 => lo != 0
      | _ => false
    if up then hi + 1 else hi

/-- The bit pattern of a finite value rounded to a format: to nearest even, or towards +Inf when
`up`. Overflow gives an infinity (R195), or the greatest finite value where rounding is towards it. -/
def roundFin (f : FltFormat) (up : RoundUp) (neg : Bool) (m : Nat) (e : Int) : Nat :=
  let sign := if neg then 2 ^ (f.ebits + f.mbits) else 0
  if m == 0 then sign
  else
    let bias : Int := 2 ^ (f.ebits - 1) - 1
    let qmin : Int := 1 - bias - f.mbits
    let top : Int := e + Nat.log2 m
    let q := max (top - f.mbits) qmin
    let mode := if up then (if neg then 2 else 1) else 0
    let r := roundShift mode m e q
    let (r, q) := if r == 2 ^ (f.mbits + 1) then (2 ^ f.mbits, q + 1) else (r, q)
    let emax : Int := 2 ^ f.ebits - 2
    let eb : Int := if r < 2 ^ f.mbits then 0 else q + f.mbits + bias
    if eb > emax then
      (if up && neg then sign + ((2 ^ f.ebits - 1) <<< f.mbits) - 1
       else sign + ((2 ^ f.ebits - 1) <<< f.mbits))
    else if r < 2 ^ f.mbits then sign + r
    else sign + (eb.toNat <<< f.mbits) + (r - 2 ^ f.mbits)

/-- The positive quiet NaN of R195. -/
def qnan32 : F32 := 0x7FC00000

def posInf32 : F32 := 0x7F800000
def negInf32 : F32 := 0xFF800000
def one32 : F32 := 0x3F800000

def v32 (x : F32) : Flt := fltOfBits fmt32 x.toNat

/-- A decoded value as FP32; every NaN is the positive quiet NaN (R195). -/
def fltTo32 (up : RoundUp) : Flt → F32
  | .nan _ => qnan32
  | .inf n => if n then negInf32 else posInf32
  | .fin n m e => BitVec.ofNat 32 (roundFin fmt32 up n m e)

/-- The exact sum of two finite values, as a signed mantissa over a common exponent. -/
def fltAdd : Flt → Flt → Flt
  | .nan n, _ => .nan n
  | _, .nan n => .nan n
  | .inf a, .inf b => if a == b then .inf a else .nan false
  | .inf a, _ => .inf a
  | _, .inf b => .inf b
  | .fin na ma ea, .fin nb mb eb =>
    let e := min ea eb
    let a : Int := (if na then -1 else 1) * ((ma <<< (ea - e).toNat : Nat) : Int)
    let b : Int := (if nb then -1 else 1) * ((mb <<< (eb - e).toNat : Nat) : Int)
    let s := a + b
    if s == 0 then .fin (na && nb) 0 e else .fin (decide (s < 0)) s.natAbs e

def fltNeg : Flt → Flt
  | .nan n => .nan n
  | .inf n => .inf (!n)
  | .fin n m e => .fin (!n) m e

/-- The exact product. -/
def fltMul : Flt → Flt → Flt
  | .nan n, _ => .nan n
  | _, .nan n => .nan n
  | .inf a, .inf b => .inf (a != b)
  | .inf a, .fin b m _ => if m == 0 then .nan false else .inf (a != b)
  | .fin a m _, .inf b => if m == 0 then .nan false else .inf (a != b)
  | .fin na ma ea, .fin nb mb eb => .fin (na != nb) (ma * mb) (ea + eb)

/-- The quotient to 90 bits with a sticky last bit, which no rounding of R195 can tell from the
exact quotient. -/
def fltDiv : Flt → Flt → Flt
  | .nan n, _ => .nan n
  | _, .nan n => .nan n
  | .inf _, .inf _ => .nan false
  | .inf a, .fin b _ _ => .inf (a != b)
  | .fin a _ _, .inf b => .fin (a != b) 0 0
  | .fin na ma ea, .fin nb mb eb =>
    if mb == 0 then (if ma == 0 then .nan false else .inf (na != nb))
    else
      let sh := 90 + Nat.log2 mb
      let n := ma <<< sh
      .fin (na != nb) (2 * (n / mb) + (if n % mb == 0 then 0 else 1)) (ea - eb - sh - 1)

/-- Integer square root by bits: `r` is the root so far, `i` the next bit. -/
def isqrtBits (n : Nat) : Nat → Nat → Nat
  | 0, r => r
  | i + 1, r =>
    let t := r + 2 ^ i
    isqrtBits n i (if t * t ≤ n then t else r)

def isqrt (n : Nat) : Nat := isqrtBits n (Nat.log2 n / 2 + 1) 0

/-- The square root, with a sticky last bit. -/
def fltSqrt : Flt → Flt
  | .nan n => .nan n
  | .inf n => if n then .nan false else .inf false
  | .fin n m e =>
    if m == 0 then .fin n 0 0
    else if n then .nan false
    else
      let m1 := if e % 2 == 0 then m <<< 120 else m <<< 121
      let e1 := if e % 2 == 0 then e - 120 else e - 121
      let r := isqrt m1
      .fin false (2 * r + (if r * r == m1 then 0 else 1)) (e1 / 2 - 1)

/-! ### FP32 operations rounded to nearest even (R195) -/

def fadd (a b : F32) : F32 := fltTo32 false (fltAdd (v32 a) (v32 b))
def fsub (a b : F32) : F32 := fltTo32 false (fltAdd (v32 a) (fltNeg (v32 b)))
def fmul (a b : F32) : F32 := fltTo32 false (fltMul (v32 a) (v32 b))
def fdiv (a b : F32) : F32 := fltTo32 false (fltDiv (v32 a) (v32 b))
def fsqrt (a : F32) : F32 := fltTo32 false (fltSqrt (v32 a))


/-- The magnitude. -/
def fabs (a : F32) : F32 := a &&& 0x7FFFFFFF

def isNaN32 (a : F32) : Bool := match (v32 a) with | .nan _ => true | _ => false
/-- Negation, an FP32 operation of R106: of a NaN it gives the NaN of R195. -/
def fneg (a : F32) : F32 := if isNaN32 a then qnan32 else a ^^^ 0x80000000
def isFin32 (a : F32) : Bool := match (v32 a) with | .fin _ _ _ => true | _ => false
def isZero32 (a : F32) : Bool := a &&& 0x7FFFFFFF == 0

/-- An integer as FP32, rounded to nearest (R216). -/
def intTo32 (i : Int) : F32 := fltTo32 false (Flt.fin (decide (i < 0)) i.natAbs 0)

/-- Numerical comparison of finite or infinite values: -1, 0 or 1 as an Int, with the zeros equal;
only used where neither is a NaN. -/
def fltCmp : Flt → Flt → Int
  | .inf a, .inf b => if a == b then 0 else if a then -1 else 1
  | .inf a, _ => if a then -1 else 1
  | _, .inf b => if b then 1 else -1
  | a, b => match fltAdd a (fltNeg b) with
    | .fin n m _ => if m == 0 then 0 else if n then -1 else 1
    | _ => 0

/-- Numbers by value, NaNs equal to each other and above every number (R112). -/
def fcmp (a b : F32) : Int :=
  if isNaN32 a then (if isNaN32 b then 0 else 1)
  else if isNaN32 b then -1 else fltCmp (v32 a) (v32 b)

def fltb (a b : F32) : Bool := fcmp a b < 0
/-- `a > b` and `a ≥ b` of IEEE 754: false with a NaN. -/
def fgt (a b : F32) : Bool := !isNaN32 a && !isNaN32 b && fcmp b a < 0
def fge (a b : F32) : Bool := !isNaN32 a && !isNaN32 b && fcmp b a ≤ 0

/-- The greater of two values, NaN if either is (R249, R250). -/
def fmax (a b : F32) : F32 :=
  if isNaN32 a || isNaN32 b then qnan32 else if fltb a b then b else a

/-- The FP32 sum in list order from +0. -/
def fsum (l : List F32) : F32 := l.foldl fadd 0

/-- FP32 rounded towards +Inf (R246, R247, R253). -/
def upAdd (a : F32) (b : Flt) : F32 := fltTo32 true (fltAdd (v32 a) b)
def upMul (a b : F32) : F32 := fltTo32 true (fltMul (v32 a) (v32 b))

/-! ### Conversion (R204, R205) -/

/-- Conversion to BF16 or FP16: nearest even, NaN to the quiet NaN of its sign. -/
def toSmall (f : FltFormat) (x : F32) : Nat :=
  let sign := fun (n : Bool) => if n then 2 ^ (f.ebits + f.mbits) else 0
  match (v32 x) with
  | .nan n => sign n + ((2 ^ f.ebits - 1) <<< f.mbits) + 2 ^ (f.mbits - 1)
  | .inf n => sign n + ((2 ^ f.ebits - 1) <<< f.mbits)
  | .fin n m e => roundFin f false n m e

def toBf16 (x : F32) : Nat := toSmall fmtBf16 x
def toFp16 (x : F32) : Nat := toSmall fmtFp16 x

/-- E5M2: a finite value beyond the range saturates to 57,344 (R204). -/
def toE5M2 (x : F32) : Nat :=
  match (v32 x) with
  | .nan n => if n then 0xFE else 0x7E
  | .inf n => if n then 0xFC else 0x7C
  | .fin n m e =>
    let r := roundFin fmtE5M2 false n m e
    if r % 128 ≥ 0x7C then (if n then 0xFB else 0x7B) else r

/-- The value of an E4M3 code: no infinity, NaN at 0x7F and 0xFF (R193). -/
def e4m3Val (c : Nat) : Flt :=
  let n := bit c 7
  if c % 128 == 127 then .nan n
  else if bits c 6 3 == 0 then .fin n (c % 8) (-9)
  else .fin n (8 + c % 8) (bits c 6 3 - 10)

/-- E4M3: a finite value beyond the range saturates to 448; an infinity becomes a NaN (R204). -/
def toE4M3 (x : F32) : Nat :=
  match (v32 x) with
  | .nan n => if n then 0xFF else 0x7F
  | .inf n => if n then 0xFF else 0x7F
  | .fin n m e =>
    let s := if n then 128 else 0
    if m == 0 then s
    else
      let q := max (e + Nat.log2 m - 3) (-9)
      let r := roundShift 0 m e q
      let (r, q) := if r == 16 then (8, q + 1) else (r, q)
      let c := if r < 8 then (r : Int) else (q + 10) * 8 + (r - 8)
      if c > 126 then s + 126 else s + c.toNat

/-- A pattern of a small format as FP32, exactly; a NaN keeps its sign (R204). -/
def smallTo32 (f : FltFormat) (v : Nat) : F32 :=
  match fltOfBits f v with
  | .nan n => if n then 0xFFC00000 else qnan32
  | x => fltTo32 false x

def bf16To32 (v : Nat) : F32 := smallTo32 fmtBf16 v
def fp16To32 (v : Nat) : F32 := smallTo32 fmtFp16 v
def e5m2To32 (v : Nat) : F32 := smallTo32 fmtE5M2 v
def e4m3To32 (v : Nat) : F32 :=
  match e4m3Val v with
  | .nan n => if n then 0xFFC00000 else qnan32
  | x => fltTo32 false x

/-- A value rounded to BF16 and kept in FP32. -/
def bf16 (x : F32) : F32 := bf16To32 (toBf16 x)

/-- The nearest integer of `a / b`, ties away from zero (R202). -/
def roundAway (x : F32) : Int :=
  match (v32 x) with
  | .fin n m e =>
    let r : Nat := if 0 ≤ e then m <<< e.toNat
      else
        let s := (-e).toNat
        (m + 2 ^ (s - 1)) >>> s
    if n then -(r : Int) else r
  | _ => 0

/-! ### Exponential and logarithm

Fixed point with `expBits` fractional bits. The results are irrational except at the points the
manual names, so a sticky last bit makes one rounding exact (DEDUCED, log 8). -/

def expBits : Nat := 200

/-- The Taylor series of e^t for `t` in fixed point, `t` at most 1. -/
def expSeries (t : Nat) : Nat → Nat → Nat → Nat → Nat
  | 0, _, _, acc => acc
  | n + 1, i, term, acc =>
    let term' := (term * t / i) >>> expBits
    expSeries t n (i + 1) term' (acc + term')

/-- `x` squared `n` times in fixed point. -/
def squareN : Nat → Nat → Nat
  | 0, x => x
  | n + 1, x => squareN n ((x * x) >>> expBits)

/-- e^y for y = m * 2^e at most about 110 in magnitude, as a value with a sticky bit. -/
def expMag (neg : Bool) (m : Nat) (e : Int) : Flt :=
  let y : Nat := if 0 ≤ e + expBits then m <<< (e + expBits).toNat else m >>> (-(e + expBits)).toNat
  let r := squareN 8 (expSeries (y >>> 8) 60 1 (2 ^ expBits) (2 ^ expBits))
  if neg then .fin false (2 * (2 ^ expBits * 2 ^ expBits / r) + 1) (-(expBits : Int) - 1)
  else .fin false (2 * r + 1) (-(expBits : Int) - 1)

/-- e^y rounded to FP32, to nearest or towards +Inf (R247, R249): exact at 0 and at -Inf. -/
def fexp (up : RoundUp) (x : F32) : F32 :=
  match (v32 x) with
  | .nan _ => qnan32
  | .inf n => if n then 0 else posInf32
  | .fin n m e =>
    if m == 0 then one32
    else if e + Nat.log2 m > 6 then
      (if n then (if up then 1 else 0) else posInf32)
    else fltTo32 up (expMag n m e)

/-- 2 * atanh(a / b) in fixed point. -/
def atanhSeries (z2 : Nat) : Nat → Nat → Nat → Nat → Nat
  | 0, _, _, acc => acc
  | n + 1, i, pow, acc => atanhSeries z2 n (i + 2) ((pow * z2) >>> expBits) (acc + pow / i)

def ln2Fixed : Nat :=
  let z := 2 ^ expBits / 3
  2 * atanhSeries ((z * z) >>> expBits) 70 1 z 0

/-- The natural logarithm rounded to nearest (R251). -/
def fln (x : F32) : F32 :=
  match (v32 x) with
  | .nan _ => qnan32
  | .inf n => if n then qnan32 else posInf32
  | .fin n m e =>
    if m == 0 then negInf32
    else if n then qnan32
    else
      let k := Nat.log2 m
      let a := m <<< (expBits - k)
      if m == 2 ^ k && e + k == 0 then 0
      else
        let z := ((a - 2 ^ expBits) <<< expBits) / (a + 2 ^ expBits)
        let frac : Int := 2 * atanhSeries ((z * z) >>> expBits) 70 1 z 0
        let v : Int := frac + (e + k) * ln2Fixed
        fltTo32 false (Flt.fin (decide (v < 0)) (2 * v.natAbs + 1) (-(expBits : Int) - 1))

/-! ### FP64 (R119, R133) -/

def v64 (x : F64) : Flt := fltOfBits fmt64 x.toNat

def fltTo64 : Flt → F64
  | .nan _ => 0x7FF8000000000000
  | .inf n => if n then 0xFFF0000000000000 else 0x7FF0000000000000
  | .fin n m e => BitVec.ofNat 64 (roundFin fmt64 false n m e)

def dadd (a b : F64) : F64 := fltTo64 (fltAdd (v64 a) (v64 b))
def dsub (a b : F64) : F64 := fltTo64 (fltAdd (v64 a) (fltNeg (v64 b)))
def dmul (a b : F64) : F64 := fltTo64 (fltMul (v64 a) (v64 b))
def ddiv (a b : F64) : F64 := fltTo64 (fltDiv (v64 a) (v64 b))
def natTo64 (n : Nat) : F64 := fltTo64 (Flt.fin false n 0)

/-- Whether a finite FP64 value is below 2^-e (R134). -/
def dltPow (x : F64) (e : Nat) : Bool := fltCmp (v64 x) (.fin false 1 (-(e : Int))) < 0

/-- x * 2^32 rounded down and saturated (R121 MATCH_ESTIMATE). -/
def dEstimate (x : F64) : Nat :=
  match (v64 x) with
  | .fin n m e =>
    if n then 0
    else
      let e' := e + 32
      sat 0xFFFFFFFF (if 0 ≤ e' then m <<< e'.toNat else m >>> (-e').toNat)
  | _ => 0xFFFFFFFF

/-! ### Exact sums (R119, R124) -/

/-- A finite FP32 value as an integer in units of 2^-152. -/
def exactTerm (x : F32) : Int :=
  match (v32 x) with
  | .fin n m e => (if n then -1 else 1) * ((m <<< (e + 152).toNat : Nat) : Int)
  | _ => 0

/-- SPECIAL bits of R124 that a term adds. -/
def exactSpecial (x : F32) : Nat :=
  match (v32 x) with
  | .nan _ => 1
  | .inf n => if n then 4 else 2
  | .fin _ _ _ => 0

/-- The reported sum of R119. -/
def exactTo64 (v : Int) (special : Nat) : F64 :=
  if bit special 0 || (bit special 1 && bit special 2) then 0x7FF8000000000000
  else if bit special 1 then 0x7FF0000000000000
  else if bit special 2 then 0xFFF0000000000000
  else fltTo64 (Flt.fin (decide (v < 0)) v.natAbs (-152))

/-- An exact record rounded to FP32 towards +Inf (R253). -/
def exactUp32 (v : Int) (special : Nat) : F32 :=
  if bit special 0 || (bit special 1 && bit special 2) then qnan32
  else if bit special 1 then posInf32
  else if bit special 2 then negInf32
  else fltTo32 true (Flt.fin (decide (v < 0)) v.natAbs (-152))

end Sys2Proof.Machine
end

