-- ==== Sys2Proof/Config.lean ====
section
/-!
DEFINITION. What one module fixes and the manual leaves open, as constants with no body: no proof
can see a value of theirs, so a claim holds whatever they are. The cryptographic algorithms that
the manual takes from other standards (R502, R505, R522, R526, R530) stand here as uninterpreted
functions.
-/

namespace Sys2Proof.Config

/-- A byte the manual leaves undefined: draw number and address (R291 PLACE, R366). -/
opaque freeByte : Nat → Nat → BitVec 8

/-- The group scale code of R201 where no E4M3 value reaches the quotient: its bit pattern. -/
opaque scaleCode : BitVec 32 → BitVec 7

/-- The UINT16 of R98 where the scaled table value is NaN or above 65,535: its bit pattern. -/
opaque tableEntry : BitVec 32 → BitVec 16

/-- An element of C whose operands share a grouped format and differ in group size, for which R206 and
R207 state no value: a function of the two rows (R188), each as the numbers of its record. -/
opaque mixedDot : List Nat → List Nat → BitVec 32

/-- The reference c of R247 for an item whose candidate row is empty and whose dropped set is not, for
which the manual states no value: its bit pattern under a draw. -/
opaque boundRef : Nat → BitVec 32

/-- The mass that a NaN adds to ACC_MASS (R260), which the manual does not state: draw,
page and row record. -/
opaque freeMass : Nat → Nat → Nat → Nat

/-- LOCATION of a page in Bulk, which is internal (R233): draw. -/
opaque bulkLocation : Nat → Nat

/-- The page of a Brick that its media map gives a block or a Bulk page, which is internal (R54, R559):
draw. -/
opaque freePage : Nat → Nat

/-- SHA-384 of a byte string (FIPS 180-4, R502, R530): 48 bytes by the standard. -/
opaque sha384 : List Byte → List Byte

/-- RSASSA-PSS verification of R505: modulus, message, signature. -/
opaque rsaVerify : List Byte → List Byte → List Byte → Bool

/-- SLH-DSA-SHA2-192s verification of R505: public key, message, signature. -/
opaque slhVerify : List Byte → List Byte → List Byte → Bool

/-- The device's public keys (R505, R509): its RSA-3072 modulus and its SLH-DSA-SHA2-192s key. -/
opaque deviceModulus : List Byte
opaque devicePublicKey : List Byte

/-- The device's signatures over a message under a draw (R505, R506). -/
opaque deviceRsa : Nat → List Byte → List Byte
opaque deviceSlh : Nat → List Byte → List Byte

/-- RSAES-OAEP unwrap with the transport key (R522); none when the padding fails. -/
opaque oaepUnwrap : List Byte → Option (List Byte)

/-- HKDF of R526: fabric key and info bytes. -/
opaque hkdf : List Byte → List Byte → List Byte

/-- AES-256-GCM of R466: key, identifier, count and flit give the flit's plain bytes 8 to 231, or none
where the tag fails. -/
opaque gcmOpen : List Byte → Nat → Nat → List Byte → Option (List Byte)

/-- The other way: key, identifier, count, a flit's bytes 0 to 7 and its plain bytes give bytes 8 to 247,
the ciphertext and the tag. -/
opaque gcmSeal : List Byte → Nat → Nat → List Byte → List Byte → List Byte

/-- Bytes from Lintel's entropy source (R504): draw number and length. -/
opaque entropy : Nat → Nat → List Byte

/-- The serial number in OTP (R503). -/
opaque serial : Nat → Byte

/-- Vendor anchor digests 0 to 3 in OTP (R503). -/
opaque vendorAnchor : Nat → List Byte

/-- The identity certificate written at manufacture (R509). -/
opaque identityCertificate : List Byte

/-- SHA-384 of the transport public modulus (R510). -/
opaque transportKeyDigest : List Byte

/-- SEQUENCE of the factory Bond image, which the manual does not fix (R478). -/
opaque factorySequence : Nat

/-- ROLLBACK_INDEX of the factory Bond image (R478). -/
opaque factoryRollback : Nat

/-- FIRMWARE_VERSION of the factory firmware (R478). -/
opaque factoryFirmware : Nat

/-- ROLLBACK_INDEX of the factory firmware (R513). -/
opaque factoryFirmwareRollback : Nat

/-- The signature block bytes of the factory Bond image (R477). -/
opaque factorySignature : List Byte

/-- The factory firmware package's signed bytes (R513). -/
opaque factoryPackage : List Byte

/-- The first temperature the sensors measure (R588, R598 "Measured"): sensor number. -/
opaque firstTemperature : Nat → BitVec 8

/-- Whether the board reverses the lanes of Uzone (R408, R433). -/
opaque uzoneReversed : Bool

/-- The lanes of Uzone whose polarity the board inverts (R408, R433): bit i for logical lane i. -/
opaque uzonePolarity : BitVec 16

/-- The same for a Mortar port (R439). -/
opaque portReversed : Nat → Bool
opaque portPolarity : Nat → BitVec 16

/-- A number the manual leaves open: draw number (BOOT_MS of R500, the time and the rate of R461 and R462,
and the counts of other modules' summaries in R458). -/
opaque freeChoice : Nat → Nat

end Sys2Proof.Config
end

