-- ==== Sys2Proof/Machine/State.lean ====
section
/-!
DEFINITION. The state of one KV7-128T module, as plain data. Every field carries as its default
the value it has in `State.reset`; the rule that names it stands in its structure's docstring.
-/

namespace Sys2Proof.Machine

/-- Bytes of memory that stand there unlisted: a unit whose contents the manual leaves undefined
(R291 PLACE), its bytes free under a draw; a unit cleared to zeros; and an ID map area of `bytes`
bytes from `base`, whose unlisted bytes are those of empty entries (R63). -/
inductive Fill where
  | free (unit draw : Nat)
  | zero (unit : Nat)
  | idMap (base bytes : Nat)
  deriving DecidableEq, Repr

/-- Memory by device name (R271, R296): `cells` in canonical form, and `fills`, the newest first. A
byte that is unlisted and in no fill reads 0 (DESIGN CHOICE, log 2). -/
structure Mem where
  cells : List Host.Cell := []
  fills : List Fill := []
  deriving DecidableEq, Repr

/-! ## Queues and commands (R342 to R383) -/

/-- A completion entry before it is written (R357): `flags` are bits 1 to 3 of FLAGS. -/
structure Completion where
  cmd : Nat
  sq : Nat
  tag : Nat
  status : Nat
  flags : Nat
  info32 : Nat
  infoA : Nat
  infoB : Nat
  deriving DecidableEq, Repr

/-- What a dispatched command waits for (R32, R148, R160, R165, R174, R178, R179, R261, R283, R293,
R317, R326, R372, R374, R419, R423). -/
inductive Wait where
  | rangeLock | repair | migrate | kvBusy | linkPool | plumb (u : Nat) | change | patchLog
  | staging | compact | drain | tier (unit : Nat) | power | domain | restart | far (link : Nat)
  | peer (tag : Nat) | host
  deriving DecidableEq, Repr

/-- Where a command in flight stands: fetched and not dispatched, dispatched and free to go on,
dispatched and waiting, running, waiting for NAND under Seal (R169), waiting for the responses to its
writes of companion and neighbour memory (R422, R454), or completed with its completion held (R358). -/
inductive Phase where
  | fetched | ready | waiting (w : Wait) | running | sealing (c : Completion)
  | writing (c : Completion) | held
  deriving DecidableEq, Repr

/-- What the queries of a SEARCH_BATCH have come to (R367): READY slots, the OR of their flags,
whether any was truncated or short, and the lowest-numbered failure (index, status, INFO_A). -/
structure Batch where
  ready : Nat := 0
  flags : Nat := 0
  truncated : Bool := false
  short : Bool := false
  failed : Option (Nat × Nat × Nat) := none
  deriving DecidableEq, Repr

/-- A command in flight (R342): `entry` is the 128-byte submission entry (R352), `pin` the epoch
it is pinned to (R144, R145), `retry` marks the copy that RETRY dispatches (R333, R372),
`count` is a count that the command carries to its completion (R360), `slots` its
result slots with the SEQUENCE written at BUSY (R364), `loaded` the reads of far, neighbour
and companion memory that have been made for it (R282, R422, R454), `checked` once it has passed the checks of R353, `born` the
collection it was dispatched on (R176), `after` the commands it waits for (R176, R238, R374), `batch` the state
of a SEARCH_BATCH, `waited` once it has been counted under R184, `projected` once the Slab has computed
its sketches (R222), `grow` the sequence and the length that its completion gives it (R237), `lens` the
lengths of its sequences at its dispatch (R238, R242). -/
structure Cmd where
  id : Nat
  sq : Nat
  urgent : Bool
  entry : List Byte
  phase : Phase := .fetched
  retry : Bool := false
  pin : Option Nat := none
  count : Nat := 0
  slots : List (Nat × Nat) := []
  loaded : List Nat := []
  checked : Bool := false
  born : Option Nat := none
  after : List Nat := []
  batch : Batch := {}
  waited : Bool := false
  projected : Bool := false
  grow : Option (Nat × Nat) := none
  lens : List Nat := []
  deriving DecidableEq, Repr

/-- A submission queue (R343 to R349, R372, R332). `restart` while a restart in MODE RETRY has still to
dispatch the kept entry: the QUEUE_RESTART that then completes, if one asked for it. -/
structure SubQ where
  id : Nat
  cls : Nat
  depth : Nat
  cq : Nat
  base : Nat
  head : Nat := 0
  tail : Nat := 0
  frozen : Bool := false
  deletedBy : Option Nat := none
  dbErr : Bool := false
  kept : Option (List Byte) := none
  restart : Option (Option Nat) := none
  alive : Option Nat := none
  deriving DecidableEq, Repr

/-- A completion queue (R343, R358, R362): `since` and `firstAt` count completions since the
queue's last interrupt. -/
structure ComplQ where
  id : Nat
  depth : Nat
  base : Nat
  vector : Option Nat
  coCount : Nat
  coTime : Nat
  head : Nat := 0
  tail : Nat := 0
  phase : Bool := true
  since : Nat := 0
  firstAt : Option Nat := none
  held : List Completion := []
  dbErr : Bool := false
  deriving DecidableEq, Repr

/-- A result area (R346). -/
structure ResArea where
  id : Nat
  base : Nat
  bytes : Nat
  deriving DecidableEq, Repr

/-- A record of the command error log (R371). -/
structure ErrRec where
  number : Nat
  sq : Nat
  tag : Nat
  status : Nat
  froze : Bool
  retryCopy : Bool
  heldCount : Nat
  time : Nat
  info32 : Nat
  infoA : Nat
  infoB : Nat
  entry : List Byte
  deriving DecidableEq, Repr

/-- The command scheduler (R342, R350, R370, R376 to R383, R404). `cur`, `credit` and `rr` are
the arbiter of R350. -/
structure Sched where
  adminSqBase : BitVec 64 := 0
  adminCqBase : BitVec 64 := 0
  adminEnable : Bool := false
  adminSqDepth : Nat := 0
  adminCqDepth : Nat := 0
  sqs : List SubQ := []
  cqs : List ComplQ := []
  areas : List ResArea := []
  cur : Nat := 0
  credit : List Nat := [0, 0, 0, 0]
  rr : List (Option Nat) := [none, none, none, none, none]
  cmds : List Cmd := []
  nextCmd : Nat := 0
  errLog : List ErrRec := []
  errNext : Nat := 0
  truncations : Nat := 0
  waits : Nat := 0
  watchdog : Nat := 10000
  stopped : Bool := false
  deriving DecidableEq, Repr

/-- A range-lock entry (R173, R174): `kv` false names vector IDs of a collection, true pages of
a sequence; the list order is the order in which entries were taken. -/
structure Lock where
  cmd : Nat
  kv : Bool
  obj : Nat
  lo : Nat
  hi : Nat
  held : Bool
  deriving DecidableEq, Repr

/-! ## Epochs (R138 to R148, R405, R406) -/

/-- An active schedule (R141): the boundary numbered `n` is the next. -/
structure Schedule where
  base : Nat
  period : Nat
  epoch : Nat
  n : Nat := 0
  deriving DecidableEq, Repr

/-- Epoch state (R138 to R145, R180 to R182, R405, R406): `opened` is the open epoch, `closing`
the epochs closed and not yet published, with their boundary times and the EPOCH_PUBLISH that waits
for each, `pubs` the numbers published that can still be pinned, `retain` the RETAIN last set, 0
where none has been (R598; log 111). -/
structure Epochs where
  published : Nat := 0
  opened : Nat := 1
  floor : Nat := 0
  retain : Nat := 0
  manual : Bool := false
  schedule : Option Schedule := none
  closing : List (Nat × Nat × Option Nat) := []
  pubs : List Nat := []
  boundaryTime : Nat := 0
  delayMax : Nat := 0
  delayLast : Nat := 0
  deriving DecidableEq, Repr

/-! ## Collections (R35 to R68, R131, R132, R147, R157) -/

/-- A vector in a grouped or BF16 format (R58, R197, R199 to R203): `fmt` is the code of R193;
for BF16 the codes are BF16 patterns; `side` lists (position, BF16) entries; `zp` holds the
effective zero points. -/
structure QVec where
  fmt : Nat
  g : Nat
  scale : F32
  codes : List Nat
  gs : List Nat := []
  zp : List Int := []
  side : List (Nat × Nat) := []
  deriving DecidableEq, Repr

/-- The collection's own copy of its projection matrix, or of its KV5 code book (R602, R67). -/
structure ProjCopy where
  kv5 : Bool
  rows : List QVec := []
  cents : List F32 := []
  deriving DecidableEq, Repr

/-- An assigned slot: its vector ID, attribute word, sketch or code as a number, re-rank copy and
side row (R37, R58, R130). -/
structure Slot where
  num : Nat
  vid : Nat
  attr : BitVec 64
  sketch : Nat
  copy : QVec
  sideRow : Option Nat := none
  deriving DecidableEq, Repr

/-- An entry of a Wall block (R45, R46, R49): `attr` is none where the block does not hold the
neighbour's word. -/
structure BEntry where
  sketch : Nat
  slot : Nat
  attr : Option (BitVec 64)
  back : Bool
  dist : Nat
  deriving DecidableEq, Repr

/-- A stored Wall block (R44, R48) with its fold epoch (R158); `corrupt` when its stored bytes no
longer check, `lost` when a read of it has used up its LDPC retries (R87, R554), `noFold` when R159
leaves it out of the fold choice. -/
structure Block where
  slot : Nat
  own : BitVec 64
  entries : List BEntry := []
  fold : Nat := 0
  corrupt : Bool := false
  lost : Bool := false
  noFold : Bool := false
  deriving DecidableEq, Repr

/-- A patch-log entry (R157). -/
structure Patch where
  brick : Nat
  coll : Nat
  target : Nat
  add : Bool
  tag : Nat
  nb : BEntry
  deriving DecidableEq, Repr

/-- A change-table entry (R147): none is infinite. -/
structure Change where
  coll : Nat
  slot : Nat
  vid : Nat
  ins : Nat
  del : Option Nat := none
  rep : Option Nat := none
  deriving DecidableEq, Repr

/-- A Scaffold record (R56). -/
structure ScafRec where
  idx : Nat
  slot : Nat
  sketch : Nat
  nbrs : List Nat
  deriving DecidableEq, Repr

/-- A segment (R60 to R62, R131, R147); `compacting` is the COMPACT that runs on it (R178). -/
structure Segment where
  num : Nat
  slotsUsed : Nat
  live : Nat
  creation : Nat
  rerank : Nat
  side : Nat
  sideRows : Nat := 0
  header : Nat
  compacting : Option Nat := none
  deriving DecidableEq, Repr

/-- A histogram snapshot (R132): (field, bucket, count), absent counts 0. -/
structure Hist where
  epoch : Nat
  counts : List (Nat × Nat × Nat)
  deriving DecidableEq, Repr

/-- An area that a collection holds: a name and its bytes; `durable` for the objects of R171. -/
structure Area where
  name : Nat
  bytes : Nat
  durable : Bool
  deriving DecidableEq, Repr

/-- A collection (R35 to R68). `desc` is the 64-byte descriptor as created, `codes` the slot state
map (R147) where not FREE, `idMap` the occupied entries (index, vector ID, slot) of R63, `extents`
the Wall extent names of R273, `areas` the areas it holds outside the Wall (R60, R132, R602, R38). -/
structure Coll where
  id : Nat
  desc : List Byte
  proj : ProjCopy
  nextSlot : Nat := 0
  slots : List Slot := []
  codes : List (Nat × Nat) := []
  idMap : List (Nat × Nat × Nat) := []
  scaffold : List ScafRec := []
  segments : List Segment := []
  blocks : List Block := []
  hists : List Hist := []
  extents : List Nat := []
  areas : List Area := []
  repairing : Option Nat := none
  repairCommit : Nat := 0
  born : Nat := 0
  deriving DecidableEq, Repr

/-- The live index (R138 to R185): collections, the change table (R147), the patch logs of all
Bricks (R157), the range locks (R173) and the commands that wait for an entry in dispatch order (R174), and insert
staging bytes in use per course (R179). -/
structure Index where
  colls : List Coll := []
  changes : List Change := []
  patches : List Patch := []
  locks : List Lock := []
  lockQueue : List Nat := []
  staging : List Nat := List.replicate 8 0
  deriving DecidableEq, Repr

/-! ## Queries, walks and Bricks (R69 to R104) -/

/-- A predicate (R127 to R129): terms (op, field, a, b) and nodes (or?, left, right). -/
structure Pred where
  terms : List (Nat × Nat × Nat × Nat)
  nodes : List (Bool × Nat × Nat)
  deriving DecidableEq, Repr

/-- One query of a command on its way to its result slot (R121, R363, R367). `vec` is the query in
FP32; `slot` the address of its result slot; `falls` whether its estimate lay below the threshold as
it was dispatched (R134); `fan` the fan-out it serves (R457). -/
structure Query where
  cmd : Nat
  idx : Nat
  coll : Nat
  epoch : Nat
  k : Nat
  vec : List F32
  pred : Option Pred := none
  slot : Nat := 0
  path : Nat := 0
  hops : Nat := 0
  nodes : Nat := 0
  est : Nat := 0xFFFFFFFF
  falls : Bool := false
  truncated : Bool := false
  fallback : Bool := false
  fan : Option Nat := none
  deriving DecidableEq, Repr

/-- An entry of a candidate queue (R83, R84). -/
structure Cand where
  d : Nat
  slot : Nat
  live : Bool
  know : Bool
  pass : Bool
  expanded : Bool := false
  deriving DecidableEq, Repr

/-- How a walk scores a neighbour (R42, R99): against a sketch, or through the table of R98. -/
inductive Scorer where
  | sketch (bits : Nat)
  | table (u : List (List Nat))
  deriving DecidableEq, Repr

/-- The parameters of a walk (R69, R154). -/
structure WalkParams where
  W : Nat
  L : Nat
  R : Nat
  budget : Nat
  deadline : Nat
  deriving DecidableEq, Repr

/-- The part of a walk that R80 makes a function of its inputs and its hops: the candidate queue,
the result queue (d, slot), the visited filter as a bit set, and the counts. -/
structure WalkCore where
  cq : List Cand := []
  rq : List (Nat × Nat) := []
  visited : Nat := 0
  hops : Nat := 0
  nodes : Nat := 0
  deriving DecidableEq, Repr

/-- The state of a reorder buffer entry (R78): PENDING without a buffer, ISSUED, read and on its way
back, LANDED in its buffer, or processed. -/
inductive RState where
  | pending | issued | returned | landed | processed
  deriving DecidableEq, Repr

/-- A reorder buffer entry (R78): its candidate, its state, and the landing buffer of its Brick that it
holds. `result` is the status of its block: 0, INTEGRITY or MEDIA_ERROR. -/
structure REntry where
  cand : Cand
  st : RState := .pending
  buffer : Option Nat := none
  result : Nat := 0
  deriving DecidableEq, Repr

/-- A walk (R69 to R95): handed off and held by its sender, in the admission queue, or admitted. -/
inductive WalkStage where
  | handoff | queued | running
  deriving DecidableEq, Repr

/-- One walk. `sender` is the Brick whose walker slot its Scaffold walk holds (R71, R75). -/
structure Walk where
  id : Nat
  brick : Nat
  sender : Option Nat
  urgent : Bool
  query : Query
  scorer : Scorer
  params : WalkParams
  core : WalkCore
  stage : WalkStage := .handoff
  slots : Nat
  round : List REntry := []
  deriving DecidableEq, Repr

/-- What a read at a Brick's channel is for: a block that entry `entry` of walk `walk` asked for, or a
Bulk page of the gather `req` (R105), or one that the command `cmd` waits for (R105, R248). -/
inductive ReadFor where
  | walk (walk entry : Nat)
  | gather (req : Nat)
  | cmd (cmd : Nat)
  deriving DecidableEq, Repr

/-- A read on its way to or at the owning Brick (R88, R90). `buffer` is the landing buffer of Brick
`origin` that it holds; `result` the status of its block once the die has given it; `dead` once its walk
has stopped and its block will be discarded (R92). -/
structure ReadReq where
  owner : ReadFor
  origin : Nat
  coll : Nat
  slot : Nat
  buffer : Option Nat := none
  result : Nat := 0
  dead : Bool := false
  deriving DecidableEq, Repr

/-- A NAND program queued or running in a Brick (R90, R152, R159, R555): the command it serves, the
plane it programs, whether it has started, and the bytes of a course's insert staging that it frees
when it ends (R179). -/
structure Program where
  cmd : Option Nat
  course : Nat
  bytes : Nat
  plane : Nat := 0
  started : Bool := false
  deriving DecidableEq, Repr

/-- A Brick (R17, R75 to R104, R546, R554, R555). `buffers` are the landing buffers in use by number
(R77, R78), `asks` the reads that wait for one in the order asked, `remote` the requests in transit to
this Brick, `planes` the 32 read queues, `bus` the array reads that have completed and wait for the
channel bus in the order of completion (R90), `incoming` the blocks on their way to this Brick's landing
buffers, `refresh` the blocks due for rewriting (R554), `retired` the retired erase
blocks, `tileUsed` the Tile bytes of Wall extents, `extents` those extents (collection, name, bytes). -/
structure Brick where
  urgentQ : List Nat := []
  normalQ : List Nat := []
  slotsInUse : Nat := 0
  hops : Nat := 0
  remoteReads : Nat := 0
  stalls : Nat := 0
  buffers : List Nat := []
  asks : List ReadReq := []
  remote : List ReadReq := []
  planes : List (List ReadReq) := List.replicate 32 []
  bus : List ReadReq := []
  incoming : List ReadReq := []
  deadDies : List Nat := []
  refresh : List (Nat × Nat) := []
  retired : Nat := 0
  programs : List Program := []
  tileUsed : Nat := 0
  extents : List (Nat × Nat × Nat) := []
  deriving DecidableEq, Repr

/-! ## Re-rank tiles and the Slab (R105 to R126, R186 to R226) -/

/-- A re-rank request: a query and its candidates (slot, vector ID) (R105, R109, R111), or with path 3
a query that has yet to begin, whose vector, sketch or Scaffold waits; `loaded` once
its copies may be read, `reads` the Bulk pages it still waits for, `unit` the unit whose fault it
waits on, `got` the far, companion and neighbour data that it has asked for (R282, R454), `waits` what
it waits for besides, `slot` the Brick whose walker slot its Scaffold walk holds (R71), `sketch` the sketch
that the Slab has computed for it and `projecting` while it is to come (R222), `dists` the distances of
its candidates once they are in the pallet (R106). -/
structure RerankReq where
  id : Nat
  query : Query
  cands : List (Nat × Nat)
  urgent : Bool
  loaded : Bool := false
  reads : Nat := 0
  unit : Option Nat := none
  got : List Nat := []
  waits : Option Wait := none
  slot : Option Nat := none
  sketch : Option Nat := none
  projecting : Bool := false
  dists : List (Nat × F32) := []
  deriving DecidableEq, Repr

/-- A re-rank tile (R109). -/
structure Tile where
  id : Nat
  coll : Nat
  reqs : List RerankReq
  since : Nat
  deriving DecidableEq, Repr

/-- The work of a Slab operation: a re-rank tile; part `part` of the `parts` of a request that fills
operations of its own (R109, R135); the sketch of a query that has yet to begin, or those of an INSERT
or UPDATE (R222); an item of a KV_ATTEND (R254); a PROJECT; a block of a MATMUL with its descriptor, its
operands' headers and
the values of its elements (integers, or FP32 patterns); or a RESCALE_LOAD. -/
inductive SlabWork where
  | tile (reqs : List RerankReq)
  | rows (req : RerankReq) (part parts : Nat)
  | sketch (req : Nat) (coll : Nat) (vec : List F32)
  | sketches (cmd coll count : Nat)
  | attend (cmd idx : Nat)
  | project (cmd coll : Nat) (vecs : List (List F32))
  | matmul (cmd m0 m1 n0 n1 : Nat) (d ha hb : List Byte) (values : List (List Int))
  | rescale (cmd : Nat) (base : Nat) (entries : List (F32 × BitVec 32))
  deriving DecidableEq, Repr

/-- A Slab operation (R186 to R191): its shape for R194, whether it may pack and with what. -/
structure SlabOp where
  id : Nat
  urgent : Bool
  work : SlabWork
  M : Nat
  N : Nat
  K : Nat
  arith : Nat
  mayPack : Bool
  pack : List Nat := []
  outBytes : Nat := 0
  rescale : List (Nat × F32 × BitVec 32) := []
  deriving DecidableEq, Repr

/-- A pallet pair (R189, R190): free, loading, loaded, or read by the array. A packed operation
is a list of up to four problems (R187). -/
inductive PairState where
  | free | prologue (ops : List SlabOp) | loaded (ops : List SlabOp) | compute (ops : List SlabOp)
  deriving DecidableEq, Repr

/-- The Slab (R186 to R226): the re-rank requests whose gather waits, the open re-rank tiles, the
operations that left the queue for a tier fault, with those whose epilogue waits for one marked (R192),
the distances of the finished parts of requests (request, part, distances), the far-memory reads that
prologues wait for (operation, link), work held outside a full queue, the
scoreboard queue, the pairs and which of two in use was admitted first, operations in epilogue, the rescale memory where it differs from its
reset contents, and the counters of R223 to R226. `rows` are the finished rows of MATMULs whose
output is E4M3G: (command, row, first column, values) (R218). -/
structure Slab where
  gathers : List RerankReq := []
  nextReq : Nat := 0
  parked : List (Bool × List SlabOp) := []
  parts : List (Nat × Nat × List (Nat × F32)) := []
  fars : List (Nat × Nat) := []
  tiles : List Tile := []
  nextTile : Nat := 0
  heldWork : List SlabOp := []
  queue : List SlabOp := []
  nextOp : Nat := 0
  pair0 : PairState := .free
  pair1 : PairState := .free
  pair0First : Bool := true
  epilogue : List (List SlabOp) := []
  rescale : List (Nat × F32 × BitVec 32) := []
  rescaleLoading : Bool := false
  rows : List (Nat × Nat × Nat × List F32) := []
  opsDone : Nat := 0
  packedOps : Nat := 0
  busyCycles : Nat := 0
  deriving DecidableEq, Repr

/-! ## Key-value memory (R227 to R270) -/

/-- A summary record (R234): bounds as signed integers. -/
structure Summary where
  scale : F32
  nonfinite : Bool
  mass : Nat
  mins : List Int
  maxs : List Int
  deriving DecidableEq, Repr

/-- A page of one head (R230, R233): `st` is STATE of R233 and `loc` LOCATION; a BULK page keeps
its frame's bytes here. -/
structure KvPage where
  head : Nat
  page : Nat
  st : Nat
  loc : Nat := 0
  bulk : List Byte := []
  summary : Option Summary := none
  deriving DecidableEq, Repr

/-- A sequence (R227 to R238, R267): `desc` is its 64-byte descriptor, `pages` the pages that are not
UNUSED, `units` the name and bytes of its page table and of its summary array (R229), and `image` the
length and pages of its durable image. -/
structure KvSeq where
  id : Nat
  desc : List Byte
  len : Nat := 0
  pages : List KvPage := []
  units : List (Nat × Nat) := []
  image : Option (Nat × List KvPage) := none
  deriving DecidableEq, Repr

/-- A partial of R249 for one row and query head: maximum, sum and output. -/
structure Part where
  m : F32
  l : F32
  o : List F32
  deriving DecidableEq, Repr

/-- An item of a KV_ATTEND whose shares run (R239 to R259): per share, the partials of every
(row, head) in order, and per attended page the sums of R260 with the share they belong to; `slabLeft` are
the Slab operations that are still to end for it (R254). -/
structure AttendItem where
  cmd : Nat
  idx : Nat
  seq : Nat
  head : Nat
  rows : Nat
  gq : Nat
  attended : Nat
  selected : Nat
  candidates : Nat
  dropped : Nat
  nonfinite : Bool
  slabPath : Bool
  ref : F32
  selMass : F64
  leftMass : F64
  leftExact : Int
  leftSpecial : Nat
  home : Nat
  outBf16 : Bool
  shares : List (List Part)
  masses : List (Nat × Nat × List F32)
  ties : Bool := false
  slabLeft : Nat := 0
  merged : Option (List Byte) := none
  emptyRow : Bool := false
  deriving DecidableEq, Repr

/-- Key-value memory: sequences, the items of running KV_ATTENDs, and the merge counters per Grout
(R270). -/
structure Kv where
  seqs : List KvSeq := []
  items : List AttendItem := []
  merged : List Nat := List.replicate 8 0
  deriving DecidableEq, Repr

/-! ## Tiers (R271 to R305) -/

/-- The home of a unit (R275). -/
inductive Home where
  | stack (a : Nat) | tile | bulk | companion (a : Nat) | cxl (a : Nat) | neighbour (a : Nat)
  | vacant
  deriving DecidableEq, Repr

/-- A translator entry (R276). -/
structure TierEntry where
  unit : Nat
  home : Home
  faultOn : Bool := false
  moving : Bool := false
  deriving DecidableEq, Repr

/-- Who waits on a tier fault (R283): a command, a stream, a read of a Brick, a re-rank request, a Slab
operation, a request that a neighbour has refused (R454), or the request of the mailbox. -/
inductive Who where
  | cmd (id : Nat)
  | stream (id : Nat)
  | read (r : ReadReq)
  | gather (id : Nat)
  | op (id : Nat)
  | peer (tag : Nat)
  | mail
  deriving DecidableEq, Repr

/-- A waiter of a tier fault, with the access that faulted (R284, R289). -/
structure Waiter where
  who : Who
  access : Nat
  deriving DecidableEq, Repr

/-- An open tier fault (R282 to R289): `posted` once its record stands in the ring; `waiters` are
those that wait, in the order in which they faulted. -/
structure TierFault where
  unit : Nat
  cause : Nat
  access : Nat
  stop : Nat
  opened : Nat
  number : Nat
  posted : Bool
  waiters : List Waiter := []
  deriving DecidableEq, Repr

/-- A running MIGRATE MOVE (R293 to R295), or the DESTINATION that a running COMPACT has claimed
(R177); `sent` once the contents of the unit that moves have gone to their destination. -/
structure Migration where
  cmd : Nat
  tier : Nat
  source : Nat
  dest : Nat
  units : Nat
  done : Nat := 0
  sent : Bool := false
  deriving DecidableEq, Repr

/-- The tier translator (R276 to R305), `recovered` once a power loss or reset has left the stack units
of no object vacant (R300), and the expanders of R297: the training mode, and per link
whether it is up, the bytes mapped and the capacity it last reported (R298). -/
structure Tiers where
  entries : List TierEntry := []
  faults : List TierFault := []
  migrations : List Migration := []
  queueBase : BitVec 64 := 0
  enable : Bool := false
  head : BitVec 12 := 0
  tail : BitVec 12 := 0
  phase : Bool := false
  timeout : Nat := 100000
  faultNumber : Nat := 0
  recovered : Bool := false
  xfMode : Nat := 0
  xfUp : List Bool := [false, false, false, false]
  xfBytes : List Nat := [0, 0, 0, 0]
  xfCap : List Nat := [0, 0, 0, 0]
  deriving DecidableEq, Repr

/-! ## Hod engines and Plumb units (R306 to R341) -/

/-- A stream of the module's own (R306, R313): the gather of a re-rank request (R105), or the operand
load of a Slab operation (R314). -/
inductive Own where
  | gather (req : Nat)
  | load (op : Nat)
  deriving DecidableEq, Repr

/-- A stream bound to an engine (R306 to R324): its descriptor, the tiles in flight in issue
order, the next tile to issue and the next to deliver, and in `taken` the first tile that has taken no
semaphore count (R322, R323). `st`: 0 running, 1 complete, 2 halted,
3 stopped, 4 aborted. `own` marks a stream of the module's own, one tile long; `got` the data it has asked for outside
the module (R282, R454), `waits` what its next tile waits for, `sent` once the tile in front has been
written but is not yet delivered (R312). -/
structure Stream where
  id : Nat
  cmd : Nat
  stage : Nat
  own : Option Own := none
  engine : Nat
  urgent : Bool
  desc : List Byte
  srcLink : Option Nat := none
  dstLink : Option Nat := none
  dstLink2 : Option Nat := none
  plumb : Option Nat := none
  plumbBytes : Option (Nat × Nat) := none
  inFlight : List Nat := []
  nextIssue : Nat
  nextDeliver : Nat
  taken : Nat
  count : Nat
  tileBytes : Nat
  st : Nat := 0
  lastTime : Nat := 0
  got : List Nat := []
  waits : Option Wait := none
  sent : Bool := false
  deriving DecidableEq, Repr

/-- A link of a chain (R315 to R318): semaphores, the bytes of each filled tile, the first tile that
enters it (R325), the numbers of the next tile to be written and read, its ends by command and stage, and since when a shared end is vacant. -/
structure HodLink where
  id : Nat
  key : Nat
  slots : Nat
  slotBytes : Nat
  buffer : Nat
  free : Nat
  filled : Nat
  sizes : List Nat := []
  first : Nat := 0
  wr : Nat := 0
  rd : Nat := 0
  producer : Option (Nat × Nat) := none
  consumer : Option (Nat × Nat) := none
  prodEnded : Bool := false
  consEnded : Bool := false
  prodVacant : Option Nat := none
  consVacant : Option Nat := none
  deriving DecidableEq, Repr

/-- The Hod engines (R306, R307, R336, R337) and the link pool (R317). `rr` is the last stream
each engine served, `order` the commands of this kind in the order of their dispatch, `descs` their
descriptors as they were dispatched. -/
structure Hod where
  streams : List Stream := []
  links : List HodLink := []
  nextStream : Nat := 0
  nextLink : Nat := 0
  order : List Nat := []
  descs : List (Nat × List Byte) := []
  rr : List Nat := List.replicate 16 0
  delivered : List Nat := List.replicate 16 0
  deriving DecidableEq, Repr

/-- A Plumb unit (R326 to R330, R338 to R340): its registers, the latched values of the running
scan, and its shift register. -/
structure Plumb where
  config : BitVec 32 := 0x20
  poly : BitVec 64 := 0
  init : BitVec 64 := 0
  result : BitVec 64 := 0
  busy : Bool := false
  scans : Nat := 0
  reg : Nat := 0
  latchedConfig : BitVec 32 := 0x20
  latchedPoly : BitVec 64 := 0
  deriving DecidableEq, Repr

/-- The Plumb block: four units and the alive checker's failure counts (R331, R341). -/
structure PlumbBlock where
  units : List Plumb := List.replicate 4 {}
  auditFails : Nat := 0
  mortarFails : Nat := 0
  insertFails : Nat := 0
  deriving DecidableEq, Repr

/-! ## Fabric time (R384 to R389, R401 to R403) -/

/-- The fabric time keeper: `phase` counts reference periods in the pattern of R384, `acc` the parts
of a nanosecond, in units of 10^-8, that the rate adjustment of R388 has gathered. -/
structure FabricTime where
  ns : BitVec 64 := 0
  valid : Bool := false
  source : Bool := false
  rate : Int := 0
  phase : Nat := 0
  acc : Int := 0
  deriving DecidableEq, Repr

/-! ## Links (R407 to R438, R443) -/

/-- What an access of this module to companion or neighbour memory serves: a command, a re-rank
request, a stream, a fan-out with its child, the companion's own request that is being served, or the
request of the mailbox. -/
inductive Owner where
  | cmd (id : Nat)
  | req (id : Nat)
  | stream (id : Nat)
  | fan (id : Nat)
  | dev
  | mail
  deriving DecidableEq, Repr

/-- A message of the KV7 towards the companion (R419), or a Mortar message towards a peer (R445). -/
inductive Msg where
  | intr (vector : Nat)
  | rdShared (tag addr : Nat)
  | rdOwn (tag addr agent : Nat) (owner : Option Owner)
  | rdNc (tag addr lines : Nat) (owner : Option Owner)
  | wrNc (tag addr : Nat) (mask : Option Nat) (bytes : List Byte) (owner : Option Owner)
  | evictClean (tag addr : Nat)
  | wrBack (tag addr : Nat) (bytes : List Byte)
  | stash (tag addr : Nat) (bytes : List Byte)
  | dataResp (tag status : Nat) (bytes : List Byte)
  | cmpResp (tag status : Nat)
  | snpRspI (tag : Nat)
  | snpRspS (tag : Nat)
  | snpRspData (tag : Nat) (bytes : List Byte)
  | mmioData (tag : Nat) (eight : Bool) (value : BitVec 64)
  | mortar (vc : Bool) (opcode dest source alive tag pairSeq route addr : Nat) (last : Bool)
    (payload : List Byte)
  deriving DecidableEq, Repr

/-- A payload flit in a retry buffer (R413): its SEQ, its 256 bytes, and the message that ends in it. -/
structure Kept where
  seq : Nat
  flit : List Byte
  msg : Option Msg := none
  deriving DecidableEq, Repr

/-- The link layer of Uzone and of a Mortar port (R412 to R416, R443): `kept` is the retry buffer,
`waiting` the messages that wait for room or credit, `unkept` the idle and control flits that the last
event sent, `acked` the last payload flit received in order, `delivered` the payloads of accepted flits in
order, `skip` the data slots that the last message still has to come and `cls` its class, `credits` what
the far end has granted (per class, or per virtual channel), `owed` the receive space that this side has
freed and not yet returned. -/
structure Link where
  st : Nat := 0
  step : Nat := 0
  reversed : Bool := false
  degraded : Bool := false
  upperHalf : Bool := false
  polarity : BitVec 16 := 0
  txNext : BitVec 12 := 0
  kept : List Kept := []
  waiting : List Msg := []
  unkept : List (List Byte) := []
  resent : Nat := 0
  rxNext : BitVec 12 := 0
  acked : Option Nat := none
  discarding : Bool := false
  skip : Nat := 0
  cls : Nat := 0
  naksSent : Nat := 0
  delivered : List (List Byte) := []
  credits : List Nat := [0, 0, 0, 0]
  owed : List Nat := [0, 0, 0, 0]
  nakSeq : Option Nat := none
  nakRun : Nat := 0
  retrainFails : Nat := 0
  deriving DecidableEq, Repr

/-- A line cached by an agent (R423): agent 0 submission queue, 1 completion queue, 2 result slot;
`st` 1 S, 2 E, 3 M. -/
structure AgentLine where
  agent : Nat
  addr : Nat
  st : Nat
  deriving DecidableEq, Repr

/-- An outstanding request of the KV7 to the companion (R420): `kind` is the opcode of R419, `owner`
what it serves, `space` the receive slots reserved for its response (R417). -/
structure UzReq where
  tag : Nat
  kind : Nat
  agent : Nat
  addr : Nat
  owner : Option Owner := none
  space : Nat := 0
  deriving DecidableEq, Repr

/-- What an agent of R423 still has to do: bytes written into one line of the companion, with STASH
under version 1.1 where `stash` (R425), bytes stored in the module's own memory, or an INTR (R430). -/
inductive OutItem where
  | write (agent line off : Nat) (bytes : List Byte) (stash : Bool)
  | store (addr : Nat) (bytes : List Byte)
  | intr (vector : Nat)
  deriving DecidableEq, Repr

/-- An item that waits to be written or sent: the command or the fault record that it belongs to
(`key`), whether it waits for the earlier items of its key (`barrier`), and the lines whose WR_BACK or
STASH must have its CMP before (R425). -/
structure Out where
  key : Bool × Nat
  barrier : Bool
  item : OutItem
  after : List Nat := []
  deriving DecidableEq, Repr

/-- The Uzone controller (R407 to R438); `heldDev` are the requests of the companion that wait, in
arrival order, for a unit in motion, a course without power or the home of their unit (R32, R421, R603);
`devAsked` once the first of them has been passed on to that home, `devFar` the link on which it then waits
for an expander (R298), `devFailed` the status with which its
access there has failed, `out` what the agents still have to write and the interrupts behind it. `cwBits` are the bits of
the flit stream that the codeword being received has given, `cwErrors` its symbol errors (R409). -/
structure Uzone where
  link : Link := {}
  negMajor : Nat := 0
  negMinor : Nat := 0
  peerMaxMajor : Nat := 0
  peerMaxMinor : Nat := 0
  session : BitVec 32 := 0
  exposed : Nat := 0
  peerRequests : Nat := 0
  lines : List AgentLine := []
  reqs : List UzReq := []
  nextTag : Nat := 0
  heldDev : List Instr := []
  devAsked : Bool := false
  devFar : Option Nat := none
  devFailed : Option Nat := none
  out : List Out := []
  cwBits : Nat := 0
  cwErrors : Nat := 0
  retrains : Nat := 0
  replays : Nat := 0
  checkErrors : Nat := 0
  uncorrectable : Nat := 0
  fecCorrected : Nat := 0
  deriving DecidableEq, Repr

/-! ## Mortar (R439 to R476) -/

/-- A Mortar port (R439 to R448, R465, R466, R470). -/
structure Port where
  link : Link := { credits := [0, 0], owed := [0, 0] }
  cwBits : Nat := 0
  cwErrors : Nat := 0
  encrypted : Bool := false
  version : Nat := 0
  peer : BitVec 13 := 0
  peerExport : Nat := 0
  peerCommands : List Nat := [0, 0, 0, 0]
  hello : Bool := false
  aliveIn : Option Nat := none
  aliveOut : Nat := 0
  aliveFails : Nat := 0
  keyIn : Option (Nat × List Byte) := none
  keyOut : Option (Nat × List Byte) := none
  txFlits : Nat := 0
  rxFlits : Nat := 0
  fabricKey : Option (List Byte) := none
  deriving DecidableEq, Repr

/-- An outstanding Mortar request of this module (R452, R467): `kind` is its opcode, `owner` what it
serves, `unit` the unit it reaches or the child of a fan-out, `sent` when it was last sent, `held` while a tier fault holds an access that its exporter has refused
(R454). -/
structure MReq where
  tag : Nat
  dest : Nat
  pairSeq : Nat
  kind : Nat
  owner : Option Owner := none
  unit : Nat := 0
  addr : Nat := 0
  sent : Nat := 0
  held : Bool := false
  payload : List Byte := []
  deriving DecidableEq, Repr

/-- A partial list in its byte-free form (R123, R124): entries (vector ID, distance). -/
structure PList where
  k : Nat
  entries : List (Nat × F32)
  ties : Nat
  truncated : Bool
  fallback : Bool
  leftOut : Nat
  selSum : Int
  selSpecial : Nat
  leftSum : Int
  leftSpecial : Nat
  deriving DecidableEq, Repr

/-- A fan-out this module takes part in (R455 to R460): at the root `cmd` and `idx` name its query and
`index` is none; a member answers `parent` (module, tag), or the fan-out `up` of its own module.
`waitFor` are the children still awaited, `mine` whether its own part is due, `epochWait` since when
it waits for the pinned epoch, `got` the lists and `hopRecs` the hop records that arrived, `est` the
least estimate, `nodes` the nodes visited, `failed` the first failing member, its status and its INFO_A. -/
structure Fan where
  id : Nat
  cmd : Option Nat := none
  idx : Nat := 0
  parent : Option (Nat × Nat) := none
  up : Option Nat := none
  index : Option Nat := none
  members : List (Nat × Nat)
  fanIn : Nat
  coll : Nat
  epoch : Nat
  k : Nat
  slot : Nat := 0
  entry : List Byte
  vec : List Byte
  pred : List Byte
  waitFor : List Nat := []
  mine : Bool := false
  epochWait : Option Nat := none
  got : List PList := []
  hopRecs : List (Nat × Nat) := []
  est : Nat := 0xFFFFFFFF
  nodes : Nat := 0
  failed : Option (Nat × Nat × Nat) := none
  deriving DecidableEq, Repr

/-- The Mortar controller (R439 to R476). `links` lists the links known DOWN (number, port);
`inbound` is the inbound store, in arrival order; `inSeq` the next PAIR_SEQ per source,
`refused` the refused PAIR_SEQ per source (R452). -/
structure Mortar where
  topology : BitVec 64 := 0
  control : BitVec 32 := 0
  shardBase : BitVec 64 := 0
  exportReg : BitVec 64 := 0
  timeout : Nat := 10000
  ports : List Port := List.replicate 8 {}
  links : List (Nat × Nat) := []
  lost : List Nat := []
  lostCount : Nat := 0
  regained : Nat := 0
  lastLost : BitVec 13 := 0
  slewing : Bool := false
  isRoot : Bool := false
  offsetNs : Int := 0
  parentPort : Nat := 0
  root : BitVec 13 := 0
  reqs : List MReq := []
  nextTag : Nat := 0
  outSeq : List (Nat × Nat) := []
  inSeq : List (Nat × Nat) := []
  refused : List (Nat × Nat) := []
  backoffs : List (Nat × Nat) := []
  inbound : List Instr := []
  pieces : List (Nat × Nat × List Byte) := []
  fans : List Fan := []
  nextFan : Nat := 0
  deriving DecidableEq, Repr

/-! ## Quoin (R477 to R501), Lintel (R502 to R535) -/

/-- Quoin: boot status, the Bond image slots and selector, the mailbox and its staging buffers
(R477 to R501, R580 to R584). `active` is the verified image and `slot` its slot; `mbRequest` is the
request that runs, `goPending` while it may go on, `mbWait` what it waits for and `mbGot` the data outside the
module that it has asked for (R283, R454). -/
structure Quoin where
  stage : Nat := 0
  failStep : Nat := 0
  failStatus : Nat := 0
  fallback : Bool := false
  resetCause : Nat := 0
  bootMs : Nat := 0
  slots : List (List Byte) := []
  selector : Nat := 0
  active : Option (List Byte) := none
  slot : Nat := 0
  mailbox : List Host.Cell := []
  goPending : Bool := false
  busyRefused : Bool := false
  mbState : Nat := 0
  mbOpcode : Nat := 0
  mbStatus : Nat := 0
  mbProgress : Nat := 0
  mbSmbus : Bool := false
  mbRequest : List Byte := []
  mbWait : Option Wait := none
  mbGot : List Nat := []
  smbusReply : List Byte := []
  telemetry : List Byte := []
  mctpReply : List Byte := []
  endpointId : Byte := 0
  bondStaging : List Host.Cell := []
  fwStaging : List Host.Cell := []
  drain : Option Nat := none
  deriving DecidableEq, Repr

/-- An audit record (R530). -/
structure AuditRec where
  number : Nat
  alive : Nat
  origin : Nat
  event : Nat
  time : Nat
  originDetail : Nat
  detail : List Nat
  digest : List Byte
  prev : List Byte
  hash : List Byte
  deriving DecidableEq, Repr

/-- Lintel (R502 to R535). `coKeys` are the handle-0 keys: (sequence?, ID, key). -/
structure Lintel where
  ownerAnchors : List (Option (List Byte)) := [none, none, none, none]
  ownerRevoked : BitVec 4 := 0
  vendorRevoked : BitVec 4 := 0
  fwCounter : Nat := 0
  bondCounter : Nat := 0
  entropyFault : Bool := false
  draws : Nat := 0
  keys : List (Nat × List Byte) := []
  coKeys : List (Bool × Nat × List Byte) := []
  fabricKey : Option (List Byte) := none
  stagingKey : Option (List Byte) := none
  dataKey : Option (List Byte) := none
  keySeq : Nat := 0
  withheld : Bool := false
  debug : Nat := 0
  debugExpiry : Nat := 0
  challenge : Option (List Byte × Nat) := none
  inBuf : List Host.Cell := []
  outBuf : List Host.Cell := []
  audit : List AuditRec := []
  auditNext : Nat := 0
  auditAlive : Option Nat := none
  fwVersion : Nat := 0
  fwRollback : Nat := 0
  fwSlots : List (List Byte) := []
  fwSelector : Nat := 0
  fwSlot : Nat := 0
  deriving DecidableEq, Repr

/-! ## Power, hold-up, thermal, clock, errors, pins (R536 to R590) -/

/-- Power (R536 to R545, R561 to R563): `wake` when an event needs the module in Serving,
`request` the POWER_STATE command being served and `waitFor` the commands dispatched before it
(R374). -/
structure Power where
  st : Nat := 0
  target : Nat := 0
  entering : Option Nat := none
  automatic : Bool := false
  request : Option Nat := none
  waitFor : List Nat := []
  wake : Bool := false
  wakeReg : Bool := false
  domains : BitVec 24 := 0x9FFFFF
  capDuty : Nat := 0
  capUnmet : Bool := false
  mainMv : Nat := 0
  auxMv : Nat := 0
  mainOver : Bool := false
  inputMw : Nat := 0
  aonOn : Bool := false
  mainOn : Bool := false
  flushSeq : Nat := 0
  flushArea : Nat := 0
  flushed : Bool := true
  deriving DecidableEq, Repr

/-- The hold-up bank (R546 to R549, R564, R565): a test may have been asked for by the mailbox,
and the test of a cold boot may be to come. -/
structure Holdup where
  below : Bool := true
  testing : Bool := false
  mailTest : Bool := false
  bootTest : Bool := false
  charging : Bool := true
  health : Nat := 0
  stored : Nat := 0
  testTime : Nat := 0
  deriving DecidableEq, Repr

/-- Thermal state (R586 to R589). -/
structure Thermal where
  kiln : Int := 0
  stack : Int := 0
  nand : Int := 0
  bank : Int := 0
  coolantIn : Int := 0
  coolantOut : Int := 0
  hottestStack : BitVec 3 := 0
  hottestPackage : BitVec 5 := 0
  crit : Bool := false
  chargePaused : Bool := false
  inletHigh : Bool := false
  dutyKiln : Nat := 0
  dutyStack : Nat := 0
  dutyNand : Nat := 0
  deriving DecidableEq, Repr

/-- The clock (R577, R590). -/
structure Clock where
  refLost : Bool := false
  refLostSeen : Bool := false
  lossCount : Nat := 0
  deriving DecidableEq, Repr

/-- A hardware error record (R558). -/
structure HwRec where
  number : Nat
  cls : Nat
  source : Nat
  unit : Nat
  time : Nat
  location : Nat
  status : Nat
  action : Nat
  count : Nat
  deriving DecidableEq, Repr

/-- The hardware error log and the error counts (R556 to R560, R566, R567), the corrections per source
and unit since the last record (R558), and the poisoned lines (R553). -/
structure HwErr where
  log : List HwRec := []
  next : Nat := 0
  corrected : Nat := 0
  deferred : Nat := 0
  since : List (Nat × Nat × Nat) := []
  poisoned : List Nat := []
  deriving DecidableEq, Repr

/-- Pins and the test access port (R570 to R572, R583, R584): `ir` 0 BYPASS, 1 IDCODE,
2 SAMPLE/PRELOAD, 3 EXTEST, 4 CLAMP, 5 HIGHZ; `scanned` once EXTEST, CLAMP or HIGHZ has been
executed. -/
structure Pins where
  modReady : Bool := false
  thermCrit : Bool := false
  smbAlert : Bool := false
  xfPerst : Bool := true
  ir : Nat := 1
  tdr : BitVec 32 := 0
  boundary : List Bool := []
  highz : Bool := false
  scanned : Bool := false
  deriving DecidableEq, Repr

/-! ## The module -/

/-- The state of the module, and the commands that wait, first in, first out. `drawn` counts the
free values drawn (the model's own field, DESIGN CHOICE, log 3); `lastRead` is the value that the
last register read returned. -/
structure State where
  pending : List Instr := []
  mem : Mem := {}
  sched : Sched := {}
  epochs : Epochs := {}
  index : Index := {}
  bricks : List Brick := List.replicate 64 {}
  walks : List Walk := []
  nextWalk : Nat := 0
  slab : Slab := {}
  kv : Kv := {}
  tiers : Tiers := {}
  hod : Hod := {}
  plumb : PlumbBlock := {}
  time : FabricTime := {}
  uzone : Uzone := {}
  mortar : Mortar := {}
  quoin : Quoin := {}
  lintel : Lintel := {}
  power : Power := {}
  holdup : Holdup := {}
  thermal : Thermal := {}
  clock : Clock := {}
  hw : HwErr := {}
  pins : Pins := {}
  drawn : Nat := 0
  lastRead : BitVec 64 := 0
  deriving DecidableEq, Repr

/-- The factory Bond image of R478: header of R477, body, and the signature block. -/
def factoryImage : List Byte :=
  let le := fun (n v : Nat) => (List.range n).map (fun i => BitVec.ofNat 8 (v / 256 ^ i))
  let part := le 4 24576 ++ le 4 32768 ++ le 4 256 ++ le 4 0
  let head := [0, 1] ++ le 2 64 ++ le 4 (576 + Config.factorySignature.length) ++
    le 4 Config.factorySequence ++ le 4 Config.factoryRollback ++ le 4 0x00070128 ++
    le 2 64 ++ le 2 512 ++ le 4 576 ++ le 4 Config.factorySignature.length ++ le 32 0
  let body := [9, 0x06] ++ [8, 4, 2, 1] ++ [0, 1, 2, 1] ++ [0, 1, 1, 1] ++ [0, 1, 0, 1] ++ le 2 0 ++
    [1, 1, 48, 0, 1] ++ le 2 1024 ++ [0] ++ le 2 750 ++ le 2 0 ++ le 4 0 ++ le 4 0 ++ le 24 0 ++
    part ++ part ++ part ++ part ++ part ++ part ++ part ++ part ++ List.replicate 320 0
  head ++ body ++ Config.factorySignature

/-- The module right after reset: every register at its Reset column, the factory image and
firmware in their slots, nothing booted (R492 step 1 is yet to run; log 4). -/
def State.reset : State :=
  { quoin := { slots := [factoryImage, []] }
    lintel := { fwVersion := Config.factoryFirmware
                fwRollback := Config.factoryFirmwareRollback
                fwSlots := [Config.factoryPackage, []] } }

/-- Why the model stops. -/
inductive Fault where
  /-- An access to an address outside every window of R271. Raised by no meaning: the KV7 refuses
  such a name with INVALID_FIELD before it accesses anything. Safe. -/
  | outsideWindows (addr : Nat)
  deriving DecidableEq, Repr

/-- Why a command has no meaning. -/
inductive Refusal where
  /-- The row has no meaning in the model yet. Raised by arms of `exec` alone. Safe. -/
  | notModelled (mnemonic : String)
  deriving DecidableEq, Repr

end Sys2Proof.Machine
end

