-- ==== Sys2Proof/Machine/Memory.lean ====
section
/-!
DEFINITION. Memory by device name, in one canonical form: addresses strictly rising, and no entry
equal to what an unlisted address reads as. An unlisted byte reads 0 (log 2), or a free byte in a
unit that MIGRATE PLACE left undefined (R291).
-/

namespace Sys2Proof.Machine

/-- The placement unit of an address (R274). -/
def unitOf (a : Nat) : Nat := a / 2097152 * 2097152

/-- One cell put in its place, or with `drop` taken out. -/
def putCell (drop : Bool) (a : Nat) (b : Byte) : List Host.Cell → List Host.Cell
  | [] => if drop then [] else [(a, b)]
  | (x, v) :: xs =>
    if a < x then (if drop then (x, v) :: xs else (a, b) :: (x, v) :: xs)
    else if a == x then (if drop then xs else (a, b) :: xs)
    else (x, v) :: putCell drop a b xs

/-- The listed byte of an address. -/
def getCell (a : Nat) : List Host.Cell → Option Byte
  | [] => none
  | (x, v) :: xs => if a == x then some v else if a < x then none else getCell a xs

/-- A fill takes in an address. -/
def fillHas (a : Nat) : Fill → Bool
  | .free u _ => unitOf a == u
  | .zero u => unitOf a == u
  | .idMap b n => decide (b ≤ a) && decide (a < b + n)

/-- The newest fill over an address. -/
def fillOf (m : Mem) (a : Nat) : Option Fill := m.fills.find? (fillHas a)

/-- What an unlisted byte of a name reads as. -/
def plainByte (m : Mem) (a : Nat) : Byte :=
  match fillOf m a with
  | some (.free _ d) => Config.freeByte d a
  | some (.idMap b _) => if (a - b) % 16 < 6 then 0xFF else 0
  | _ => 0

/-- An address whose written bytes are listed whatever they are. -/
def always (m : Mem) (a : Nat) : Bool :=
  match fillOf m a with
  | some (.free _ _) => true
  | _ => false

/-- The byte of a name. -/
def readByte (m : Mem) (a : Nat) : Byte := (getCell a m.cells).getD (plainByte m a)

/-- One byte written; memory stays in canonical form. -/
def writeByte (m : Mem) (a : Nat) (b : Byte) : Mem :=
  { m with cells := putCell (!always m a && b == plainByte m a) a b m.cells }

/-- The bytes of `n` addresses from `a` on. -/
def readFrom (m : Mem) : Nat → Nat → List Byte
  | _, 0 => []
  | a, n + 1 => readByte m a :: readFrom m (a + 1) n

/-- `n` bytes from an address. -/
def readBytes (m : Mem) (a n : Nat) : List Byte := readFrom m a n

/-- Bytes written from an address on. -/
def writeBytes (m : Mem) (a : Nat) : List Byte → Mem
  | [] => m
  | b :: bs => writeBytes (writeByte m a b) (a + 1) bs

/-- The fill of one whole unit. -/
def isFree (u : Nat) : Fill → Bool
  | .free v _ => u == v
  | .zero v => u == v
  | .idMap _ _ => false

/-- A unit's contents dropped (R291 VACATE). -/
def dropUnit (m : Mem) (u : Nat) : Mem :=
  { m with cells := m.cells.filter (fun c => unitOf c.1 != u) }

/-- The addresses of a fill given the contents it says. -/
def refill (m : Mem) (f : Fill) : Mem :=
  { cells := m.cells.filter (fun c => !fillHas c.1 f)
    fills := f :: m.fills.filter (fun g => g != f) }

/-- A unit left undefined (R291 PLACE), its bytes free under the draw `d`. -/
def freeUnit (m : Mem) (u d : Nat) : Mem :=
  refill { m with fills := m.fills.filter (fun f => !isFree u f) } (.free u d)

/-- A unit cleared to zeros. -/
def zeroUnit (m : Mem) (u : Nat) : Mem :=
  refill { m with fills := m.fills.filter (fun f => !isFree u f) } (.zero u)

/-- A little-endian number in memory. -/
def readLE (m : Mem) (a n : Nat) : Nat := fromLE (readBytes m a n)

/-- Addresses strictly rising. -/
def cellsRise : List Host.Cell → Bool
  | [] => true
  | [_] => true
  | a :: b :: rest => decide (a.1 < b.1) && cellsRise (b :: rest)

/-- The canonical form of memory, as a decidable check: addresses strictly rising, and no entry
equal to what its address reads as when unlisted. -/
def memWf (m : Mem) : Bool :=
  cellsRise m.cells && m.cells.all (fun c => always m c.1 || c.2 != plainByte m c.1)

end Sys2Proof.Machine
end

