-- ==== Sys2Proof/Machine/Flit.lean ====
section
/-!
DEFINITION. What travels on a link: the slots of a message to or from the companion (R418, R419), the
bytes of a Mortar message (R445), and the flits that carry them (R412, R413, R443).
-/

namespace Sys2Proof.Machine

/-! ### Header slots (R418) -/

/-- A header slot as it arrives. -/
structure Head where
  opcode : Nat
  lines : Nat
  poison : Bool
  grant : Nat
  size8 : Bool
  tag : Nat
  addr : Nat
  status : Nat
  deriving DecidableEq, Repr

/-- The fields of a header slot. -/
def headOf (h : List Byte) : Head :=
  { opcode := byteAt h 0, lines := byteAt h 1 / 64 + 1, poison := bit (byteAt h 1) 5
    grant := byteAt h 1 / 8 % 4, size8 := bit (byteAt h 1) 0, tag := getLE h 2 2 % 4096
    addr := getLE h 6 8 % 2 ^ 52, status := getLE h 14 2 }

/-- A header slot of the KV7; an address field of 64 bits holds the value of MMIO_DATA. -/
def headSlot (opcode info tag addr status : Nat) : List Byte :=
  leBytes 1 opcode ++ leBytes 1 info ++ leBytes 2 tag ++ zeros 2 ++ leBytes 8 addr ++ leBytes 2 status

/-- LINES − 1 in its place, for a message with `n` bytes of lines. -/
def linesInfo (n : Nat) : Nat := (n / 64 - 1) * 64

/-- The slots of a message to the companion (R418, R419); POISON stands beside the status that says it. -/
def msgSlots : Msg → List Byte
  | .intr v => headSlot 0x08 0 0 v 0
  | .rdShared t a => headSlot 0x01 0 t a 0
  | .rdOwn t a _ _ => headSlot 0x02 0 t a 0
  | .rdNc t a n _ => headSlot 0x03 ((n - 1) * 64) t a 0
  | .wrNc t a none bs _ => headSlot 0x04 (linesInfo bs.length) t a 0 ++ bs
  | .wrNc t a (some m) bs _ => headSlot 0x05 0 t a 0 ++ leBytes 8 m ++ zeros 8 ++ bs
  | .evictClean t a => headSlot 0x07 0 t a 0
  | .wrBack t a bs => headSlot 0x06 0 t a 0 ++ bs
  | .stash t a bs => headSlot 0x09 0 t a 0 ++ bs
  | .dataResp t st bs => headSlot 0x40 (linesInfo bs.length + (if st == 2 then 32 else 0)) t 0 st ++ bs
  | .cmpResp t st => headSlot 0x30 0 t 0 st
  | .snpRspI t => headSlot 0x31 0 t 0 0
  | .snpRspS t => headSlot 0x32 0 t 0 0
  | .snpRspData t bs => headSlot 0x41 0 t 0 0 ++ bs
  | .mmioData t e v => headSlot 0x42 (b2n e) t v.toNat 0
  | .mortar _ _ _ _ _ _ _ _ _ _ _ => []

/-- The bytes of a Mortar message (R445). -/
def mortarBytes : Msg → List Byte
  | .mortar _ op dest source alive tag pairSeq route addr last payload =>
    leBytes 1 op ++ leBytes 1 (b2n last) ++ leBytes 2 dest ++ leBytes 2 source ++ leBytes 1 alive ++
    zeros 1 ++ leBytes 4 payload.length ++ leBytes 4 tag ++ leBytes 4 pairSeq ++ leBytes 4 route ++
    leBytes 8 addr ++ payload
  | _ => []

/-- The class of an opcode of R419 and the slots that follow its header: none for an opcode that no
message has. -/
def opcodeShape (h : Head) : Option (Nat × Nat) :=
  let lines := 4 * h.lines
  if [0x01, 0x02, 0x03, 0x07, 0x08, 0x10, 0x12].contains h.opcode then some (0, 0)
  else if h.opcode == 0x11 then some (0, 1)
  else if h.opcode == 0x04 || h.opcode == 0x13 then some (0, lines)
  else if h.opcode == 0x05 || h.opcode == 0x14 then some (0, 5)
  else if h.opcode == 0x06 || h.opcode == 0x09 then some (0, 4)
  else if h.opcode == 0x20 || h.opcode == 0x21 then some (1, 0)
  else if [0x30, 0x31, 0x32, 0x33].contains h.opcode then some (2, 0)
  else if h.opcode == 0x40 then some (3, lines)
  else if h.opcode == 0x41 then some (3, 4)
  else if h.opcode == 0x42 then some (3, 0)
  else none

/-! ### Flits (R412, R413, R443) -/

/-- The 256 bytes of a flit: SEQ_KIND, ACK, CREDIT, 240 bytes that may hang on those (R466), and CHECK
(R412). -/
def flitBytes (kind seq : Nat) (ack : Option Nat) (credit : Nat) (body : List Byte → List Byte) :
    List Byte :=
  let head := leBytes 2 (kind * 4096 + seq) ++ leBytes 2 (ack.elim 0 fun a => 2 ^ 15 + a) ++
    leBytes 4 credit
  let all := head ++ fit 240 (body head)
  all ++ leBytes 8 (crc64 all)

/-- The receive space that a link grants at its start: slots by class on Uzone, flits by virtual channel
on a Mortar port (R416, R444). -/
def firstGrant (l : Link) : List Nat :=
  if l.owed.length == 2 then [1024, 1024] else [2048, 512, 1024, 8192]

/-- The CREDIT field of a class or channel: the class in bits 31 to 30, or the channel in bit 31. -/
def creditWord (l : Link) (c n : Nat) : Nat := c * (2 ^ 32 / max 1 l.owed.length) + n

/-- The first class or channel with credit to return: its CREDIT field, and what is owed after it. -/
def takeOwed (l : Link) : Nat × List Nat :=
  match l.owed.findIdx? (fun n => n != 0) with
  | none => (0, l.owed)
  | some c =>
    let n := min 65535 (l.owed.getD c 0)
    (creditWord l c n, modAt l.owed c (· - n))

/-- A payload flit sent and kept (R413), with the credit that is owed. -/
def sendPayload (l : Link) (body : List Byte → List Byte) (m : Option Msg) : Link :=
  let x := takeOwed l
  { l with
    kept := l.kept ++ [{ seq := l.txNext.toNat, msg := m
                         flit := flitBytes 0 l.txNext.toNat l.acked x.1 body }]
    txNext := l.txNext + 1
    owed := x.2 }

/-- The payload flits of a message, which ends in the last of them; each message opens a flit of its own
(DESIGN CHOICE, log 115). -/
def sendBodies (l : Link) (m : Msg) (bodies : List (List Byte → List Byte)) : Link :=
  bodies.zipIdx.foldl
    (fun l b => sendPayload l b.1 (if b.2 + 1 == bodies.length then some m else none)) l

/-- An idle flit: ACK and CREDIT, neither sequenced nor kept. -/
def sendIdle (l : Link) : Link :=
  let x := takeOwed l
  { l with unkept := l.unkept ++ [flitBytes 1 0 l.acked x.1 fun _ => []], owed := x.2 }

/-- A control flit (R414, R426, R448). -/
def sendControl (l : Link) (body : List Byte → List Byte) : Link :=
  { l with unkept := l.unkept ++ [flitBytes 2 0 l.acked 0 body] }

/-- Every credit that is owed returned in idle flits. -/
def returnCredits (l : Link) : Link :=
  (List.range l.owed.length).foldl (fun l _ => if l.owed.all (· == 0) then l else sendIdle l) l

/-- The control flit that carries NAK, with the awaited SEQ in slot 0 (R414). -/
def sendNak (l : Link) : Link := sendControl l fun _ => leBytes 2 l.rxNext.toNat

/-! ### Codewords (R409, R443) -/

/-- The message bits of a codeword of RS(544,514) over 10-bit symbols. -/
def codewordBits : Nat := 5140

/-- The symbol errors of a codeword by active lane, over which its 544 symbols are dealt in turn. -/
def codewordErrors (lanes : Nat) (errors : List Nat) : Nat :=
  ((errors.take lanes).map (min (544 / lanes))).sum

/-- What a flit that arrives brings to its codewords: the bits and the symbol errors of the one in which
it ends, whether one begins in it, and whether some bit of it lies in one that cannot be corrected. -/
structure CodeStep where
  bits : Nat
  errors : Nat
  begun : Bool
  lost : Bool
  deriving DecidableEq, Repr

/-- A flit of 2,048 bits behind `bits` bits of a codeword with `errs` symbol errors; `fresh` are those of
the codeword that begins in it, if one does. More than 15 cannot be corrected. -/
def codeStep (bits errs fresh : Nat) : CodeStep :=
  let begun := bits == 0 || decide (codewordBits < bits + 2048)
  { bits := (bits + 2048) % codewordBits
    errors := if begun then fresh else errs
    begun := begun
    lost := (bits != 0 && decide (15 < errs)) || (begun && decide (15 < fresh)) }

end Sys2Proof.Machine
end

