-- ==== Sys2Proof/Machine/Ops.lean ====
section
/-!
DEFINITION. The named operations that commands share: fabric time, the Bond image, address windows
and homes, messages towards the companion and the peers, error and audit records, commands, and
writes to device names.
-/

namespace Sys2Proof.Machine

/-! ### Time and the Bond image -/

/-- Fabric time as every comparison sees it: the distributed copy, 12 ns behind the keeper (R385);
0 while not valid (R401). -/
def now (s : State) : Nat := if s.time.valid then s.time.ns.toNat - 12 else 0

/-- A field of the active image's body at BODY_OFFSET (R477, R478); 0 with no active image. -/
def bond (s : State) (off n : Nat) : Nat :=
  match s.quoin.active with
  | none => 0
  | some img => getLE img (getLE img 20 2 + off) n

/-- The fields of the active image's body, 0 with none. -/
def bondBytes (s : State) (off n : Nat) : List Byte := leBytes n (bond s off n)

/-- TILE_SIXTEENTHS (R478). -/
def tileSixteenths (s : State) : Nat := bond s 0 1
/-- KV5_MODE (R96, R478). -/
def kv5Mode (s : State) : Bool := bit (bond s 1 1) 0
/-- PACK_RERANK (R478). -/
def packRerank (s : State) : Bool := bit (bond s 1 1) 1
/-- PACK_MATMUL (R478). -/
def packMatmul (s : State) : Bool := bit (bond s 1 1) 2
/-- WEIGHT[c] (R350). -/
def weight (s : State) (c : Nat) : Nat := bond s (2 + c) 1

/-- Partition counts of a stack in an image body (R479): index cache, key-value, staging. -/
def partIndex (s : State) (c : Nat) : Nat := bond s (64 + 16 * c) 4
def partKv (s : State) (c : Nat) : Nat := bond s (68 + 16 * c) 4
def partStaging (s : State) (c : Nat) : Nat := bond s (72 + 16 * c) 4
/-- Free units of a stack (R479). -/
def partFree (s : State) (c : Nat) : Nat := 65520 - (partIndex s c + partKv s c + partStaging s c)

/-- 2 MiB, the bytes of a placement unit (R274). -/
def unitBytes : Nat := 2097152
/-- The bytes of one stack (R271). -/
def stackBytes : Nat := 2 ^ 37

/-- The partition of a stack in which a name lies (R479): 0 staging, 1 free space, 2 key-value
pages, 3 index cache, 4 the translator's area. -/
def regionOf (s : State) (a : Nat) : Nat :=
  let c := a / stackBytes
  let u := a % stackBytes / unitBytes
  if u < partStaging s c then 0
  else if u < partStaging s c + partFree s c then 1
  else if u < partStaging s c + partFree s c + partKv s c then 2
  else if u < 65520 then 3
  else 4

/-! ### Windows and homes (R271 to R282) -/

def companionBase : Nat := 0x1000000000000
def cxlBase : Nat := 0x2000000000000
def flashBase : Nat := 0x3000000000000
def neighbourBase : Nat := 0x4000000000000

/-- The window of an address (R271): 0 stacks, 1 companion, 2 CXL, 3 flash, 4 + n neighbour n. -/
def windowOf (a : Nat) : Option Nat :=
  if a < 2 ^ 40 then some 0
  else if companionBase ≤ a && a < cxlBase then some 1
  else if cxlBase ≤ a && a < cxlBase + 2 ^ 42 then some 2
  else if flashBase ≤ a && a < flashBase + 2 ^ 47 then some 3
  else if neighbourBase ≤ a && a < neighbourBase + 8192 * 2 ^ 38 then
    some (4 + (a - neighbourBase) / 2 ^ 38)
  else none

/-- Whether `n` bytes from `a` lie within one window (R271). -/
def rangeValid (a n : Nat) : Bool :=
  match windowOf a with
  | none => false
  | some w => windowOf (a + (n - 1)) == some w

/-- Every one of `n` addresses from `a` lies in a window (R271); neighbour windows follow on one
another, and the CXL window on the companion's. -/
def rangeNamed (a n : Nat) : Bool :=
  let last := a + (n - 1)
  let both := fun (lo hi : Nat) => decide (lo ≤ a) && decide (last < hi)
  rangeValid a n || both companionBase (cxlBase + 2 ^ 42) ||
    both neighbourBase (neighbourBase + 8192 * 2 ^ 38)

/-- The default home of a unit by its name (R271). -/
def ownHome (u : Nat) : Home :=
  match windowOf u with
  | some 0 => .stack u
  | some 1 => .companion (u - companionBase)
  | some 2 => .cxl (u - cxlBase)
  | some 3 => .tile
  | some _ => .neighbour u
  | none => .vacant

/-- The translator entry of a unit. -/
def tierEntry (s : State) (u : Nat) : Option TierEntry :=
  s.tiers.entries.find? (fun e => e.unit == u)

/-- Whether a name of the flash window lies in a Wall extent (R273). -/
def inExtent (s : State) (u : Nat) : Bool :=
  s.bricks.any (fun b => b.extents.any (fun x => decide (x.2.1 ≤ u) && decide (u < x.2.1 + x.2.2)))

/-- A unit of the index-cache or key-value partition is part of an object (R277). -/
def inObject (s : State) (u : Nat) : Bool :=
  let meets := fun (a n : Nat) => decide (a < u + unitBytes) && decide (u < a + n)
  s.index.colls.any (fun k => k.areas.any fun a => meets a.name a.bytes) ||
  s.kv.seqs.any fun q => q.units.any (fun a => meets a.1 a.2) ||
    q.pages.any fun p => p.st == 1 && u == p.loc / unitBytes * unitBytes

/-- The home a unit has without an entry (R276, R277): its default home; but a unit of the free-space
partition is vacant, and after a recovery so is a partition unit of no object (R300). -/
def plainHome (s : State) (u : Nat) : Home :=
  match windowOf u with
  | some 0 =>
    let r := regionOf s u
    if r == 1 || (s.tiers.recovered && (r == 2 || r == 3) && !inObject s u) then .vacant
    else .stack u
  | some 3 => if inExtent s u then .tile else .vacant
  | _ => ownHome u

/-- The home of a unit (R275 to R277). -/
def homeOf (s : State) (u : Nat) : Home :=
  match tierEntry s u with
  | some e => e.home
  | none => plainHome s u

/-- FAULT_ON_TOUCH of a unit (R291). -/
def faultOn (s : State) (u : Nat) : Bool := ((tierEntry s u).map (·.faultOn)).getD false
/-- MOVING of a unit (R294). -/
def movingUnit (s : State) (u : Nat) : Bool := ((tierEntry s u).map (·.moving)).getD false

/-- Uzone is not able to carry an access (R432): DOWN, training, or refused. -/
def uzoneDown (s : State) : Bool :=
  s.uzone.link.st == 0 || s.uzone.link.st == 1 || s.uzone.link.st == 5

/-- The CXL link that maps an offset of the CXL window (R297), from link `l` on, with the offset
into its expander. -/
def cxlLink : List Nat → Nat → Nat → Option (Nat × Nat)
  | [], _, _ => none
  | b :: bs, l, o => if o < b then some (l, o) else cxlLink bs (l + 1) (o - b)

/-! ### The fabric (R441, R449, R450) -/

def topo (s : State) : Nat := s.mortar.topology.toNat
def fabNum (s : State) : Nat := bits (topo s) 12 0
def sizeX (s : State) : Nat := bits (topo s) 18 15 + 1
def sizeY (s : State) : Nat := bits (topo s) 22 19 + 1
def sizeZ (s : State) : Nat := bits (topo s) 27 23 + 1
def meshMode (s : State) : Bool := bits (topo s) 63 62 == 1
/-- The modules of the fabric (R441). -/
def fabricSize (s : State) : Nat := if meshMode s then 9 else sizeX s * sizeY s * sizeZ s
/-- ROLE of port 6 or 7 (R469). -/
def portRole (s : State) (p : Nat) : Nat :=
  if p == 7 then bits (topo s) 61 58 else if p == 6 then bits (topo s) 57 54 else 0
def portDirect (s : State) (p : Nat) : Nat :=
  if p == 7 then bits (topo s) 53 41 else bits (topo s) 40 28

def coordOf (s : State) (n : Nat) (d : Nat) : Nat :=
  if d == 0 then n % sizeX s else if d == 1 then n / sizeX s % sizeY s
  else n / (sizeX s * sizeY s)
def dimSize (s : State) (d : Nat) : Nat :=
  if d == 0 then sizeX s else if d == 1 then sizeY s else sizeZ s
/-- Module `n` with its coordinate of dimension `d` replaced. -/
def withCoord (s : State) (n d v : Nat) : Nat :=
  let x := if d == 0 then v else coordOf s n 0
  let y := if d == 1 then v else coordOf s n 1
  let z := if d == 2 then v else coordOf s n 2
  x + sizeX s * (y + sizeY s * z)

/-- The module at the far end of port `p` of module `n` (R441); none where the port is unused. -/
def farEnd (s : State) (n p : Nat) : Option Nat :=
  if meshMode s then some ((n + p + 1) % 9)
  else
    let base := fun q : Nat =>
      let d := q / 2
      let z := dimSize s d
      if z ≤ 1 then none
      else some (withCoord s n d (if q % 2 == 0 then (coordOf s n d + 1) % z
        else (coordOf s n d + z - 1) % z))
    if p < 6 then base p
    else
      let r := portRole s p
      if r == 7 then some (portDirect s p)
      else if 1 ≤ r && r ≤ 6 then base (r - 1)
      else none

def portAt (s : State) (p : Nat) : Port := s.mortar.ports.getD p {}

/-- A port of this module carries messages: ACTIVE, RETRAINING or LOW_POWER, HELLO complete. -/
def portInService (s : State) (p : Nat) : Bool :=
  let q := portAt s p
  (q.link.st == 2 || q.link.st == 3 || q.link.st == 4) && q.hello

/-- The port that joins the far end of `p` back to its module, for a grid or mesh port. -/
def backPort (s : State) (p : Nat) : Nat :=
  if meshMode s then 7 - p else if p % 2 == 0 then p + 1 else p - 1

/-- A link is up as far as this module knows (R449): its own ports by their state, other links
unless LINK_STATE named them DOWN. -/
def linkIsUp (s : State) (m p : Nat) : Bool :=
  (if m == fabNum s then portInService s p else true) &&
  !(s.mortar.links.contains (m, p)) &&
  (match farEnd s m p with
   | none => false
   | some f =>
     !(s.mortar.links.contains (f, backPort s p)) &&
     (if f == fabNum s then portInService s (backPort s p) else true))

/-- The links of one way around a ring of `z` modules, `k` of them from coordinate `a`, are up. -/
def wayUp (s : State) (n d z a k : Nat) (neg : Bool) : Bool :=
  (List.range k).all fun i =>
    linkIsUp s (withCoord s n d (if neg then (a + z - i % z) % z else (a + i) % z))
      (2 * d + b2n neg)

/-- The direction of one dimension from module `n` towards coordinate `b` (R449): none when both
ways cross a DOWN link, and the shorter way, the positive on a tie, when it is up. -/
def dimDir (s : State) (n d b : Nat) : Option Bool :=
  let z := dimSize s d
  let a := coordOf s n d
  let fwd := (b + z - a) % z
  let back := (a + z - b) % z
  let short := decide (back < fwd)
  let up := fun (neg : Bool) => wayUp s n d z a (if neg then back else fwd) neg
  if a == b then some false
  else if up short then some short
  else if up (!short) then some (!short)
  else none

/-- The route from this module to `dest`: the first port and the ROUTE word; none when
unreachable (R449, R450). -/
def route (s : State) (dest : Nat) : Option (Nat × Nat) :=
  let me := fabNum s
  let direct := [7, 6].find? fun p =>
    !meshMode s && portRole s p == 7 && portDirect s p == dest && portInService s p
  match direct with
  | some p => some (p, 0)
  | none =>
    if dest == me || fabricSize s ≤ dest then none
    else if meshMode s then
      let p := (dest + 9 - me - 1) % 9
      if linkIsUp s me p then some (p, 0)
      else
        let via := (List.range 9).find? fun v =>
          v != me && v != dest && linkIsUp s me ((v + 9 - me - 1) % 9) &&
          linkIsUp s v ((dest + 9 - v - 1) % 9)
        via.map fun v => ((v + 9 - me - 1) % 9, 8 + v * 16)
    else
      let n1 := withCoord s me 0 (coordOf s dest 0)
      let n2 := withCoord s n1 1 (coordOf s dest 1)
      match dimDir s me 0 (coordOf s dest 0), dimDir s n1 1 (coordOf s dest 1),
        dimDir s n2 2 (coordOf s dest 2) with
      | some x, some y, some z =>
        let d := if coordOf s me 0 != coordOf s dest 0 then 0
          else if coordOf s me 1 != coordOf s dest 1 then 1 else 2
        let neg := if d == 0 then x else if d == 1 then y else z
        let p := 2 * d + b2n neg
        let doubled := [6, 7].find? fun q => portRole s q == p + 1 && portInService s q
        let odd := (me + dest) % 2 == 1
        some (if odd then doubled.getD p else p, b2n x + 2 * b2n y + 4 * b2n z)
      | _, _, _ => none

def reachable (s : State) (n : Nat) : Bool := (route s n).isSome

/-! ### Messages -/

/-- The class of a message to the companion, or the virtual channel of a Mortar message, and the credit
it takes: slots, or flits (R416, R418, R419, R444). -/
def msgCost (m : Msg) : Nat × Nat :=
  match m with
  | .mortar vc _ _ _ _ _ _ _ _ _ p => (b2n vc, ceilDiv (32 + p.length) 240)
  | _ =>
    let bs := msgSlots m
    (((opcodeShape (headOf bs)).map (·.1)).getD 0, bs.length / 16)

/-- The opcode and address of a message that is a request and awaits a response. -/
def msgRequest : Msg → Option (Nat × Nat)
  | .rdShared _ a => some (1, a)
  | .rdOwn _ a _ _ => some (2, a)
  | .rdNc _ a _ _ => some (3, a)
  | .wrNc _ a m _ _ => some (if m.isSome then 5 else 4, a)
  | .wrBack _ a _ => some (6, a)
  | .evictClean _ a => some (7, a)
  | .stash _ a _ => some (9, a)
  | _ => none

/-- The agent that sends a request, 3 for none, and what it serves (R423). -/
def msgFor : Msg → Nat × Option Owner
  | .rdShared _ _ => (0, none)
  | .rdOwn _ _ g o => (g, o)
  | .rdNc _ _ _ o => (3, o)
  | .wrNc _ _ _ _ o => (3, o)
  | _ => (3, none)

/-- The receive slots that the response to a request can take (R417, R419). -/
def responseSlots : Msg → Nat
  | .rdShared _ _ => 5
  | .rdOwn _ _ _ _ => 5
  | .rdNc _ _ n _ => 1 + 4 * n
  | _ => 1

/-- The receive space for responses: enough for the longest to every tag (DESIGN CHOICE, log 115). -/
def responseRoom : Nat := 4096 * 17

/-- A message with its tag. -/
def withTag (t : Nat) : Msg → Msg
  | .rdShared _ a => .rdShared t a
  | .rdOwn _ a g o => .rdOwn t a g o
  | .rdNc _ a n o => .rdNc t a n o
  | .wrNc _ a m b o => .wrNc t a m b o
  | .wrBack _ a b => .wrBack t a b
  | .evictClean _ a => .evictClean t a
  | .stash _ a b => .stash t a b
  | m => m

/-- The first tag not in use, from `t` on (R420). -/
def freeTag (used : List Nat) : Nat → Nat → Nat
  | 0, t => t
  | f + 1, t => if used.contains (t % 4096) then freeTag used f (t + 1) else t % 4096

/-- A message may be sent now: its class has the credit, the retry buffer of 512 has room for its flits,
and a request finds a tag and reserves the space of its response (R413, R416, R417, R420). -/
def maySend (u : Uzone) (m : Msg) (blocked : List Nat) : Bool :=
  let c := msgCost m
  u.link.st == 2 && !blocked.contains c.1 && decide (c.2 ≤ u.link.credits.getD c.1 0) &&
  decide (u.link.kept.length + ceilDiv c.2 15 ≤ 512) &&
  ((msgRequest m).isNone || (decide (u.reqs.length < 4096) &&
    decide ((u.reqs.map (·.space)).sum + responseSlots m ≤ responseRoom)))

/-- A message sent: its flits, its credit, and a request's tag and record. -/
def sendMsg (u : Uzone) (m : Msg) : Uzone :=
  let c := msgCost m
  let isReq := (msgRequest m).isSome
  let t := if isReq then freeTag (u.reqs.map (·.tag)) 4096 u.nextTag else 0
  let sent := if isReq then withTag t m else m
  { u with
    link := sendBodies { u.link with credits := modAt u.link.credits c.1 (· - c.2) } sent
      ((chunks 240 (ceilDiv c.2 15) (msgSlots sent)).map fun b _ => b)
    nextTag := if isReq then (t + 1) % 4096 else u.nextTag
    reqs := match msgRequest m with
      | some (k, a) => u.reqs ++ [{
          tag := t, kind := k, agent := (msgFor m).1, addr := a, owner := (msgFor m).2
          space := responseSlots m }]
      | none => u.reqs }

/-- Send what may be sent, in order within each class. `blocked` are the classes in which an earlier
message still waits. -/
def pumpMsgs (u : Uzone) : List Msg → List Nat → Uzone
  | [], _ => u
  | m :: ms, blocked =>
    if maySend u m blocked then pumpMsgs (sendMsg u m) ms blocked
    else
      pumpMsgs { u with link := { u.link with waiting := u.link.waiting ++ [m] } } ms
        ((msgCost m).1 :: blocked)

/-- Send what waits. -/
def pumpUzone (u : Uzone) : Uzone :=
  pumpMsgs { u with link := { u.link with waiting := [] } } u.link.waiting []

/-- Messages queued towards the companion, and sent as far as the link allows. -/
def uzSend (u : Uzone) (ms : List Msg) : Uzone :=
  pumpUzone { u with link := { u.link with waiting := u.link.waiting ++ ms } }

/-- An interrupt (R430). -/
def interrupt (s : State) (vector : Nat) : State :=
  { s with uzone := uzSend s.uzone [.intr vector] }

/-! ### The coherent agents (R423 to R425) -/

/-- The line of an agent (R423). -/
def agentLine (u : Uzone) (agent line : Nat) : Option AgentLine :=
  u.lines.find? fun l => l.agent == agent && l.addr == line

def agentRoom (agent : Nat) : Nat := if agent == 0 then 2048 else if agent == 1 then 1024 else 4096

/-- A line of companion memory as the module has it. -/
def lineBytes (m : Mem) (line : Nat) : List Byte := readBytes m (companionBase + line) 64

/-- Room made in an agent by evicting its oldest line (R424): WR_BACK from M, EVICT_CLEAN else. -/
def agentEvict (m : Mem) (u : Uzone) (agent : Nat) : Uzone :=
  if (u.lines.filter (·.agent == agent)).length < agentRoom agent then u
  else
    match u.lines.find? (·.agent == agent) with
    | none => u
    | some l =>
      uzSend { u with lines := u.lines.erase l }
        [if l.st == 3 then .wrBack 0 l.addr (lineBytes m l.addr) else .evictClean 0 l.addr]

/-- A line set to a state, or dropped with state 0. -/
def setLine (m : Mem) (u : Uzone) (agent line st : Nat) : Uzone :=
  if st == 0 then { u with lines := u.lines.filter fun l => !(l.agent == agent && l.addr == line) }
  else
    match agentLine u agent line with
    | some _ =>
      { u with
        lines := mapIf (fun l => l.agent == agent && l.addr == line)
          (fun l => { l with st := st }) u.lines }
    | none =>
      let u := agentEvict m u agent
      { u with lines := u.lines ++ [{ agent := agent, addr := line, st := st }] }

/-- A message that asks for a line. -/
def asksLine (line : Nat) : Msg → Bool
  | .rdShared _ a => a == line
  | .rdOwn _ a _ _ => a == line
  | _ => false

/-- An agent's request that is outstanding for a line: the sent ones and the waiting ones. -/
def lineAsked (u : Uzone) (line : Nat) : Bool :=
  u.reqs.any (fun r => (r.kind == 1 || r.kind == 2) && r.addr == line) ||
  u.link.waiting.any (asksLine line)

/-- Read of a line for a fetch (R424): RD_SHARED from I. The line enters the agent on the grant. -/
def agentRead (u : Uzone) (line : Nat) : Uzone :=
  if (agentLine u 0 line).isSome || lineAsked u line then u else uzSend u [.rdShared 0 line]

/-- A line asked for by an agent that will write it (R424), on behalf of `owner` where that waits for it. -/
def agentOwn (u : Uzone) (agent line : Nat) (owner : Option Owner) : Uzone :=
  if lineAsked u line then u else uzSend u [.rdOwn 0 line agent owner]

/-- Negotiated version 1.1 or later (R427). -/
def stashVersion (u : Uzone) : Bool := u.negMajor == 1 && decide (1 ≤ u.negMinor)

/-- The companion lines, by companion address, that bytes of the companion window touch. -/
def linesOf (a n : Nat) : List Nat :=
  if windowOf a == some 1 && 0 < n then
    (List.range ((a + n - 1) / 64 - a / 64 + 1)).map fun i => (a / 64 + i) * 64 - companionBase
  else []

/-- A message that carries a line back to the companion, which its CMP will make visible. -/
def backMsg (line : Nat) : Msg → Bool
  | .wrBack _ a _ => a == line
  | .stash _ a _ => a == line
  | _ => false

/-- A line is on its way back: its WR_BACK or STASH still lacks the CMP (R425). -/
def lineAway (u : Uzone) (line : Nat) : Bool :=
  u.reqs.any (fun r => (r.kind == 6 || r.kind == 9) && r.addr == line) ||
  u.link.waiting.any (backMsg line)

/-- A store to the stack of a course that is off is held until its domain is up (R32). -/
def storeHeld (s : State) (a : Nat) : Bool :=
  match homeOf s (unitOf a) with
  | .stack h => !s.power.domains.getLsbD (4 + h / stackBytes % 8)
  | _ => false

/-- A whole line written clears its poison (R553). -/
def clearPoison (s : State) (a n : Nat) : State :=
  { s with
    hw := { s.hw with
      poisoned := s.hw.poisoned.filter fun l => !(decide (a ≤ l) && decide (l + 64 ≤ a + n)) } }

/-- What becomes of an item that is first of its key: done, or still waiting. An agent's write goes into
a line in E or M, which is then in M; under version 1.1 a line that is complete leaves with STASH and no
copy is kept; any other line is asked for (R424, R425). -/
def outStep (s : State) (o : Out) : State × Bool :=
  if o.after.any (lineAway s.uzone) then (s, false)
  else
    match o.item with
    | .intr v => (interrupt s v, true)
    | .store a bs =>
      if storeHeld s a then (s, false)
      else ({ clearPoison s a bs.length with mem := writeBytes s.mem a bs }, true)
    | .write agent line off bs stash =>
      let st := ((agentLine s.uzone agent line).map (·.st)).getD 0
      let m := writeBytes s.mem (companionBase + line + off) bs
      if stash && stashVersion s.uzone && !lineAsked s.uzone line then
        ({ s with
          mem := m
          uzone := uzSend (setLine m s.uzone agent line 0) [.stash 0 line (lineBytes m line)] }, true)
      else if 2 ≤ st then ({ s with mem := m, uzone := setLine m s.uzone agent line 3 }, true)
      else ({ s with uzone := agentOwn s.uzone agent line none }, false)

/-- The items in order: each is done unless it must wait, or is a barrier behind an earlier one of its key. -/
def drainItems (s : State) : List Out → List (Bool × Nat) → State
  | [], _ => s
  | o :: os, stuck =>
    let x := if o.barrier && stuck.contains o.key then (s, false) else outStep s o
    if x.2 then drainItems x.1 os stuck
    else
      drainItems { x.1 with uzone := { x.1.uzone with out := x.1.uzone.out ++ [o] } } os
        (o.key :: stuck)

/-- Everything that the agents can write now, and the interrupts behind it. -/
def drainOut (s : State) : State :=
  drainItems { s with uzone := { s.uzone with out := [] } } s.uzone.out []

/-- Items put behind those that wait. -/
def emit (s : State) (os : List Out) : State :=
  drainOut { s with uzone := { s.uzone with out := s.uzone.out ++ os } }

/-- Bytes written by an agent at a name: into the lines of the companion that they touch, or into the
module's own memory. -/
def agentItems (agent a : Nat) (bs : List Byte) (stash : Bool) : List OutItem :=
  let ls := linesOf a bs.length
  if ls.isEmpty then [.store a bs]
  else ls.map fun l =>
    let lo := max a (companionBase + l)
    let hi := min (a + bs.length) (companionBase + l + 64)
    .write agent l (lo - companionBase - l) ((bs.drop (lo - a)).take (hi - lo)) stash

/-! ### Reads and writes without caching (R419) -/

/-- Writes without caching in pieces of R419: whole lines, up to four at once, and partial lines
with their mask. `fuel` bounds the pieces. -/
def wrPieces (owner : Option Owner) : Nat → Nat → List Byte → List Msg
  | 0, _, _ => []
  | _ + 1, _, [] => []
  | f + 1, a, bs =>
    let o := a % 64
    if o == 0 && 64 ≤ bs.length then
      let n := min (bs.length / 64) 4 * 64
      .wrNc 0 a none (bs.take n) owner :: wrPieces owner f (a + n) (bs.drop n)
    else
      let n := min bs.length (64 - o)
      .wrNc 0 (a - o) (some ((2 ^ n - 1) <<< o)) (zeros o ++ bs.take n ++ zeros (64 - o - n)) owner ::
        wrPieces owner f (a + n) (bs.drop n)

/-- Reads without caching in pieces of up to four lines (R419). -/
def rdPieces (owner : Owner) : Nat → Nat → Nat → List Msg
  | 0, _, _ => []
  | f + 1, line, n =>
    if n == 0 then []
    else .rdNc 0 line (min n 4) (some owner) :: rdPieces owner f (line + 256) (n - min n 4)

/-- Accesses of an owner to companion memory are still outstanding, or wait to be sent: reads, or with
`writes` its writes too. -/
def uzOut (s : State) (o : Owner) (writes : Bool) : Bool :=
  s.uzone.reqs.any (fun r => r.owner == some o && (writes || r.kind == 2 || r.kind == 3)) ||
  s.uzone.link.waiting.any fun m => match m with
    | .rdOwn _ _ _ x => x == some o
    | .rdNc _ _ _ x => x == some o
    | .wrNc _ _ _ _ x => writes && x == some o
    | _ => false

/-- Accesses of an owner to a neighbour's memory are outstanding (R454). -/
def peerOut (s : State) (o : Owner) (writes : Bool) : Bool :=
  s.mortar.reqs.any fun r => r.owner == some o && (r.kind == 1 || (writes && r.kind == 2))

/-- Writes of an owner outside the module have not been answered (R422, R454). -/
def writesOut (s : State) (o : Owner) : Bool :=
  s.uzone.reqs.any (fun r => r.owner == some o && (r.kind == 4 || r.kind == 5)) ||
  s.uzone.link.waiting.any (fun m => match m with
    | .wrNc _ _ _ _ x => x == some o
    | _ => false) ||
  s.mortar.reqs.any fun r => r.owner == some o && r.kind == 2

/-- Accesses of an owner outside the module are outstanding. -/
def accessOut (s : State) (o : Owner) (writes : Bool) : Bool := uzOut s o writes || peerOut s o writes

/-! ### Mortar messages (R443 to R452, R466) -/

/-- The bodies of a message's flits: 240 bytes each, or on an encrypted port 224 bytes sealed under the
transmit key, the first with count `n`. -/
def portBodies (key : Option (Nat × List Byte)) (n : Nat) (bs : List Byte) :
    List (List Byte → List Byte) :=
  match key with
  | none => (chunks 240 (ceilDiv bs.length 240) bs).map fun b _ => b
  | some (k, key) => (chunks 224 (ceilDiv bs.length 224) bs).zipIdx.map fun b head =>
      Config.gcmSeal key k (n + b.2) head (fit 224 b.1)

/-- The transmit key of an encrypted port. -/
def sealKey (p : Port) : Option (Nat × List Byte) := if p.encrypted then p.keyOut else none

/-- Send what a port may send, in order within each virtual channel: ACTIVE, with credit on the
channel and retry room (R443, R444). `blocked` are the channels on which an earlier message waits. -/
def pumpPort (p : Port) : List Msg → List Nat → Port
  | [], _ => p
  | m :: ms, blocked =>
    let c := (msgCost m).1
    let bodies := portBodies (sealKey p) p.txFlits (mortarBytes m)
    let n := bodies.length
    if p.link.st == 2 && !blocked.contains c && decide (n ≤ p.link.credits.getD c 0) &&
        decide (p.link.kept.length + n ≤ 512) then
      pumpPort { p with
        link := sendBodies { p.link with credits := modAt p.link.credits c (· - n) } m bodies
        txFlits := p.txFlits + n } ms blocked
    else pumpPort { p with link := { p.link with waiting := p.link.waiting ++ [m] } } ms (c :: blocked)

def portSend (p : Port) (ms : List Msg) : Port :=
  pumpPort { p with link := { p.link with waiting := [] } } (p.link.waiting ++ ms) []

/-- The messages of a payload, in pieces of 65,536 bytes, the last marked LAST (R446). -/
def mortarPieces (vc : Bool) (opcode dest source tag pairSeq route addr : Nat)
    (payload : List Byte) : List Msg :=
  let ps := chunks 65536 (payload.length / 65536 + 1) payload
  if ps.length ≤ 1 then [.mortar vc opcode dest source 0 tag pairSeq route addr true payload]
  else ps.zipIdx.map fun p =>
    .mortar vc opcode dest source 0 tag pairSeq route addr (p.2 + 1 == ps.length) p.1

/-- A port's direction crosses the wrap link of its ring from this module (R450). -/
def crossesWrap (s : State) (p : Nat) : Bool :=
  let g := if 6 ≤ p && 1 ≤ portRole s p && portRole s p ≤ 6 then portRole s p - 1 else p
  if meshMode s || 6 ≤ g then false
  else if g % 2 == 0 then coordOf s (fabNum s) (g / 2) + 1 == dimSize s (g / 2)
  else coordOf s (fabNum s) (g / 2) == 0

/-- A message to another module along its route (R449); nothing when it is unreachable. -/
def mortarSend (s : State) (opcode dest tag pairSeq addr : Nat) (payload : List Byte) : State :=
  let r := route s dest
  { s with
    mortar := { s.mortar with
      ports := match r with
        | none => s.mortar.ports
        | some (p, w) => modAt s.mortar.ports p
            (fun q => portSend q
              (mortarPieces (crossesWrap s p) opcode dest (fabNum s) tag pairSeq w addr payload)) } }

/-- The next PAIR_SEQ towards a module (R445, R452). -/
def nextSeq (l : List (Nat × Nat)) (n : Nat) : Nat := ((l.find? (·.1 == n)).map (·.2)).getD 0
def bumpSeq (l : List (Nat × Nat)) (n : Nat) : List (Nat × Nat) :=
  (n, (nextSeq l n + 1) % 2 ^ 32) :: l.filter (·.1 != n)

/-- A request to another module, kept until its response (R452): opcode, address and payload. -/
def mortarRequest (s : State) (opcode dest : Nat) (owner : Option Owner) (unit addr : Nat)
    (payload : List Byte) : State :=
  let tag := s.mortar.nextTag
  let sq := nextSeq s.mortar.outSeq dest
  let s' := mortarSend s opcode dest tag sq addr payload
  { s' with
      mortar := { s'.mortar with
      nextTag := (tag + 1) % 2 ^ 32
      outSeq := bumpSeq s.mortar.outSeq dest
      reqs := s.mortar.reqs ++ [{
        tag := tag, dest := dest, pairSeq := sq, kind := opcode, owner := owner
        unit := unit, addr := addr, sent := now s, payload := payload }] } }

/-! ### Hardware errors (R557 to R560) -/

/-- Bytes of a hardware error record (R558). -/
def hwBytes (r : HwRec) : List Byte :=
  header 64 ++ leBytes 1 r.cls ++ leBytes 1 r.source ++ leBytes 2 r.unit ++ leBytes 8 r.number ++
  leBytes 8 r.time ++ leBytes 8 r.location ++ leBytes 1 r.status ++ leBytes 1 r.action ++
  zeros 2 ++ leBytes 4 r.count ++ zeros 24

/-- Corrections counted at a source since its last record (R558). -/
def corrections (s : State) (source unit : Nat) : Nat :=
  ((s.hw.since.find? fun x => x.1 == source && x.2.1 == unit).map (·.2.2)).getD 0

/-- A record in the hardware error log, its count in ERROR_COUNTS, and vector 4,033 (R558, R566).
A corrected error without an action is counted only;
a fatal record asserts SMB_ALERT# (R572). -/
def hwError (s : State) (cls source unit location status action : Nat) : State :=
  let n := sat 0xFFFFFFFF (corrections s source unit + b2n (cls == 0))
  let others := s.hw.since.filter fun x => !(x.1 == source && x.2.1 == unit)
  let rec' : HwRec := {
    number := s.hw.next, cls := cls, source := source, unit := unit,
    time := now s, location := location, status := status, action := action, count := n }
  let log := s.hw.log ++ [rec']
  let hw := { s.hw with
    corrected := sat 0xFFFFFFFF (s.hw.corrected + (if cls == 0 then 1 else 0))
    deferred := sat 0xFFFF (s.hw.deferred + (if cls == 1 then 1 else 0))
    since := others }
  if cls == 0 && action == 0 then
    { s with hw := { hw with since := others ++ [(source, unit, n)] } }
  else
    { s with
      hw := { hw with log := log.drop (log.length - 16384), next := s.hw.next + 1 }
      pins := { s.pins with smbAlert := s.pins.smbAlert || cls == 2 }
      uzone := uzSend s.uzone [.intr 4033] }

/-- Every command in flight ended without a completion, with all that it holds (R492, R560). -/
def dropCommands (s : State) : State :=
  { s with
    sched := { s.sched with cmds := [], stopped := true }
    walks := []
    bricks := s.bricks.map fun b => { b with
      urgentQ := [], normalQ := [], slotsInUse := 0, buffers := [], asks := [], remote := []
      planes := List.replicate 32 [], bus := [], incoming := [] }
    slab := { s.slab with
      gathers := [], parked := [], parts := [], fars := [], tiles := [], heldWork := [], queue := [], pair0 := .free,
      pair1 := .free, epilogue := [], rows := [], rescaleLoading := false }
    index := { s.index with locks := [], lockQueue := []
                            colls := s.index.colls.map fun c => { c with
                              repairing := none
                              segments := c.segments.map fun g => { g with compacting := none } } }
    kv := { s.kv with items := [] }
    hod := { s.hod with streams := [], links := [], order := [], descs := [] }
    plumb := { s.plumb with units := s.plumb.units.map fun u => { u with busy := false } }
    tiers := { s.tiers with
      faults := []
      migrations := []
      entries := s.tiers.entries.map fun e => { e with moving := false } }
    mortar := { s.mortar with fans := [], reqs := [], pieces := [], backoffs := [],
                               inbound := [] } }

/-- Protected staging written to the flush target (R546). -/
def flushStaging (p : Power) : Power :=
  { p with flushSeq := p.flushSeq + 1, flushArea := (p.flushArea + 1) % 2, flushed := true }

/-! ### Power domains (R30, R536, R537) -/

/-- The domains that dispatch in Serving needs: all but MF and XF. -/
def servingMask : BitVec 24 := 0x9FFFFF

/-- PORT_ENABLE (R471). -/
def portEnable (s : State) : Nat := s.mortar.control.toNat % 256

/-- The domains that a power state has on (R537, R538). -/
def domainsIn (s : State) (st : Nat) : BitVec 24 :=
  let fab : BitVec 24 := (if portEnable s != 0 then 0x200000 else 0) ||| (if s.tiers.xfMode != 0 then 0x400000 else 0)
  if st == 0 then servingMask ||| fab
  else if st == 1 then (servingMask ||| fab) &&& 0xFFFFF0
  else if st == 2 then 0x900000 ||| fab
  else 0

/-! ### Audit records (R529 to R532) -/

/-- Bytes 0 to 207 of an audit record (R530). -/
def auditHead (r : AuditRec) : List Byte :=
  header 256 ++ leBytes 1 r.alive ++ leBytes 1 r.origin ++ leBytes 2 r.event ++
  leBytes 8 r.number ++ leBytes 8 r.time ++ leBytes 8 r.originDetail ++
  fit 64 (r.detail.flatMap (leBytes 8)) ++ fit 48 r.digest ++ fit 48 r.prev ++ zeros 16

/-- The whole record. -/
def auditBytes (r : AuditRec) : List Byte := auditHead r ++ fit 48 r.hash

/-- ALIVE of the next audit record (R532); the manual gives none for record 0. -/
def auditNextAlive (s : State) : Nat :=
  match s.lintel.audit.getLast? with
  | some r => (r.alive + 1) % 256
  | none => (Config.freeByte s.drawn 0).toNat

/-- The alive check of the audit stream (R332, R532). -/
def auditOk (s : State) : Bool :=
  match s.lintel.auditAlive with
  | none => true
  | some t => auditNextAlive s == (t + 1) % 256

/-- The record appended and the tracked value advanced (R530, R531). -/
def audit (s : State) (origin event : Nat) (detail : List Nat) (originDetail : Nat)
    (changed : List Byte) : State :=
  let r0 : AuditRec := {
    number := s.lintel.auditNext, alive := auditNextAlive s, origin := origin,
    event := event, time := now s, originDetail := originDetail, detail := detail,
    digest := Config.sha384 changed
    prev := (s.lintel.audit.getLast?.map (·.hash)).getD (zeros 48), hash := [] }
  let r := { r0 with hash := Config.sha384 (auditHead r0) }
  let log := s.lintel.audit ++ [r]
  { s with
    lintel := { s.lintel with
      audit := log.drop (log.length - 4194304)
      auditNext := s.lintel.auditNext + 1
      auditAlive := some r.alive }
    drawn := s.drawn + (if s.lintel.audit.isEmpty then 1 else 0) }

/-- The failed check: counted, and an AUDIT_ALIVE record written (R332, R341, R532, R559). -/
def auditFail (s : State) : State :=
  let s1 := hwError s 1 0x51 0 s.lintel.auditNext 0x30 0
  { s1 with plumb := { s1.plumb with auditFails := sat 0xFFFF (s1.plumb.auditFails + 1) } }

/-! ### Commands -/

def findCmd (s : State) (id : Nat) : Option Cmd := s.sched.cmds.find? (·.id == id)

def updCmd (s : State) (id : Nat) (f : Cmd → Cmd) : State :=
  { s with sched := { s.sched with cmds := mapIf (·.id == id) f s.sched.cmds } }

def setPhase (s : State) (id : Nat) (p : Phase) : State := updCmd s id fun c => { c with phase := p }

def findSq (s : State) (q : Nat) : Option SubQ := s.sched.sqs.find? (·.id == q)
def findCq (s : State) (q : Nat) : Option ComplQ := s.sched.cqs.find? (·.id == q)

def updSq (s : State) (q : Nat) (f : SubQ → SubQ) : State :=
  { s with sched := { s.sched with sqs := mapIf (·.id == q) f s.sched.sqs } }
def updCq (s : State) (q : Nat) (f : ComplQ → ComplQ) : State :=
  { s with sched := { s.sched with cqs := mapIf (·.id == q) f s.sched.cqs } }

/-- Commands of a submission queue in flight (R342). -/
def inFlight (s : State) (q : Nat) : Nat := (s.sched.cmds.filter (·.sq == q)).length

/-- Fields of a submission entry (R352). -/
def entOpcode (c : Cmd) : Nat := byteAt c.entry 0
def entTag (c : Cmd) : Nat := getLE c.entry 2 2
def entField (c : Cmd) (off n : Nat) : Nat := getLE c.entry off n
/-- The SEAL flag (R168). -/
def entSeal (c : Cmd) : Bool := bit (byteAt c.entry 1) 0

/-- A failure: its status and the INFO fields it carries (R360). -/
structure Err where
  status : Nat
  info32 : Nat := 0
  a : Nat := 0
  b : Nat := 0
  deriving DecidableEq, Repr

/-- A location (R361). -/
def loc (wh element offset : Nat) : Nat := wh * 2 ^ 56 + element * 2 ^ 32 + offset

/-- INVALID_FIELD at a location. -/
def invalid (wh element offset : Nat) : Err := { status := 0x10, a := loc wh element offset }
/-- VERSION_MISMATCH at a location. -/
def badVersion (wh element offset : Nat) : Err := { status := 0x11, a := loc wh element offset }

/-- A status whose kind is "error" (R359). -/
def isError (status : Nat) : Bool := decide (0x10 ≤ status) && decide (status < 0x60)

/-! ### Ranges and writes (R281, R419, R454) -/

/-- A range of bytes that a command touches: kind 0 Wall block, 1 record gather, 2 key-value frame,
3 durable write, 4 other (R289). -/
structure Range where
  addr : Nat
  len : Nat
  kind : Nat := 4
  write : Bool := false
  deriving DecidableEq, Repr

/-- The units of a range, in ascending order. -/
def unitsOf (r : Range) : List Nat :=
  if r.len == 0 then []
  else (List.range ((r.addr + r.len - 1) / unitBytes - r.addr / unitBytes + 1)).map
    fun i => (r.addr / unitBytes + i) * unitBytes

/-- The part of a range that lies in a unit: its first byte and its length. -/
def rangePart (r : Range) (u : Nat) : Nat × Nat :=
  (max r.addr u, min (r.addr + r.len) (u + unitBytes) - max r.addr u)

/-- The number under which a command remembers that it has read that part. -/
def partKey (r : Range) (u : Nat) : Nat := (rangePart r u).1 * 2 ^ 22 + (rangePart r u).2
def partKeys (r : Range) : List Nat := (unitsOf r).map (partKey r)

/-- Bytes within one unit sent to a home outside the module (R419, R454). -/
def homeWrite (owner : Option Owner) (s : State) (h : Home) (a : Nat) (bs : List Byte) : State :=
  match h with
  | .companion p => { s with
      uzone := uzSend s.uzone (wrPieces owner (bs.length + 1) (p + a % unitBytes) bs) }
  | .neighbour p =>
    (chunks 65536 (bs.length + 1) bs).zipIdx.foldl (fun s c =>
      mortarRequest s 2 ((p - neighbourBase) / 2 ^ 38) owner (unitOf a)
        ((p + a % unitBytes + 65536 * c.2) % 2 ^ 38) c.1) s
  | _ => s

/-- A write to the part of a range that lies in one unit: the bytes, and the messages to the companion or
to a neighbour that carry them there (R419, R454). -/
def unitWrite (owner : Option Owner) (s : State) (a : Nat) (bs : List Byte) : State :=
  homeWrite owner { s with mem := writeBytes s.mem a bs } (homeOf s (unitOf a)) a bs

/-- The units that `n` bytes from a name touch, in ascending order. -/
def spanUnits (a n : Nat) : List Nat := unitsOf { addr := a, len := n }

/-- A write by the KV7 to names on behalf of an owner, unit by unit, each at its home (R553). -/
def deviceWrite (s : State) (owner : Option Owner) (a : Nat) (bs : List Byte) : State :=
  (spanUnits a bs.length).foldl (fun s u =>
    let p := rangePart { addr := a, len := bs.length } u
    unitWrite owner s p.1 ((bs.drop (p.1 - a)).take p.2)) (clearPoison s a bs.length)

end Sys2Proof.Machine
end

