-- ==== Sys2Proof/Machine/Link.lean ====
section
/-!
DEFINITION. The link layer that Uzone and the Mortar ports share: flits, acknowledgement, replay and
training (R410 to R416, R443).
-/

namespace Sys2Proof.Machine

/-! ### Flits (R412) -/

def flitKind (f : List Byte) : Nat := bits (getLE f 0 2) 15 12
def flitSeq (f : List Byte) : Nat := bits (getLE f 0 2) 11 0
/-- The last payload flit that the far end has received in order. -/
def flitAck (f : List Byte) : Option Nat :=
  if bit (getLE f 2 2) 15 then some (bits (getLE f 2 2) 11 0) else none
def flitClass (f : List Byte) : Nat := bits (getLE f 4 4) 31 30
def flitCredits (f : List Byte) : Nat := bits (getLE f 4 4) 15 0
def flitSlots (f : List Byte) : List Byte := (f.drop 8).take 240

/-- CHECK holds (R412). -/
def flitOk (f : List Byte) : Bool := f.length == 256 && crc64 (f.take 248) == getLE f 248 8

/-! ### Receiving and replay (R413, R414) -/

/-- An ACK frees the kept flits up to its number. -/
def takeAck (ack : Option Nat) (l : Link) : Link :=
  match ack with
  | none => l
  | some a =>
    { l with
      kept := if l.kept.any (·.seq == a) then (l.kept.dropWhile (·.seq != a)).drop 1 else l.kept }

/-- Returned credits, of the classes or channels that the link has (R416, R444). -/
def takeCredits (cls n : Nat) (l : Link) : Link :=
  { l with credits := modAt l.credits cls (· + n) }

/-- A flit dropped or out of sequence: a NAK for the first, and discarding until the awaited flit
comes (R414). -/
def dropFlit (l : Link) : Link :=
  if l.discarding then l else { sendNak l with discarding := true, naksSent := l.naksSent + 1 }

/-- Slots of a payload as they are walked: the data slots that the last message still has to come and its
class, the slots freed by class (R416), and whether a header names no known message. -/
structure SlotWalk where
  skip : Nat
  cls : Nat
  owed : List Nat
  bad : Bool := false
  deriving DecidableEq, Repr

/-- The slots walked in order; `shape` gives a header's class and the slots that follow it. -/
def walkSlots (shape : List Byte → Option (Nat × Nat)) : Nat → SlotWalk → List Byte → SlotWalk
  | 0, w, _ => w
  | n + 1, w, bs =>
    if w.skip != 0 then
      walkSlots shape n { w with skip := w.skip - 1, owed := modAt w.owed w.cls (· + 1) } (bs.drop 16)
    else
      match shape (bs.take 16) with
      | none => { w with bad := true }
      | some (c, k) =>
        walkSlots shape n { w with skip := k, cls := c, owed := modAt w.owed c (· + 1) } (bs.drop 16)

/-- The walk of a payload that arrives on a link. -/
def walkPayload (shape : List Byte → Option (Nat × Nat)) (f : List Byte) (l : Link) : SlotWalk :=
  walkSlots shape 15 { skip := l.skip, cls := l.cls, owed := l.owed } (flitSlots f)

/-- The flit is the payload flit that the link awaits. -/
def inSequence (f : List Byte) (l : Link) : Bool :=
  flitKind f == 0 && BitVec.ofNat 12 (flitSeq f) == l.rxNext

/-- A payload flit whose slots are `w` accepted in sequence, or dropped; other kinds carry ACK and CREDIT
alone. An accepted one is acknowledged, and the space that it took is returned, in idle flits (R413, R416). -/
def acceptFlit (w : SlotWalk) (f : List Byte) (l : Link) : Link :=
  if inSequence f l then
    returnCredits (sendIdle { l with
      rxNext := l.rxNext + 1
      acked := some (flitSeq f)
      discarding := false
      skip := w.skip
      cls := w.cls
      owed := w.owed
      delivered := l.delivered ++ [flitSlots f] })
  else if flitKind f == 0 || 3 ≤ flitKind f then dropFlit l
  else l

/-- A payload flit taken with its slots. -/
def takePayload (shape : List Byte → Option (Nat × Nat)) (f : List Byte) (l : Link) : Link :=
  acceptFlit (walkPayload shape f l) f l

/-- The flit is accepted and holds the header of no known message (R419). -/
def badMessage (shape : List Byte → Option (Nat × Nat)) (f : List Byte) (l : Link) : Bool :=
  inSequence f l && (walkPayload shape f l).bad

/-- A NAK: every kept flit from its number on is sent again (R414), and the run of NAKs that name one
number grows (R415). -/
def takeNak (seq : BitVec 12) (l : Link) : Link :=
  { l with
    resent := (l.kept.dropWhile (·.seq != seq.toNat)).length
    nakSeq := some seq.toNat
    nakRun := if l.nakSeq == some seq.toNat then l.nakRun + 1 else 1 }

/-- The idle and control flits of earlier events have left. -/
def freshLink (l : Link) : Link := { l with unkept := [] }

/-! ### Training (R410, R411, R415, R431, R432) -/

/-- Full training begins: numbers start again, the messages that the far end has not acknowledged are
held to be sent again, and the whole receive space is to be granted. -/
def trainFull (l : Link) : Link :=
  { l with
    st := 1, step := 1, txNext := 0, rxNext := 0, acked := none, discarding := false, skip := 0
    unkept := []
    credits := l.credits.map fun _ => 0
    owed := firstGrant l
    waiting := (l.kept.filterMap (·.msg)).map (withTag 0) ++ l.waiting
    kept := [], resent := 0, nakSeq := none, nakRun := 0, retrainFails := 0 }

/-- Retraining begins at step 3, with buffers and numbers kept and the exchange of credits to be repeated
(R415). -/
def retrainLink (l : Link) : Link :=
  { l with
    st := 3, step := 3, nakSeq := none, nakRun := 0
    owed := firstGrant l
    credits := l.credits.map fun _ => 0 }

/-- A training step exceeds its limit: half the lanes go on alone when every failing lane lies in the
other half of `n` lanes, and otherwise training starts again (R410, R411). -/
def trainTimeout (n lanes : Nat) (l : Link) : Link :=
  let low := lanes % 2 ^ (n / 2)
  let high := lanes / 2 ^ (n / 2)
  let half := (low == 0) != (high == 0) && l.step ≤ 4 &&
    (!l.degraded || l.upperHalf == (high == 0))
  if half then { l with step := 1, degraded := true, upperHalf := high == 0 }
  else { l with step := 1 }

/-- A lane is in use. -/
def laneActive (n lane : Nat) (l : Link) : Bool :=
  !l.degraded || l.upperHalf == decide (n / 2 ≤ lane)

/-- Every class has credits, so the initial exchange is done (R416). -/
def creditsIn (l : Link) : Bool := l.credits.all fun c => decide (0 < c)

/-- The link is up. -/
def linkUp (l : Link) : Link := { l with st := 2, step := 0, retrainFails := 0 }

/-- LOW_POWER once the retry buffer is empty and nothing waits (R431). -/
def linkSleep (l : Link) : Link :=
  if l.st == 2 && l.kept.isEmpty && l.waiting.isEmpty then { l with st := 4 } else l
def linkWake (l : Link) : Link := if l.st == 4 then { l with st := 2 } else l
def linkDown (l : Link) : Link := { l with st := 0, step := 0 }

/-- Full training of Uzone: requests not acknowledged will be sent again with new tags. -/
def trainUzone (u : Uzone) : Uzone :=
  let tags := (u.link.kept.filterMap (·.msg)).filter fun m => (msgRequest m).isSome
  { u with
    link := trainFull u.link
    reqs := u.reqs.filter fun r => !(tags.any fun m => withTag r.tag m == m)
    negMajor := 0, negMinor := 0, cwBits := 0, cwErrors := 0 }

/-- A link event (R430). -/
def linkEvent (s : State) : State := interrupt s 4034

/-- A retrain begins (R415); UZONE_ERROR_COUNTS reaching its limit is an event. -/
def retrainUzone (s : State) : State :=
  let s1 := { s with
    uzone := { s.uzone with
      link := retrainLink s.uzone.link
      cwBits := 0
      cwErrors := 0
      retrains := sat 0xFFFF (s.uzone.retrains + 1) } }
  if s.uzone.retrains == 0xFFFE then linkEvent s1 else s1

/-- The fabric key, while Lintel does not withhold it (R519, R525). -/
def heldKey (s : State) : Option (List Byte) :=
  if s.lintel.withheld then none else s.lintel.fabricKey

/-- A Mortar port's full training (R439, R443, R525): it takes the fabric key as it stands, and knows
its peer again only from a HELLO. -/
def trainPort (key : Option (List Byte)) (p : Port) : Port :=
  { p with
    link := trainFull p.link
    cwBits := 0
    cwErrors := 0
    hello := false
    fabricKey := key
    keyIn := none
    keyOut := none
    txFlits := 0
    aliveIn := none
    aliveOut := 0 }

end Sys2Proof.Machine
end

