-- ==== Sys2Proof/Machine/Quant.lean ====
section
/-!
DEFINITION. Formats, quantisation, dequantisation and dot products (R193 to R212), matrix objects
(R196 to R198), sketches (R40, R41, R221, R222) and KV5 codes (R67, R153).
-/

namespace Sys2Proof.Machine

/-! ### Formats (R193) -/

/-- Bits of an element. -/
def fmtWidth (f : Nat) : Nat := [8, 4, 8, 4, 8, 8, 8, 16, 16, 1, 32, 32].getD f 8
def isGrouped (f : Nat) : Bool := f == 2 || f == 3 || f == 6
/-- The integer grouped formats, which carry escapes (R199). -/
def isIntG (f : Nat) : Bool := f == 2 || f == 3
def isIntPlain (f : Nat) : Bool := f == 0 || f == 1 || f == 9
def qmax (f : Nat) : Nat := if f == 2 then 254 else 14
def escCode (f : Nat) : Nat := if f == 2 then 0xFF else 0xF
/-- The format of a collection's stored copies (R36, R193). -/
def storedFmt (code : Nat) : Nat := [2, 3, 6, 7].getD code 2
def groupOf (code : Nat) : Nat := [32, 64, 128].getD code 32

/-- The value of a plain float code. -/
def floatVal (f code : Nat) : F32 :=
  if f == 4 || f == 6 then e4m3To32 code
  else if f == 5 then e5m2To32 code
  else if f == 7 then bf16To32 code
  else if f == 8 then fp16To32 code
  else BitVec.ofNat 32 code

/-- The code of an FP32 value in a plain float format (R204). -/
def floatCode (f : Nat) (x : F32) : Nat :=
  if f == 4 || f == 6 then toE4M3 x
  else if f == 5 then toE5M2 x
  else if f == 7 then toBf16 x
  else if f == 8 then toFp16 x
  else x.toNat

/-- A signed integer code. -/
def signedVal (w code : Nat) : Int := if code < 2 ^ (w - 1) then code else (code : Int) - 2 ^ w

/-! ### Bytes of elements -/

/-- Codes of `w` bits from bytes, the lower index in the lower bits. -/
def unpackCodes (w : Nat) (bs : List Byte) : List Nat :=
  if w == 4 then bs.flatMap fun b => [b.toNat % 16, b.toNat / 16]
  else if w == 1 then bs.flatMap fun b => (List.range 8).map fun i => b2n (bit b.toNat i)
  else (chunks (w / 8) bs.length bs).map fromLE

/-- Bytes from codes of `w` bits. -/
def packCodes (w : Nat) (cs : List Nat) : List Byte :=
  if w == 4 then (chunks 2 cs.length cs).map fun p =>
    BitVec.ofNat 8 (p.getD 0 0 + 16 * p.getD 1 0)
  else if w == 1 then (chunks 8 cs.length cs).map fun p => BitVec.ofNat 8
    ((p.zipIdx.map fun q => q.1 <<< q.2).sum)
  else cs.flatMap (leBytes (w / 8))

/-- A signed byte. -/
def signedByte (b : Nat) : Int := signedVal 8 b
def byteOfInt (i : Int) : Byte := BitVec.ofInt 8 i

/-- A vector of QUERY_FORMAT or ELEMENT_FORMAT (R150, R355): 0 FP32, 1 BF16, 2 FP16. -/
def inputWidth (f : Nat) : Nat := if f == 0 then 4 else 2
def inputVec (f : Nat) (bs : List Byte) : List F32 :=
  (unpackCodes (8 * inputWidth f) bs).map (floatVal ([10, 7, 8].getD f 10))

/-! ### Group quantisation (R199 to R204) -/

/-- The mean magnitude of the finite elements (R200). -/
def meanAbs (x : List F32) : F32 :=
  let fin := x.filter isFin32
  if fin.isEmpty then 0 else fdiv (fsum (fin.map fabs)) (intTo32 fin.length)

/-- Indices of the escaped elements, in ascending order (R200). -/
def escapes (budget : Nat) (x : List F32) : List Nat :=
  let ix := x.zipIdx
  let bad := ((ix.filter fun p => !isFin32 p.1).map (·.2)).take budget
  let m16 := fmul (intTo32 16) (meanAbs x)
  let big := ix.filter fun p => isFin32 p.1 && fltb m16 (fabs p.1)
  let big := (sortBy (fun a b => fltb (fabs b.1) (fabs a.1)) big).map (·.2)
  sortBy (fun a b => decide (a < b)) (bad ++ big.take (budget - bad.length))

/-- The smallest E4M3 code from 1 on whose value is at least `y` (R201). -/
def scaleAtLeast (y : F32) : Nat :=
  match (List.range 126).find? (fun i => !fltb (e4m3To32 (i + 1)) y) with
  | some i => i + 1
  | none => (Config.scaleCode y).toNat

/-- The least and greatest of 0 and some finite values. -/
def leastOf (l : List F32) : F32 := l.foldl (fun m x => if fltb x m then x else m) 0
def greatestOf (l : List F32) : F32 := l.foldl (fun m x => if fltb m x then x else m) 0

/-- An integer held to 0 .. `q` (R202). -/
def clampQ (q : Nat) (i : Int) : Nat := if i < 0 then 0 else min q i.toNat

/-- Per group: its raw scale, the exact quotient rounded once, and lo (R201). -/
def groupRaw (f : Nat) (esc : List Nat) (grp : List (F32 × Nat)) : F32 × F32 :=
  let xs := (grp.filter fun p => isFin32 p.1 && !esc.contains p.2).map (·.1)
  let lo := leastOf xs
  let hi := greatestOf xs
  if isIntG f then
    (fltTo32 false (fltDiv (fltAdd (v32 hi) (fltNeg (v32 lo))) (v32 (intTo32 (qmax f)))), lo)
  else (fdiv (if fltb hi (fabs lo) then fabs lo else hi) (intTo32 448), lo)

/-- The codes of one group (R202). -/
def groupCodes (f : Nat) (esc : List Nat) (s : F32) (z : Nat) (grp : List (F32 × Nat)) :
    List Nat :=
  grp.map fun p =>
    if isIntG f then
      (if esc.contains p.2 then escCode f
       else if isZero32 s then 0
       else clampQ (qmax f) (z + roundAway (fdiv p.1 s)))
    else if !isFin32 p.1 then toE4M3 p.1
    else if isZero32 s then 0
    else toE4M3 (fdiv p.1 s)

/-- A vector quantised into a grouped format with an escape budget (R199 to R203); into a plain
float format, its elements converted (R204). -/
def quantise (f g budget : Nat) (x : List F32) : QVec :=
  if !isGrouped f then { fmt := f, g := g, scale := one32, codes := x.map (floatCode f) }
  else
    let G := x.length / g
    let bad := (x.filter fun v => !isFin32 v).length
    if isIntG f && decide (budget < bad) then
      { fmt := f, g := g, scale := qnan32, codes := x.map fun _ => 0, gs := List.replicate G 0,
        zp := List.replicate G 0 }
    else
      let esc := if isIntG f then escapes budget x else []
      let groups := chunks g (G + 1) x.zipIdx
      let raws := groups.map (groupRaw f esc)
      let rmax := greatestOf (raws.map (·.1))
      let rs := if isZero32 rmax then one32 else fdiv rmax (intTo32 256)
      let gs := raws.map fun r => if isZero32 r.1 then 0 else scaleAtLeast (fdiv r.1 rs)
      let ss := gs.map fun c => fmul rs (e4m3To32 c)
      let zs := (raws.zip ss).map fun p =>
        if !isIntG f || isZero32 p.2 then 0
        else clampQ (qmax f) (roundAway (fdiv (fneg p.1.2) p.2))
      { fmt := f, g := g, scale := rs,
        codes := (groups.zip (ss.zip zs)).flatMap fun p => groupCodes f esc p.2.1 p.2.2 p.1,
        gs := gs, zp := if isIntG f then zs.map Int.ofNat else [],
        side := esc.map fun i => (i, toBf16 (x.getD i 0)) }

/-! ### Dequantised values (R198, R205) -/

def gsVal (v : QVec) (k : Nat) : F32 := e4m3To32 (v.gs.getD k 0)
def isEsc (v : QVec) (c : Nat) : Bool := isIntG v.fmt && c == escCode v.fmt
/-- The value that R198 matches to an escape. -/
def escVal (v : QVec) (i : Nat) : F32 :=
  match v.side.find? (·.1 == i) with
  | some p => bf16To32 p.2
  | none => 0

/-- The dequantised value of element `i` with code `c` (R205). -/
def deqAt (v : QVec) (i c : Nat) : F32 :=
  if !isGrouped v.fmt then floatVal v.fmt c
  else
    let k := i / v.g
    let s := fmul v.scale (gsVal v k)
    if isEsc v c then escVal v i
    else if isIntG v.fmt then fmul s (intTo32 ((c : Int) - v.zp.getD k 0))
    else fmul s (e4m3To32 c)

/-- The dequantised vector. -/
def deq (v : QVec) : List F32 := v.codes.zipIdx.map fun p => deqAt v p.2 p.1

/-- A row as the numbers of its record: what an unstated value of R188 may depend on. -/
def rowKey (v : QVec) : List Nat :=
  [v.fmt, v.g, v.scale.toNat] ++ v.codes ++ v.gs ++ v.zp.map (fun z => (z + 128).toNat) ++
    v.side.flatMap fun p => [p.1, p.2]

/-! ### Dot products (R206 to R209, R212) -/

/-- The FP32 sum of products in ascending index order. -/
def dotPlain (a b : List F32) : F32 := (a.zip b).foldl (fun acc p => fadd acc (fmul p.1 p.2)) 0

/-- The sum P of one group (R206). -/
def groupP (a b : QVec) (k : Nat) (l : List (Nat × Nat)) : Int :=
  (l.map fun p => if isEsc a p.1 || isEsc b p.2 then 0
    else ((p.1 : Int) - a.zp.getD k 0) * ((p.2 : Int) - b.zp.getD k 0)).sum

/-- The groups' accumulation of R206 and R207. -/
def dotGroups (a b : QVec) : F32 :=
  let gps := (chunks a.g (a.codes.length + 1) (a.codes.zip b.codes)).zipIdx
  let acc := gps.foldl (fun acc q =>
    let p := if isIntG a.fmt then intTo32 (groupP a b q.2 q.1)
      else q.1.foldl (fun t c => fadd t (fmul (e4m3To32 c.1) (e4m3To32 c.2))) 0
    fadd acc (fmul (fmul (gsVal a q.2) (gsVal b q.2)) p)) 0
  fmul (fmul acc a.scale) b.scale

/-- The escape terms, in ascending index order (R206). -/
def dotEscapes (a b : QVec) (d : F32) : F32 :=
  if isIntG a.fmt then
    (a.codes.zip b.codes).zipIdx.foldl (fun d p =>
      if isEsc a p.1.1 || isEsc b p.1.2 then
        fadd d (fmul (deqAt a p.2 p.1.1) (deqAt b p.2 p.1.2))
      else d) d
  else d

/-- One float element of C for operands of one format (R206, R207). -/
def dotVec (a b : QVec) : F32 :=
  if isGrouped a.fmt then dotEscapes a b (dotGroups a b)
  else dotPlain (deq a) (deq b)

/-- One integer element of C (R208, R209). -/
def dotInt (a b : QVec) : Int :=
  if a.fmt == 9 then
    (a.codes.length : Int) - 2 * ((a.codes.zip b.codes).filter fun p => p.1 != p.2).length
  else
    ((a.codes.zip b.codes).map fun p =>
      signedVal (fmtWidth a.fmt) p.1 * signedVal (fmtWidth b.fmt) p.2).sum

/-- An operand widened to BF16 (R212). -/
def widen (v : QVec) : QVec :=
  { fmt := 7, g := v.g, scale := one32, codes := (deq v).map toBf16 }

/-- A row of A brought to B's format when the formats differ (R210, R211). -/
def convertA (widened : Bool) (a : QVec) (fb g : Nat) : QVec :=
  if widened then widen a
  else if a.fmt == fb then a
  else if isGrouped fb then quantise fb g 32 (deq a)
  else if fb == 7 then widen a
  else a

/-! ### Matrix objects (R196 to R198) -/

/-- Bytes of a row (R197). -/
def rowBytes (f g K : Nat) : Nat :=
  let codes := ceilDiv (K * fmtWidth f) 8
  if isGrouped f then 16 + codes + K / g + (if isIntG f then K / g else 0) else codes

/-- Entries of a side-table row (R59, R198). -/
def sideEntries (bs : List Byte) (n : Nat) : List (Nat × Nat) :=
  (List.range n).map fun i => (getLE bs (4 * i) 2, getLE bs (4 * i + 2) 2)

/-- A matrix header's fields (R196). -/
def mxFormat (h : List Byte) : Nat := byteAt h 4
def mxGroup (h : List Byte) : Nat := groupOf (byteAt h 5)
def mxRows (h : List Byte) : Nat := getLE h 8 4
def mxCols (h : List Byte) : Nat := getLE h 12 4
def mxStride (h : List Byte) : Nat := getLE h 16 4
def mxData (h : List Byte) : Nat := getLE h 24 8
def mxSide (h : List Byte) : Nat := getLE h 32 8
def mxSideRows (h : List Byte) : Nat := getLE h 40 4

/-- One row of a matrix object, with its escapes matched as R198 says. -/
def readRow (m : Mem) (h : List Byte) (i : Nat) : QVec :=
  let f := mxFormat h
  let g := mxGroup h
  let K := mxCols h
  let bs := readBytes m (mxData h + i * mxStride h) (rowBytes f g K)
  if isGrouped f then
    let n := byteAt bs 4
    let ix := getLE bs 8 4
    let n := if 32 < n || (0 < n && mxSideRows h ≤ ix) then 0 else n
    let cb := K * fmtWidth f / 8
    let codes := unpackCodes (fmtWidth f) ((bs.drop 16).take cb)
    let gs := ((bs.drop (16 + cb)).take (K / g)).map (·.toNat)
    let zp := if isIntG f then ((bs.drop (16 + cb + K / g)).take (K / g)).map fun b =>
        signedByte b.toNat + (if f == 2 then 128 else 8) else []
    { fmt := f, g := g, scale := BitVec.ofNat 32 (getLE bs 0 4), codes := codes, gs := gs, zp := zp,
      side := if isIntG f then
          sideEntries (readBytes m (mxSide h + 128 * ix) (4 * n)) n else [] }
  else { fmt := f, g := g, scale := one32, codes := (unpackCodes (fmtWidth f) bs).take K }

def readRows (m : Mem) (h : List Byte) : List QVec :=
  (List.range (mxRows h)).map (readRow m h)

/-! ### Sketches (R40, R41, R222) and codes (R153) -/

/-- The FP32 sum of squares in ascending index order (R107, R222). -/
def sumSquares (x : List F32) : F32 := x.foldl (fun t v => fadd t (fmul v v)) 0

/-- A vector divided by its length (R222). -/
def normalise (x : List F32) : List F32 :=
  let n := fsqrt (sumSquares x)
  x.map fun v => fdiv v n

def allZero (x : List F32) : Bool := x.all isZero32

/-- The input row of a projection in the matrix's format (R210, R211). -/
def projInput (f g : Nat) (x : List F32) : QVec :=
  if isGrouped f then quantise f g 32 x else quantise 7 g 0 x

/-- The sketch of a vector, bit `j` from row `j` (R40). -/
def sketchBits (rows : List QVec) (x : List F32) : Nat :=
  match rows with
  | [] => 0
  | r :: _ =>
    let a := projInput r.fmt r.g x
    (rows.zipIdx.map fun p => if fgt (dotVec a p.1) 0 then 0 else 2 ^ p.2).sum

/-- The least of a list of distances: NaN last, ties to the lower index (R153). -/
def argMin (l : List F32) : Nat :=
  (l.zipIdx.foldl (fun (best : Option (F32 × Nat)) p =>
    match best with
    | none => some p
    | some b => if fcmp p.1 b.1 < 0 then some p else some b) none).elim 0 (·.2)

/-- The squared distance of a sub-vector to a centroid (R153). -/
def subDist (x c : List F32) : F32 :=
  (x.zip c).foldl (fun d p => let t := fsub p.1 p.2; fadd d (fmul t t)) 0

/-- The 256 centroids of each sub-quantiser of a code book (R67). -/
def centroids (cents : List F32) (M d : Nat) : List (List (List F32)) :=
  (chunks (256 * (d / M)) M cents).map fun l => chunks (d / M) 256 l

/-- The code of a vector as a number, byte `m` from sub-quantiser `m` (R153). -/
def kv5Code (cents : List F32) (M d : Nat) (x : List F32) : Nat :=
  ((chunks (d / M) M x).zip (centroids cents M d)).zipIdx.foldl
    (fun acc p => acc + argMin (p.1.2.map (subDist p.1.1)) * 256 ^ p.2) 0

/-! ### Re-rank copies (R58, R59) -/

/-- The stride P of re-rank copies (R58). -/
def copyStride (fmt g d : Nat) : Nat :=
  let z := if isIntG fmt then 2 else if isGrouped fmt then 1 else 0
  roundUp (16 + d * fmtWidth fmt / 8 + (d / g) * z) 16

/-- The bytes of a re-rank copy (R58). -/
def copyBytes (vid stored g d : Nat) (v : QVec) (row : Option Nat) : List Byte :=
  fit (copyStride v.fmt g d) (leBytes 6 vid ++ leBytes 1 stored ++ leBytes 1 v.side.length ++
    leBytes 4 v.scale.toNat ++ leBytes 4 (row.getD 0xFFFFFFFF) ++
    packCodes (fmtWidth v.fmt) v.codes ++ v.gs.map (BitVec.ofNat 8) ++
    v.zp.map fun z => byteOfInt (z - (if v.fmt == 2 then 128 else 8)))

/-- The vector that the bytes of a copy and of its side row hold (R58, R59); a SIDE_COUNT above 8 is no
count of R58 and is read as 0 (DESIGN CHOICE, log 121). -/
def copyOf (fmt g d : Nat) (bs side : List Byte) : QVec :=
  let cb := d * fmtWidth fmt / 8
  let codes := unpackCodes (fmtWidth fmt) ((bs.drop 16).take cb)
  let n := if 8 < byteAt bs 7 then 0 else byteAt bs 7
  if isGrouped fmt then
    { fmt := fmt, g := g, scale := BitVec.ofNat 32 (getLE bs 8 4), codes := codes
      gs := ((bs.drop (16 + cb)).take (d / g)).map (·.toNat)
      zp := if isIntG fmt then ((bs.drop (16 + cb + d / g)).take (d / g)).map fun b =>
          signedByte b.toNat + (if fmt == 2 then 128 else 8) else []
      side := if isIntG fmt then sideEntries (side.take (4 * n)) n else [] }
  else { fmt := fmt, g := g, scale := one32, codes := codes.take d }

/-- A side-list table row of 32 bytes (R59). -/
def sideRowBytes (v : QVec) : List Byte :=
  fit 32 (v.side.flatMap fun p => leBytes 2 p.1 ++ leBytes 2 p.2)

end Sys2Proof.Machine
end

