-- ==== Sys2Proof/Machine/Geometry.lean ====
section
/-!
DEFINITION. The layout of a collection by its descriptor: its geometry, its striping, the bytes of its
objects, and its ID map (R35 to R68).
-/

namespace Sys2Proof.Machine

/-! ### Geometry (R36, R43, R56, R58, R63, R67, R68), from a collection descriptor -/

def dKv5 (d : List Byte) : Bool := bit (byteAt d 13) 0
/-- M, the sub-quantisers of a code (R67). -/
def dSubs (d : List Byte) : Nat := [8, 16, 32].getD (byteAt d 5) 8
/-- S, the sketch width in bits (R36, R68). -/
def dSketch (d : List Byte) : Nat :=
  if dKv5 d then (if byteAt d 5 == 2 then 256 else 128) else 128 * 2 ^ byteAt d 5
def dBlock (d : List Byte) : Nat := if byteAt d 6 == 0 then 1024 else 2048
def dDegree (d : List Byte) : Nat := byteAt d 7
def dDim (d : List Byte) : Nat := getLE d 8 2
/-- The format code of R193 of the stored copies. -/
def dFormat (d : List Byte) : Nat := storedFmt (byteAt d 10)
def dGroup (d : List Byte) : Nat := groupOf (byteAt d 11)
def dKind (d : List Byte) : Nat := byteAt d 12
def dFallback (d : List Byte) : Nat := byteAt d 14
def dHome (d : List Byte) : Nat := byteAt d 15
def dMax (d : List Byte) : Nat := getLE d 16 8
def dProj (d : List Byte) : Nat := getLE d 24 8
def dScaffold (d : List Byte) : Nat := getLE d 32 8
def dIdMap (d : List Byte) : Nat := getLE d 40 8
def dKey (d : List Byte) : Nat := getLE d 48 4
/-- Bytes of a sketch or code in a Wall entry (R41, R68). -/
def dCode (d : List Byte) : Nat := if dKv5 d then dSubs d else dSketch d / 8
/-- E, the bytes of a Wall entry (R43, R68). -/
def dEntry (d : List Byte) : Nat := dCode d + 8
/-- Direct mode (R43). -/
def dDirect (d : List Byte) : Bool := decide (24 + dDegree d * (dEntry d + 8) ≤ dBlock d)
/-- P, the stride of re-rank copies (R58). -/
def dStride (d : List Byte) : Nat := copyStride (dFormat d) (dGroup d) (dDim d)
/-- T, the stride of Scaffold records (R56). -/
def dScafStride (d : List Byte) : Nat := roundUp (16 + dSketch d / 8 + 64) 32
/-- Scaffold records that the area holds (R57). -/
def dScafRecs (d : List Byte) : Nat := ceilDiv (dMax d) 32
/-- C, the entries of the ID map (R63). -/
def dIdEntries (d : List Byte) : Nat := ceilDiv (4 * dMax d) 3
/-- Bytes of a Brick's Wall extent (R54). -/
def dExtent (d : List Byte) : Nat := ceilDiv (dMax d) 64 * dBlock d

/-! ### Striping (R53, R55) -/

/-- The Brick of a slot's block. -/
def brickOf (slot : Nat) : Nat := (slot % 64 + mix (slot / 64) % 64) % 64
/-- The Brick-local index of a slot's block. -/
def blockIndex (slot : Nat) : Nat := slot / 64
/-- A Scaffold member (R55). -/
def scafMember (slot : Nat) : Bool := bits (mix slot) 11 6 == 0

/-! ### Byte layouts -/

/-- Insertion into counts of attribute words. -/
def countWord (w : Nat) : List (Nat × Nat) → List (Nat × Nat)
  | [] => [(w, 1)]
  | (x, n) :: xs => if x == w then (x, n + 1) :: xs else (x, n) :: countWord w xs

/-- The dictionary of a block (R49): at most 13 words, by descending count and ascending value. -/
def dictionary (es : List BEntry) : List Nat :=
  let counts := es.foldl (fun l e => match e.attr with
    | some a => countWord a.toNat l
    | none => l) []
  ((sortBy (fun a b => decide (b.2 < a.2) || (a.2 == b.2 && decide (a.1 < b.1))) counts).map
    (·.1)).take 13

/-- Entries with the words that a dictionary does not keep taken out (R49). -/
def placeAttrs (direct : Bool) (es : List BEntry) : List BEntry :=
  if direct then es
  else
    let dict := dictionary es
    es.map fun e => { e with
    attr := e.attr.bind fun a =>
      if dict.contains a.toNat then some a else none }

/-- The order of R47. -/
def entryLt (a b : BEntry) : Bool :=
  decide (a.dist < b.dist) || (a.dist == b.dist && decide (a.slot < b.slot))

/-- The bytes of a Wall block (R44 to R49). -/
def blockBytes (d : List Byte) (b : Block) : List Byte :=
  let direct := dDirect d
  let dict := if direct then [] else dictionary b.entries
  let entry := fun (e : BEntry) =>
    let ix := if direct then 0 else match e.attr with
      | some a => (dict.findIdx? (· == a.toNat)).getD 15
      | none => 15
    leBytes (dCode d) e.sketch ++ leBytes 6 e.slot ++
      leBytes 2 (ix * 4096 + b2n e.back * 2048 + (if dKv5 d then 0 else e.dist))
  let es := b.entries.flatMap entry
  let words := if direct then
      fit (8 * dDegree d) (b.entries.flatMap fun e => leBytes 8 ((e.attr.map (·.toNat)).getD 0))
    else fit 104 (dict.flatMap (leBytes 8))
  let at' := if direct then dBlock d - 24 - 8 * dDegree d else dBlock d - 128
  let body := fit at' es ++ words ++
    [1, BitVec.ofNat 8 b.entries.length,
     BitVec.ofNat 8 (if direct then 0 else 128 + dict.length), BitVec.ofNat 8 (b2n (scafMember b.slot))] ++
    leBytes 6 b.slot ++ [BitVec.ofNat 8 (byteAt d 4), 0] ++ leBytes 8 b.own.toNat
  body ++ leBytes 4 (crc32c body)

/-- The bytes of a Scaffold record (R56). -/
def scafBytes (d : List Byte) (r : ScafRec) : List Byte :=
  fit (dScafStride d) (leBytes 6 r.slot ++ [BitVec.ofNat 8 r.nbrs.length] ++ zeros 9 ++
    fit (dSketch d / 8) (leBytes (dCode d) r.sketch) ++
    (r.nbrs ++ List.replicate (16 - r.nbrs.length) 0xFFFFFFFF).flatMap (leBytes 4))

/-- The bytes of a segment header (R61). -/
def segBytes (d : List Byte) (g : Segment) : List Byte :=
  let body := header 64 ++ [BitVec.ofNat 8 (byteAt d 4), BitVec.ofNat 8 (b2n (dKv5 d))] ++
    leBytes 2 g.num ++ leBytes 4 g.slotsUsed ++ leBytes 4 g.live ++ leBytes 8 g.creation ++
    leBytes 8 g.rerank ++ leBytes 8 g.side ++ leBytes 4 g.sideRows ++ zeros 16
  body ++ leBytes 4 (crc32c body)

/-! ### The ID map (R63, R64) -/

/-- h(v) of R64. -/
def idHome (C v : Nat) : Nat := mix (v + 2 ^ 49) % C

/-- The occupied entry of an index. -/
def idAt (m : List (Nat × Nat × Nat)) (i : Nat) : Option (Nat × Nat) :=
  (m.find? (·.1 == i)).map (·.2)

/-- `find` of R64: the entry index. -/
def idFind (C : Nat) (m : List (Nat × Nat × Nat)) (v : Nat) : Nat → Nat → Option Nat
  | 0, _ => none
  | f + 1, i =>
    match idAt m i with
    | none => none
    | some e => if e.1 == v then some i else idFind C m v f ((i + 1) % C)

/-- An entry of the ID map as its bytes in memory have it: vector ID and slot. -/
def idEntryAt (m : Mem) (d : List Byte) (i : Nat) : Nat × Nat :=
  (readLE m (dIdMap d + 16 * i) 6, readLE m (dIdMap d + 16 * i + 6) 6 % 2 ^ 36)

/-- `find` of R64 over the bytes of the ID map: the entries that it reads, and the slot it gives. -/
def idProbe (m : Mem) (d : List Byte) (v : Nat) : Nat → Nat → List Nat × Option Nat
  | 0, _ => ([], none)
  | f + 1, i =>
    let e := idEntryAt m d i
    if e.1 == 2 ^ 48 - 1 then ([i], none)
    else if e.1 == v then ([i], some e.2)
    else
      let x := idProbe m d v f ((i + 1) % dIdEntries d)
      (i :: x.1, x.2)

/-- The slot that the ID map gives for a vector ID. -/
def idLookup (c : Coll) (v : Nat) : Option Nat :=
  let C := dIdEntries c.desc
  (idFind C c.idMap v (c.idMap.length + 1) (idHome C v)).bind fun i => (idAt c.idMap i).map (·.2)

/-- The first empty entry from `i` on. -/
def idEmpty (C : Nat) (m : List (Nat × Nat × Nat)) : Nat → Nat → Nat
  | 0, i => i
  | f + 1, i => if (idAt m i).isNone then i else idEmpty C m f ((i + 1) % C)

/-- `add` of R64. -/
def idAdd (C : Nat) (m : List (Nat × Nat × Nat)) (v s : Nat) : List (Nat × Nat × Nat) :=
  m ++ [(idEmpty C m m.length (idHome C v), v, s)]

/-- `change` of R64. -/
def idChange (m : List (Nat × Nat × Nat)) (v s : Nat) : List (Nat × Nat × Nat) :=
  m.map fun e => if e.2.1 == v then (e.1, v, s) else e

/-- The backward shift of R64, from the emptied entry `i` over the run at `j`. -/
def idShift (C : Nat) : Nat → Nat → Nat → List (Nat × Nat × Nat) → List (Nat × Nat × Nat)
  | 0, _, _, m => m
  | f + 1, i, j, m =>
    match idAt m j with
    | none => m
    | some e =>
      let k := idHome C e.1
      let dist := fun a b => (b + C - a) % C
      if dist i j ≤ dist k j then
        idShift C f j ((j + 1) % C) ((m.filter (·.1 != j)) ++ [(i, e.1, e.2)])
      else idShift C f i ((j + 1) % C) m

/-- `remove` of R64. -/
def idRemove (C : Nat) (m : List (Nat × Nat × Nat)) (v : Nat) : List (Nat × Nat × Nat) :=
  match m.find? (·.2.1 == v) with
  | none => m
  | some e => idShift C m.length e.1 ((e.1 + 1) % C) (m.filter (·.1 != e.1))

/-- The bytes of one entry. -/
def idEntryBytes : Option (Nat × Nat) → List Byte
  | some e => leBytes 6 e.1 ++ leBytes 6 e.2 ++ zeros 4
  | none => leBytes 6 0xFFFFFFFFFFFF ++ zeros 10

end Sys2Proof.Machine
end

