-- ==== Sys2Proof/Machine/Retire.lean ====
section
/-!
DEFINITION. The release epoch, and what happens as it rises: slots become FREE, and entries of the
change table go into the slot state maps (R145, R147, R148, R166).
-/

namespace Sys2Proof.Machine

/-! ### Collections and the release epoch -/

def findColl (s : State) (id : Nat) : Option Coll := s.index.colls.find? (·.id == id)

def updColl (s : State) (id : Nat) (f : Coll → Coll) : State :=
  { s with index := { s.index with colls := mapIf (·.id == id) f s.index.colls } }

def findSlot (c : Coll) (n : Nat) : Option Slot := c.slots.find? (·.num == n)
def findBlock (c : Coll) (n : Nat) : Option Block := c.blocks.find? (·.slot == n)
def findSeg (c : Coll) (n : Nat) : Option Segment := c.segments.find? (·.num == n)
/-- The slots of a segment. -/
def segSlots : Nat := 2 ^ 24

/-- The release epoch: the floor, or the lowest epoch that a running command pins (R145). -/
def release (s : State) : Nat :=
  let l := (s.sched.cmds.filterMap (·.pin)).foldl min s.epochs.floor
  s.mortar.fans.foldl (fun m f => min m f.epoch) l

/-- The entry of a slot in the change table. -/
def changeOf (s : State) (coll slot : Nat) : Option Change :=
  s.index.changes.find? fun e => e.coll == coll && e.slot == slot

/-- The state-map code of a slot (R147): 0 FREE, 1 LIVE, 2 DELETED, 3 PENDING. -/
def codeOf (c : Coll) (slot : Nat) : Nat := ((c.codes.find? (·.1 == slot)).map (·.2)).getD 0

/-- A finite epoch at or below `e`. -/
def upTo (x : Option Nat) (e : Nat) : Bool := x.elim false fun v => decide (v ≤ e)

/-! ### The slot state map (R147) -/

/-- One bit of a byte. -/
def withBit (b : Byte) (i : Nat) (v : Bool) : Byte :=
  if v then b ||| BitVec.ofNat 8 (2 ^ i) else b &&& ~~~BitVec.ofNat 8 (2 ^ i)

/-- The state-map byte of a slot (R147) with its code in place. -/
def writeCode (s : State) (c : Coll) (slot code : Nat) : State :=
  match findSeg c (slot / segSlots) with
  | none => s
  | some g =>
    let a := g.side + 192 * 2 ^ 20 + slot % segSlots / 4
    let m := slot % 4
    let b := readByte s.mem a
    deviceWrite s none a [withBit (withBit b (2 * m) (bit code 0)) (2 * m + 1) (bit code 1)]

/-- The codes of a collection with one slot's code set; FREE leaves it out. -/
def setCode (codes : List (Nat × Nat)) (slot code : Nat) : List (Nat × Nat) :=
  let rest := codes.filter (·.1 != slot)
  if code == 0 then rest else insertBy (fun a b => decide (a.1 < b.1)) (slot, code) rest

/-- A slot's code in the state map, in its collection and in memory. -/
def putCode (s : State) (coll slot code : Nat) : State :=
  match findColl s coll with
  | none => s
  | some c => writeCode (updColl s coll fun c => { c with codes := setCode c.codes slot code }) c
      slot code

/-! ### Freeing slots and retiring change-table entries (R148, R166) -/

/-- A slot becomes FREE: its Scaffold record and its index in other records, its block, and the
patches whose target it is, are gone. -/
def freeSlot (s : State) (coll slot : Nat) : State :=
  match findColl s coll with
  | none => s
  | some c =>
    let mine := (c.scaffold.find? (·.slot == slot)).map (·.idx)
    let drop := fun (r : ScafRec) => { r with nbrs := r.nbrs.filter fun i => mine != some i }
    let kept := (c.scaffold.filter (·.slot != slot)).map drop
    let changed := (c.scaffold.filter fun r => r.slot != slot && drop r != r).map drop
    let s1 := updColl s coll fun c => { c with
      slots := c.slots.filter (·.num != slot)
      blocks := c.blocks.filter (·.slot != slot)
      scaffold := kept }
    let s2 := { s1 with
      index := { s1.index with
      patches := s1.index.patches.filter fun p =>
        !(p.coll == coll && p.target == slot) } }
    let s3 := changed.foldl (fun s r =>
      deviceWrite s none (dScaffold c.desc + r.idx * dScafStride c.desc) (scafBytes c.desc r)) s2
    let s4 := match mine with
      | some i => deviceWrite s3 none (dScaffold c.desc + i * dScafStride c.desc)
          (zeros (dScafStride c.desc))
      | none => s3
    putCode s4 coll slot 0

/-- Every finite epoch of an entry lies at or below `r`. -/
def passed (r : Nat) (e : Change) : Bool :=
  decide (e.ins ≤ r) && (e.del.isNone || upTo e.del r) && (e.rep.isNone || upTo e.rep r)

/-- The entries that the release epoch has passed are written to the state maps and removed. -/
def retire (s : State) : State :=
  let r := release s
  let s1 := (s.index.changes.filter (passed r)).foldl (fun s e =>
    if e.rep.isSome then freeSlot s e.coll e.slot
    else putCode s e.coll e.slot (if e.del.isSome then 2 else 1)) s
  { s1 with index := { s1.index with changes := s1.index.changes.filter fun e => !passed r e } }

end Sys2Proof.Machine
end

