-- ==== Sys2Proof/Machine/Complete.lean ====
section
/-!
DEFINITION. How commands complete: completions, result slots, errors and freezing (R357 to R371); and
what an access to a unit meets: tier faults and data outside the module (R281 to R289).
-/

namespace Sys2Proof.Machine

/-! ### Completions (R357 to R362) -/

/-- The 32 bytes of a completion entry (R357). -/
def completionBytes (c : Completion) (head : Nat) (phase : Bool) : List Byte :=
  leBytes 2 c.tag ++ leBytes 2 c.sq ++ leBytes 2 head ++ leBytes 1 c.status ++
  leBytes 1 (c.flags + b2n phase) ++ header 32 ++ leBytes 4 c.info32 ++ leBytes 8 c.infoA ++
  leBytes 8 c.infoB

/-- Whether a completion can be posted now: the queue has room (R358). -/
def cqRoom (q : ComplQ) : Bool := (q.tail + 1) % q.depth != q.head

/-- Messages that an interrupt adds: the queue's count or an error raises it (R362, R347). -/
def cqRaises (q : ComplQ) (err : Bool) : Bool :=
  q.vector.isSome && (err || decide (max q.coCount 1 ≤ q.since + 1))

/-- The length that a command gives its sequence as its completion is posted (R237). -/
def growSeq (s : State) (cmd : Nat) : List KvSeq :=
  match (findCmd s cmd).bind (·.grow) with
  | some (q, n) => mapIf (fun x => x.id == q) (fun x => { x with len := n }) s.kv.seqs
  | none => s.kv.seqs

/-- What a completion writes and raises: its entry, behind the slots of its command, and behind the
entry its interrupt (R358, R362, R364, R430). -/
def completionItems (s : State) (q : ComplQ) (c : Completion) : List Out :=
  let a := q.base + 32 * q.tail
  let bs := completionBytes c (((findSq s c.sq).map (·.head)).getD 0) q.phase
  (agentItems 1 a bs true).map (fun i => { key := (false, c.cmd), barrier := true, item := i }) ++
  (if cqRaises q (isError c.status) then
    [{ key := (false, c.cmd), barrier := true, item := .intr (q.vector.getD 0)
       after := linesOf a 32 }] else [])

/-- A REPAIR or COMPACT that ends holds its collection or segment no more (R165, R178). -/
def dropClaims (cmd : Nat) (k : Coll) : Coll :=
  { k with
    repairing := if k.repairing == some cmd then none else k.repairing
    segments := mapIf (fun g => g.compacting == some cmd) (fun g => { g with compacting := none })
      k.segments }

/-- Where the command that ends was pinned, the release epoch may have risen (R145, R148, R166). -/
def unpinned (s : State) (pin : Option Nat) : State := if pin.isSome then retire s else s

/-- One completion written at the tail (R358): its command is no longer in flight. -/
def writeCompletion (s : State) (q : ComplQ) (c : Completion) : State :=
  let raise := cqRaises q (isError c.status)
  let tail := (q.tail + 1) % q.depth
  emit (unpinned { s with
    sched := { s.sched with
      cqs := mapIf (·.id == q.id) (fun x => { x with
        tail := tail
        phase := if tail == 0 then !x.phase else x.phase
        since := if raise then 0 else x.since + 1
        firstAt := if raise then none else some (x.firstAt.getD (now s)) }) s.sched.cqs
      cmds := s.sched.cmds.filter (·.id != c.cmd) }
    kv := { s.kv with seqs := growSeq s c.cmd }
    index := { s.index with
      locks := s.index.locks.filter (·.cmd != c.cmd)
      colls := s.index.colls.map (dropClaims c.cmd) }
    tiers := { s.tiers with
      migrations := s.tiers.migrations.filter (·.cmd != c.cmd)
      faults := s.tiers.faults.map fun f =>
        { f with waiters := f.waiters.filter fun w => w.who != .cmd c.cmd } } }
    ((findCmd s c.cmd).bind (·.pin))) (completionItems s q c)

/-- A completion posted, or held in order behind its full queue with its command in flight
(R358); it first waits for the responses to the writes that its command has sent (R422, R454). -/
def post1 (s : State) (c : Completion) : State :=
  match findSq s c.sq with
  | none => { s with sched := { s.sched with cmds := s.sched.cmds.filter (·.id != c.cmd) } }
  | some sq =>
    match findCq s sq.cq with
    | none => { s with sched := { s.sched with cmds := s.sched.cmds.filter (·.id != c.cmd) } }
    | some q =>
      if writesOut s (.cmd c.cmd) then setPhase s c.cmd (.writing c)
      else if q.held.isEmpty && cqRoom q then writeCompletion s q c
      else
        let s1 := updCq s q.id fun x => { x with held := x.held ++ [c] }
        setPhase s1 c.cmd .held

/-- The submission queues being deleted whose last command has completed are removed, and their
QUEUE_DELETE completes (R373). -/
def settleDelete (s : State) (q : SubQ) : State :=
  match q.deletedBy with
  | none => s
  | some d =>
    if s.sched.cmds.any (·.sq == q.id) then s
    else
      let s1 := { s with sched := { s.sched with sqs := s.sched.sqs.filter (·.id != q.id) } }
      match findCmd s d with
      | none => s1
      | some c => post1 s1 {
          cmd := d, sq := c.sq, tag := entTag c, status := 0, flags := 0,
          info32 := 0, infoA := 0, infoB := 0 }

def settleDeletes (s : State) : State := s.sched.sqs.foldl settleDelete s

/-- One completion, then the deletions it lets finish. -/
def post (s : State) (c : Completion) : State := settleDeletes (post1 s c)

/-- Programs of pages that a command moves to Bulk are not yet in NAND (R263). -/
def movesOut (s : State) (cmd : Nat) : Bool :=
  s.bricks.any fun b => b.programs.any fun p => p.cmd == some cmd && p.bytes == 0

/-- A completion that waited for the responses to its command's writes, or for the pages that it moves to
Bulk, is posted once they are in (R263, R422, R454). -/
def settleWriting (s : State) (cmd : Nat) : State :=
  match findCmd s cmd with
  | none => s
  | some c =>
    match c.phase with
    | .writing x => if writesOut s (.cmd cmd) || movesOut s cmd then s else post s x
    | _ => s

/-- Held completions of a queue posted in order while it has room (R358). -/
def flushHeld : Nat → Nat → State → State
  | 0, _, s => s
  | n + 1, q, s =>
    match findCq s q with
    | none => s
    | some cq =>
      match cq.held with
      | [] => s
      | c :: cs =>
        if cqRoom cq then
          flushHeld n q (writeCompletion (updCq s q fun x => { x with held := cs })
            { cq with held := cs } c)
        else s

/-- Every held completion that can be posted. -/
def flushAllHeld (s : State) : State :=
  settleDeletes (s.sched.cqs.foldl (fun s q => flushHeld q.held.length q.id s) s)

/-! ### Result slots (R363 to R366) -/

/-- The bytes of a result header (R363). -/
def slotHeader (st status payload seq hops : Nat) : List Byte :=
  [0, 1] ++ leBytes 1 st ++ leBytes 1 status ++ leBytes 4 payload ++ leBytes 4 seq ++
  leBytes 4 hops

/-- Bytes written by the result-slot agent (R423) on behalf of a command. -/
def slotWrite (s : State) (id a : Nat) (bs : List Byte) : State :=
  emit s ((agentItems 2 a bs false).map fun i =>
    { key := (false, id), barrier := false, item := i })

/-- Step 1 of R364: BUSY, SEQUENCE one above the value found, the other header bytes as found. -/
def slotBusy (s : State) (id a : Nat) : State :=
  let seq := (readLE s.mem (a + 8) 4 + 1) % 2 ^ 32
  let bs := [0, 1, 1] ++ readBytes s.mem (a + 3) 5 ++ leBytes 4 seq ++ readBytes s.mem (a + 12) 4
  updCmd (slotWrite s id a bs) id fun c => { c with slots := c.slots ++ [(a, seq)] }

/-- Steps 2 and 3 of R364: the payload, then the header with READY, which waits for every payload line
to be in M or written back (R425). -/
def slotPut (s : State) (id a status : Nat) (payload : List Byte) (hops : Nat) : State :=
  let seq := (((findCmd s id).bind fun c => c.slots.find? (·.1 == a)).map (·.2)).getD 0
  let s1 := slotWrite s id (a + 16) payload
  let s2 := emit s1 ((agentItems 2 a (slotHeader 2 status payload.length seq hops) true).map fun i =>
    { key := (false, id), barrier := true, item := i, after := linesOf (a + 16) payload.length })
  updCmd s2 id fun c => { c with slots := c.slots.filter (·.1 != a) }

/-- Every slot of a failing command READY with its error and no payload (R364). -/
def failSlots (s : State) (c : Cmd) (status : Nat) : State :=
  c.slots.foldl (fun s p => slotPut s c.id p.1 status [] 0xFFFFFFFF) s

/-! ### Completing a command (R370, R371) -/

/-- Bytes of a command error record (R371). -/
def errBytes (r : ErrRec) : List Byte :=
  header 192 ++ leBytes 2 r.sq ++ leBytes 2 r.tag ++ leBytes 1 r.status ++
  leBytes 1 (b2n r.froze + 2 * b2n r.retryCopy) ++ leBytes 2 r.heldCount ++ zeros 4 ++
  leBytes 8 r.time ++ leBytes 8 r.number ++ leBytes 4 r.info32 ++ leBytes 8 r.infoA ++
  leBytes 8 r.infoB ++ zeros 12 ++ fit 128 r.entry

/-- Steps 1 and 2 of R370: the record written, and the queue frozen with its copy (R372). -/
def recordError (s : State) (c : Cmd) (e : Err) : State :=
  let frozen := ((findSq s c.sq).map (·.frozen)).getD true
  let undis := (s.sched.cmds.filter fun x => x.sq == c.sq && x.phase == .fetched && x.id != c.id)
  let r : ErrRec := {
    number := s.sched.errNext, sq := c.sq, tag := entTag c, status := e.status,
    froze := !frozen, retryCopy := c.retry, heldCount := if frozen then 0 else undis.length,
    time := now s, info32 := e.info32, infoA := e.a, infoB := e.b, entry := c.entry }
  let log := s.sched.errLog ++ [r]
  { s with
      sched := { s.sched with
      errLog := log.drop (log.length - 4096)
      errNext := s.sched.errNext + 1
      sqs := mapIf (fun q => q.id == c.sq && !q.frozen)
        (fun q => { q with frozen := true, kept := some c.entry }) s.sched.sqs } }

/-- The completion of a command. -/
def completionOf (c : Cmd) (status flags info32 a b : Nat) : Completion :=
  { cmd := c.id, sq := c.sq, tag := entTag c, status := status, flags := flags, info32 := info32,
    infoA := a, infoB := b }

/-- Step 4 of R370, and step 2 of R373: every fetched and undispatched command of a queue completes
with a queue status, in fetch order. -/
def endFetched (s : State) (q status : Nat) : State :=
  (s.sched.cmds.filter fun x => x.sq == q && x.phase == .fetched).foldl
    (fun s c => post s (completionOf c status 0 0 0 0)) s

/-- A command is in flight and has not come to its completion. -/
def stillRuns (s : State) (id : Nat) : Bool :=
  match findCmd s id with
  | none => false
  | some c =>
    match c.phase with
    | .sealing _ => false
    | .writing _ => false
    | .held => false
    | _ => true

/-- A command completes without an error. -/
def succeed (s : State) (c : Cmd) (status flags info32 a b : Nat) : State :=
  if stillRuns s c.id then post s (completionOf c status flags info32 a b) else s

/-- A command completes with an error (R364, R370): slots, record, freeze, completion, and the
fetched commands of the queue. -/
def fail (s : State) (c : Cmd) (e : Err) : State :=
  if !stillRuns s c.id then s
  else
    let wasFrozen := ((findSq s c.sq).map (·.frozen)).getD true
    let s1 := recordError (failSlots s ((findCmd s c.id).getD c) e.status) c e
    let s2 := post s1 (completionOf c e.status 0 e.info32 e.a e.b)
    if wasFrozen then s2 else endFetched s2 c.sq 0x60

/-- A result put in its slot (R364). With Uzone DOWN a slot in the companion window ends its command with
LINK_DOWN (R432). -/
def slotReady (s : State) (id a status : Nat) (payload : List Byte) (hops : Nat) : State :=
  if windowOf a == some 1 && uzoneDown s && !isError status then
    match findCmd s id with
    | some c => fail s c { status := 0x40 }
    | none => s
  else slotPut s id a status payload hops

/-! ### Access to units (R281 to R289) -/

/-- What touching a unit brings. -/
inductive Reach where
  | ok
  | fault (cause : Nat)
  | ends (status : Nat)
  | moving
  | off
  | host
  | far (link : Nat)
  | peer (n : Nat)
  deriving DecidableEq, Repr

/-- Whether a home serves an access kind in place (R281). -/
def inPlace (kind : Nat) : Home → Bool
  | .stack _ => true
  | .tile => kind == 0 || kind == 3
  | .bulk => kind == 1 || kind == 3
  | .companion _ => kind != 0
  | .cxl _ => kind != 0
  | .neighbour _ => kind != 0
  | .vacant => false

/-- Backing of a home (R272, R282). -/
def backing (s : State) : Home → Reach
  | .companion a =>
    if s.uzone.exposed ≤ a then .fault 4 else if uzoneDown s then .ends 0x40 else .host
  | .cxl o =>
    match cxlLink s.tiers.xfBytes 0 o with
    | none => .fault 4
    | some (l, x) =>
      if !s.tiers.xfUp.getD l false then .ends 0x40
      else if s.tiers.xfCap.getD l 0 ≤ x then .fault 4
      else .far l
  | .neighbour a =>
    let n := (a - neighbourBase) / 2 ^ 38
    if n == fabNum s then .fault 4
    else if s.mortar.lost.contains n || !reachable s n then .ends 0x41
    else .peer n
  | _ => .ok

/-- A home on the stack of a course that is off (R32). -/
def homeOff (s : State) : Home → Bool
  | .stack a => !s.power.domains.getLsbD (4 + a / stackBytes % 8)
  | _ => false

/-- The course of a unit's stack home is off (R32). -/
def courseOff (s : State) (u : Nat) : Bool := homeOff s (homeOf s u)

/-- Touching one unit (R282): `seen` once its companion, far or neighbour data have come. -/
def reachUnit (s : State) (seen : Bool) (kind : Nat) (write : Bool) (u : Nat) : Reach :=
  let h := homeOf s u
  if faultOn s u then .fault 2
  else if h == .vacant then .fault 1
  else if !inPlace kind h then .fault 3
  else if homeOff s h then .off
  else
    match backing s h with
    | .fault c => .fault c
    | .ends st => .ends st
    | r => if r != .ok && !seen && !write then r
        else if write && movingUnit s u then .moving else .ok

/-- A poisoned line in a range that is read (R553). -/
def poisonedIn (s : State) (r : Range) : Bool :=
  !r.write && s.hw.poisoned.any fun l => decide (l < r.addr + r.len) && decide (r.addr < l + 64)

/-- Touching the part of a range that lies in a unit. -/
def reachPart (s : State) (loaded : List Nat) (r : Range) (u : Nat) : Reach :=
  reachUnit s (loaded.contains (partKey r u)) r.kind r.write u

/-- The first thing that stands in the way of a list of ranges, in order, with its unit and its
range. -/
def reachRanges (s : State) (loaded : List Nat) : List Range → Option (Nat × Range × Reach)
  | [] => none
  | r :: rs =>
    match (unitsOf r).find? (fun u => reachPart s loaded r u != .ok) with
    | some u => some (u, r, reachPart s loaded r u)
    | none => if poisonedIn s r then some (unitOf r.addr, r, .ends 0x32)
      else reachRanges s loaded rs

/-- Bytes of a fault record (R289). -/
def faultBytes (f : TierFault) (phase : Bool) : List Byte :=
  header 32 ++ leBytes 1 f.cause ++ leBytes 1 f.access ++ leBytes 1 f.stop ++ leBytes 1 (b2n phase) ++
  leBytes 8 f.unit ++ leBytes 8 f.opened ++ leBytes 4 f.number ++ zeros 4

/-- The fault ring has room (R287). -/
def ringRoom (s : State) : Bool := (s.tiers.tail + 1) % 4096 != s.tiers.head

/-- One fault's record posted at TAIL by the completion queue agent, with its interrupt behind it
(R286, R423, R430). -/
def postFault (s : State) (unit : Nat) : State :=
  match s.tiers.faults.find? (fun f => f.unit == unit) with
  | none => s
  | some f =>
    let a := s.tiers.queueBase.toNat / 4096 * 4096 + 32 * s.tiers.tail.toNat
    let tail := s.tiers.tail + 1
    emit { s with
      tiers := { s.tiers with
        tail := tail
        phase := if tail == 0 then !s.tiers.phase else s.tiers.phase
        faults := mapIf (fun x => x.unit == unit) (fun x => { x with posted := true })
          s.tiers.faults } }
      ((agentItems 1 a (faultBytes f s.tiers.phase) true).map (fun i =>
        { key := (true, f.number), barrier := true, item := i }) ++
      [{ key := (true, f.number), barrier := true, item := .intr 4032, after := linesOf a 32 }])

/-- Records held for room posted in the order in which their faults opened (R287). -/
def postFaults (s : State) : State :=
  s.tiers.faults.foldl (fun s f => if !f.posted && ringRoom s then postFault s f.unit else s) s

/-- The ACCESS byte of a fault record (R289). -/
def accessCode (r : Range) : Nat := r.kind * 2 + b2n r.write

/-- One more waiter of a fault, unless it waits there already. -/
def addWaiter (w : Option Waiter) (f : TierFault) : TierFault :=
  { f with waiters := f.waiters ++ w.toList.filter fun x => !f.waiters.any fun y => y.who == x.who }

/-- A fault opened for a unit, or one more waiter of the fault that is open (R283, R287). -/
def openFault (s : State) (who : Option Who) (u cause : Nat) (r : Range) (stop : Nat) : State :=
  let known := s.tiers.faults.any (fun f => f.unit == u)
  let w := who.map fun x => ({ who := x, access := accessCode r } : Waiter)
  let number := (s.tiers.faultNumber + 1) % 2 ^ 32
  let f : TierFault := {
    unit := u, cause := cause, access := accessCode r, stop := stop
    opened := now s, number := number, posted := false, waiters := w.toList }
  postFaults { s with
      tiers := { s.tiers with
      faultNumber := if known then s.tiers.faultNumber else number
      faults := if known then mapIf (fun f => f.unit == u) (addWaiter w) s.tiers.faults
        else s.tiers.faults ++ [f] } }

/-- The ring stop of a course's engines (R19): courses 0 to 3 at stops 1 to 4, 4 to 7 at stops 6 to 9;
stop 0 is Uzone, 5 the Slab and the scheduler, 10 Mortar, 11 the memory expanders. -/
def courseStop (c : Nat) : Nat := if c < 4 then c + 1 else c + 2

/-- A write for a command. -/
def cmdWrite (s : State) (cmd a : Nat) (bs : List Byte) : State := deviceWrite s (some (.cmd cmd)) a bs

/-- The reads of companion memory that a part of a range brings, as RD_NC tied to their owner
(R419, R422). -/
def hostReads (s : State) (owner : Owner) (r : Range) (u : Nat) : List Msg :=
  match homeOf s u with
  | .companion p =>
    let a := p + (rangePart r u).1 % unitBytes
    let n := (a + (rangePart r u).2 - 1) / 64 - a / 64 + 1
    rdPieces owner n (a / 64 * 64) n
  | _ => []

/-- Reads of a neighbour's memory, in requests of at most 64 KiB (R454). -/
def peerReads (s : State) (n : Nat) (owner : Owner) (u o : Nat) : Nat → Nat → State
  | 0, _ => s
  | f + 1, len =>
    if len == 0 then s
    else peerReads (mortarRequest s 1 n (some owner) u o (leBytes 4 (min len 65536))) n owner u
      (o + 65536) f (len - 65536)

/-- The bytes of a part of a range asked for from the home of its unit, for an owner. -/
def askPart (s : State) (owner : Owner) (r : Range) (u : Nat) : Reach → State
  | .host => { s with uzone := uzSend s.uzone (hostReads s owner r u) }
  | .peer n =>
    let o := match homeOf s u with
      | .neighbour p => (p + (rangePart r u).1 % unitBytes) % 2 ^ 38
      | _ => 0
    peerReads s n owner u o ((rangePart r u).2 / 65536 + 1) (rangePart r u).2
  | _ => s

/-- What a command does when a unit stands in its way: it ends, or it waits, having opened a fault
or asked for the far or neighbour data (R282, R283, R288, R294, R454). -/
def blockOn (s : State) (c : Cmd) (u : Nat) (r : Range) (stop : Nat) (x : Reach) : State :=
  let wait := fun (w : Wait) => askPart (updCmd s c.id fun k => { k with
    phase := .waiting w, loaded := k.loaded ++ [partKey r u] }) (.cmd c.id) r u x
  match x with
  | .ok => s
  | .fault cause =>
    if s.tiers.enable then
      openFault (setPhase s c.id (.waiting (.tier u))) (some (.cmd c.id)) u cause r stop
    else fail s c { status := 0x20, a := u }
  | .ends st => fail s c { status := st }
  | .moving => setPhase s c.id (.waiting .migrate)
  | .off => setPhase s c.id (.waiting .domain)
  | .host => wait .host
  | .far l => wait (.far l)
  | .peer _ => wait (.peer s.mortar.nextTag)

/-- Run `act` once nothing stands in the way of the ranges. -/
def touching (s : State) (c : Cmd) (stop : Nat) (rs : List Range) (act : State → State) : State :=
  match reachRanges s c.loaded rs with
  | some (u, r, x) => blockOn s c u r stop x
  | none => act s

end Sys2Proof.Machine
end

