-- ==== Sys2Proof/Machine/Operands.lean ====
section
/-!
DEFINITION. The operands of a queue command: the fields of its submission entry (R352 to R356), the
checks that dispatch makes in the order of R353, its result slots (R346, R365), and the step in
which a command of a queue is dispatched and acts.
-/

namespace Sys2Proof.Machine

def entTarget (c : Cmd) : Nat := entField c 8 4
def entCount (c : Cmd) : Nat := entField c 12 4
def entEpoch (c : Cmd) : Nat := entField c 16 8
def entResult (c : Cmd) : Nat := entField c 32 8
def entRoom (c : Cmd) : Nat := entField c 40 4
def entStride (c : Cmd) : Nat := entField c 44 4
def entDesc (c : Cmd) : Nat := entField c 48 8
def entData (c : Cmd) : Nat := entField c 56 8
/-- Fields of the search inline block (R355). -/
def inK (c : Cmd) : Nat := entField c 72 2
def inFormat (c : Cmd) : Nat := entField c 74 1
def inStride (c : Cmd) : Nat := entField c 76 4
def inPred (c : Cmd) : Nat := entField c 80 8
def inSketch (c : Cmd) : Nat := entField c 88 8

/-- The collection that TARGET names (R352). -/
def entColl (c : Cmd) : Nat := entTarget c % 256
/-- The queue or area that TARGET names (R352). -/
def entQueue (c : Cmd) : Nat := entTarget c % 4096

/-- The opcodes of R354. -/
def opcodes : List Nat :=
  [0x10, 0x11, 0x12, 0x13, 0x14, 0x20, 0x21, 0x22, 0x23, 0x24, 0x25, 0x26, 0x27, 0x30, 0x31, 0x32,
   0x33, 0x34, 0x35, 0x36, 0x40, 0x41, 0x50, 0x51, 0x52, 0x53, 0x60, 0x61, 0x62, 0x63, 0x68, 0x6F]

/-- The opcodes that run without valid fabric time (R389). -/
def timeless : List Nat := [0x60, 0x61, 0x62, 0x63, 0x68, 0x6F]

/-- Steps 1 to 3 of R353. -/
def entryErr (s : State) (c : Cmd) : Option Err :=
  if byteAt c.entry 5 != 1 then some (badVersion 0 0 5)
  else if getLE c.entry 6 2 < 128 then some (badVersion 0 0 6)
  else if !(opcodes.contains (entOpcode c)) then some (invalid 0 0 0)
  else if [0x60, 0x61, 0x62].contains (entOpcode c) && c.sq != 0 then some (invalid 0 0 0)
  else if !s.time.valid && !(timeless.contains (entOpcode c)) then some (invalid 0 0 0)
  else none

/-- The first failure of a list of checks. -/
def firstErr : List (Option Err) → Option Err
  | [] => none
  | some e :: _ => some e
  | none :: es => firstErr es

/-- A check that must hold. -/
def must (p : Bool) (e : Err) : Option Err := if p then none else some e

/-- A structure's version and size (R15), as the WHERE and ELEMENT given. -/
def structErr (bs : List Byte) (min wh el : Nat) : Option Err :=
  must (versionOk bs min) (badVersion wh el (versionFault bs))

/-! ### Result slots -/

/-- A slot lies within one registered area (R346). -/
def inArea (s : State) (a n : Nat) : Bool :=
  s.sched.areas.any fun r => decide (r.base ≤ a) && decide (a + n ≤ r.base + r.bytes)

/-- The check of one slot (R365): `need` bytes of payload beside the 16 of the header. -/
def slotErr (s : State) (i a room need : Nat) : Option Err :=
  if !inArea s a room then some (invalid 4 i 0)
  else if room < 16 + need then some (invalid 4 i 0)
  else if readLE s.mem (a + 2) 1 == 0 || readLE s.mem (a + 2) 1 == 3 then none
  else some (invalid 4 i 2)

def slotsErrFrom (s : State) (room : Nat) : Nat → List (Nat × Nat) → Option Err
  | _, [] => none
  | i, (a, need) :: rest =>
    match slotErr s i a room need with
    | some e => some e
    | none => slotsErrFrom s room (i + 1) rest

/-- Step 5 of R353, over the slots of a command in index order. -/
def slotsErr (s : State) (c : Cmd) (slots : List (Nat × Nat)) : Option Err :=
  slotsErrFrom s (entRoom c) 0 slots

/-- RESULT_ADDRESS is aligned (R352). -/
def resultErr (c : Cmd) : Option Err :=
  must (entResult c % 64 == 0 && (windowOf (entResult c)).isSome) (invalid 0 0 32)

/-- DESCRIPTOR_ADDRESS names `n` bytes of one window (R271). -/
def descErr (c : Cmd) (n : Nat) : Option Err := must (rangeValid (entDesc c) n) (invalid 0 0 48)

/-- Every slot BUSY (R364). -/
def busySlots (s : State) (c : Cmd) (slots : List (Nat × Nat)) : State :=
  slots.foldl (fun s p => slotBusy s c.id p.1) s

/-! ### The step of a queue command -/

/-- A command of the queue is in its dispatch: its checks wait for what they read. No later command of
the queue is dispatched before it (R351). -/
def inDispatch (s : State) (q : Nat) : Bool :=
  s.sched.cmds.any fun c => c.sq == q && !c.checked && c.phase != .fetched

/-- The command that a row's step takes: one of the row that may go on, else the oldest fetched and
undispatched command of the queue (R351) when it is the row's. -/
def pick (s : State) (q : Nat) (mine : Cmd → Bool) : Option Cmd :=
  match s.sched.cmds.find? (fun c => c.sq == q && c.phase == .ready && mine c) with
  | some c => some c
  | none =>
    if inDispatch s q then none
    else
      match s.sched.cmds.find? (fun c => c.sq == q && c.phase == .fetched) with
      | some c => if mine c then some c else none
      | none => none

/-- The module is not in Serving, or is entering another state (R375, R540). -/
def awayFromServing (s : State) : Bool := s.power.st != 0 || s.power.entering.isSome

/-- Dispatch waits: for Serving, or for a domain that is not ready (R30). -/
def notServing (s : State) : Bool :=
  awayFromServing s || s.power.domains &&& servingMask != servingMask

/-- Header lines of a command's slots that the result-slot agent does not hold alone, as the one step of
reading the header and writing BUSY needs (R364, R423). -/
def slotMissing (s : State) (c : Cmd) (slots : List (Nat × Nat)) : List Nat :=
  (slots.filter fun p => inArea s p.1 (entRoom c)).flatMap fun p =>
    (linesOf p.1 16).filter fun l => ((agentLine s.uzone 2 l).map (·.st)).getD 0 < 2

/-- The agent asks for those lines, and the command waits for them (R424). -/
def awaitSlots (s : State) (c : Cmd) (lines : List Nat) : State :=
  let s1 := setPhase s c.id (.waiting .host)
  { s1 with uzone := lines.foldl (fun u l => agentOwn u 2 l (some (.cmd c.id))) s1.uzone }

/-- The slots of a command checked and BUSY, and then what it does. -/
def takeSlots (s : State) (c : Cmd) (slots : List (Nat × Nat)) (act : State → Cmd → State) : State :=
  if !(slotMissing s c slots).isEmpty then
    if uzoneDown s then fail s c { status := 0x40 } else awaitSlots s c (slotMissing s c slots)
  else
    match slotsErr s c slots with
    | some e => fail s c e
    | none =>
      let s1 := updCmd s c.id fun c => { c with phase := .running, checked := true }
      act (busySlots s1 c slots) { c with phase := .running, checked := true }

/-- The copy that RETRY dispatches is in dispatch: fetching resumes, and the QUEUE_RESTART that asked for
it completes (R372). -/
def resumeFetch (s : State) (q : Nat) : State :=
  match findSq s q with
  | none => s
  | some x =>
    match x.restart with
    | none => s
    | some r =>
      let s1 := updSq s q fun x => { x with frozen := false, kept := none, restart := none }
      match r.bind (findCmd s1) with
      | some c => succeed s1 c 0 0 0 0 0
      | none => s1

/-- The dispatch of a command (R353) and what it does: the checks of its entry, the ranges that
those of its structures read, those checks, its slots, and then `act`. A command that has passed
them before acts at once. A command that finds the module out of Serving wakes it. -/
def runCommand (s : State) (q : Nat) (mine : Cmd → Bool) (pre : State → Cmd → Option Err)
    (ranges : State → Cmd → List Range) (check : State → Cmd → Option Err)
    (slots : State → Cmd → List (Nat × Nat)) (act : State → Cmd → State) : State :=
  match pick s q mine with
  | none => s
  | some c =>
    if notServing s then { s with power := { s.power with wake := s.power.wake || awayFromServing s } }
    else
    let s := if c.retry then resumeFetch s q else s
    if c.checked then act (setPhase s c.id .running) { c with phase := .running }
    else
      match firstErr [entryErr s c, pre s c] with
      | some e => fail s c e
      | none =>
        touching s c 5 (ranges s c) fun s =>
          match check s c with
          | some e => fail s c e
          | none => takeSlots s c (slots s c) act

def noErr (_ : State) (_ : Cmd) : Option Err := none
def noRanges (_ : State) (_ : Cmd) : List Range := []
def noSlots (_ : State) (_ : Cmd) : List (Nat × Nat) := []
/-- One slot at RESULT_ADDRESS. -/
def oneSlot (need : Nat) (c : Cmd) : List (Nat × Nat) := [(entResult c, need)]

end Sys2Proof.Machine
end

