-- ==== Sys2Proof/Machine/Queues.lean ====
section
/-!
DEFINITION. Queues, fetching, doorbells and the administration commands (R342 to R383).
-/

namespace Sys2Proof.Machine

/-! ### Areas (R343) -/

/-- The areas of the queues and result areas that exist. -/
def takenAreas (s : State) : List (Nat × Nat) :=
  s.sched.sqs.map (fun q => (q.base, q.depth * 128)) ++
  s.sched.cqs.map (fun q => (q.base, q.depth * 32)) ++
  s.sched.areas.map (fun r => (r.base, r.bytes))

def overlaps (a n b m : Nat) : Bool := decide (a < b + m) && decide (b < a + n)

/-- A running MIGRATE has moved some of the units, or still has to (R293). -/
def movingElsewhere (s : State) (us : List Nat) : Bool :=
  us.any fun u => s.tiers.migrations.any fun m =>
    decide (m.source ≤ u) && decide (u < m.source + m.units * unitBytes)

/-- A unit may hold a queue or a result area, by which it becomes pinned: its home may be that of a pinned
unit, no FAULT_ON_TOUCH is set on it, and no MIGRATE moves it (R278, R343). -/
def areaUnit (s : State) (u : Nat) : Bool :=
  !faultOn s u && !movingElsewhere s [u] &&
  match homeOf s u with
  | .stack _ => true
  | .companion _ => true
  | _ => false

/-- R343 for an area, beside `others`. -/
def areaOk (s : State) (others : List (Nat × Nat)) (a n : Nat) : Bool :=
  a % 4096 == 0 && rangeValid a n && (windowOf a == some 0 || windowOf a == some 1) &&
  !(windowOf a == some 1 && decide (companionBase + s.uzone.exposed < a + n)) &&
  (unitsOf { addr := a, len := n }).all (areaUnit s) &&
  !(others.any fun r => overlaps a n r.1 r.2)

/-- The bytes that a queue descriptor's area takes (R343, R344). -/
def areaBytes (d : List Byte) : Nat :=
  if byteAt d 4 == 0 then getLE d 8 2 * 128
  else if byteAt d 4 == 1 then getLE d 8 2 * 32
  else getLE d 32 8

/-- The checks of a queue descriptor, in offset order (R344, R345). -/
def queueErr (s : State) (d : List Byte) : Option Err :=
  let kind := byteAt d 4
  let id := getLE d 6 2
  let used := if kind == 0 then (findSq s id).isSome else if kind == 1 then (findCq s id).isSome
    else s.sched.areas.any (·.id == id)
  let depth := getLE d 8 2
  let vector := getLE d 12 2
  firstErr [
    structErr d 64 1 0,
    must (decide (kind ≤ 2)) (invalid 1 0 4),
    must (kind != 0 || decide (byteAt d 5 ≤ 4)) (invalid 1 0 5),
    must (if kind == 2 then decide (id ≤ 63) else decide (1 ≤ id) && decide (id ≤ 4095))
      (invalid 1 0 6),
    must (!used) (invalid 1 0 6),
    must (kind == 2 || decide (2 ≤ depth) && decide (depth ≤ 4096)) (invalid 1 0 8),
    must (kind != 0 || (findCq s (getLE d 10 2)).isSome) (invalid 1 0 10),
    must (kind != 1 || vector == 0xFFFF || decide (vector < 4032)) (invalid 1 0 12),
    must (kind != 1 || decide (getLE d 14 2 ≤ 256)) (invalid 1 0 14),
    must (areaOk s (takenAreas s) (getLE d 16 8) (areaBytes d)) (invalid 1 0 16),
    must (kind != 2 || (getLE d 32 8 % 4096 == 0 && decide (4096 ≤ getLE d 32 8) &&
      decide (getLE d 32 8 ≤ 2 ^ 32))) (invalid 1 0 32)]

/-- A change made with its audit record, as one step (R529, R532): refused with INTEGRITY when the
record fails its check. -/
def audited (s : State) (c : Cmd) (event : Nat) (detail : List Nat) (desc : List Byte)
    (act : State → State) : State :=
  if auditOk s then
    act (audit s 0 event detail (c.sq + entTag c * 65536) (c.entry ++ desc))
  else fail (auditFail s) c { status := 0x30 }

def opIs (op : Nat) (c : Cmd) : Bool := entOpcode c == op

/-! ### QUEUE_CREATE (R344, R345) -/

/-- What a queue descriptor adds to the scheduler. -/
def addQueue (s : State) (d : List Byte) : State :=
  let kind := byteAt d 4
  let id := getLE d 6 2
  let base := getLE d 16 8
  { s with
    sched := { s.sched with
      sqs := if kind == 0 then s.sched.sqs ++ [{
        id := id, cls := byteAt d 5, depth := getLE d 8 2,
          cq := getLE d 10 2, base := base }]
        else s.sched.sqs
      cqs := if kind == 1 then s.sched.cqs ++ [{
        id := id, depth := getLE d 8 2, base := base,
          vector := if getLE d 12 2 == 0xFFFF then none else some (getLE d 12 2),
          coCount := getLE d 14 2, coTime := getLE d 24 4 }]
        else s.sched.cqs
      areas := if kind == 2 then s.sched.areas ++ [{
        id := id, base := base,
          bytes := getLE d 32 8 }]
        else s.sched.areas } }

def actQueueCreate (s : State) (c : Cmd) : State :=
  let d := readBytes s.mem (entDesc c) 64
  audited s c 0x43 [byteAt d 4, getLE d 6 2] d fun s =>
    succeed (addQueue s d) c 0 0 0 0 0

def execQueueCreate (q : QueueId) (s : State) : Host.Outcome State Fault Refusal :=
  .next (runCommand s q.toNat (opIs 0x60) (fun _ c => descErr c 64)
    (fun _ c => [{ addr := entDesc c, len := 64 }])
    (fun s c => queueErr s (readBytes s.mem (entDesc c) 64)) noSlots actQueueCreate)

/-! ### QUEUE_DELETE (R373) -/

/-- A slot of a command in flight lies in a result area. -/
def areaBusy (s : State) (r : ResArea) : Bool :=
  s.sched.cmds.any fun c => c.slots.any fun p =>
    decide (r.base ≤ p.1) && decide (p.1 < r.base + r.bytes)

def queueDeleteErr (s : State) (c : Cmd) : Option Err :=
  let id := entQueue c
  let kind := entField c 64 1
  let ok :=
    if kind == 0 then
      id != 0 && s.sched.sqs.any fun q => q.id == id && q.deletedBy.isNone
    else if kind == 1 then
      id != 0 && (findCq s id).isSome && !(s.sched.sqs.any (·.cq == id))
    else if kind == 2 then
      s.sched.areas.any fun r => r.id == id && !areaBusy s r
    else true
  firstErr [must ok (invalid 0 0 8), must (decide (kind ≤ 2)) (invalid 0 0 64)]

/-- A QUEUE_RESTART that waits for a queue now being deleted names a queue that is no longer frozen
(DESIGN CHOICE, log 116). -/
def dropRestart (s : State) (q : Nat) : State :=
  match ((findSq s q).bind (·.restart)).bind fun r => r.bind (findCmd s) with
  | some c => fail (updSq s q fun x => { x with restart := none }) c (invalid 0 0 8)
  | none => updSq s q fun x => { x with restart := none }

def actQueueDelete (s : State) (c : Cmd) : State :=
  let id := entQueue c
  let kind := entField c 64 1
  audited s c 0x44 [kind, id] [] fun s =>
    if kind == 0 then
      settleDeletes (endFetched (dropRestart (updSq s id fun q => { q with
        deletedBy := some c.id, kept := none }) id) id 0x61)
    else
      succeed { s with
        sched := { s.sched with
          cqs := if kind == 1 then s.sched.cqs.filter (·.id != id) else s.sched.cqs
          areas := if kind == 2 then s.sched.areas.filter (·.id != id) else s.sched.areas } }
        c 0 0 0 0 0

def execQueueDelete (q : QueueId) (s : State) : Host.Outcome State Fault Refusal :=
  .next (runCommand s q.toNat (opIs 0x61) queueDeleteErr noRanges noErr noSlots actQueueDelete)

/-! ### QUEUE_RESTART (R372) -/

/-- The copy that a restart in MODE RETRY has kept is put up for dispatch, once the queue and the module
have room for one more command in flight (R342, R372). -/
def raiseCopy (s : State) (q : SubQ) : State :=
  match q.restart, q.kept with
  | some _, some e =>
    if decide (inFlight s q.id < 32) && decide (s.sched.cmds.length < 16384) then
      { s with
        sched := { s.sched with
          sqs := mapIf (·.id == q.id) (fun x => { x with kept := none }) s.sched.sqs
          cmds := s.sched.cmds ++ [{
            id := s.sched.nextCmd, sq := q.id, urgent := q.cls == 4, entry := e, retry := true
            phase := .ready }]
          nextCmd := s.sched.nextCmd + 1 } }
    else s
  | _, _ => s

def raiseCopies (s : State) : State := s.sched.sqs.foldl raiseCopy s

/-- A frozen queue resumes fetching; with `retry` its kept entry is first dispatched, and `cmd` is the
QUEUE_RESTART that waits for that. -/
def restartQueue (s : State) (q : Nat) (retry : Bool) (cmd : Option Nat) : State :=
  if retry then raiseCopies (updSq s q fun x => { x with restart := some cmd })
  else updSq s q fun x => { x with frozen := false, kept := none }

def restartable (s : State) (q : Nat) : Bool :=
  s.sched.sqs.any fun x => x.id == q && x.frozen && x.deletedBy.isNone && x.restart.isNone

def restartErr (s : State) (c : Cmd) : Option Err :=
  firstErr [must (restartable s (entQueue c)) (invalid 0 0 8),
    must (decide (entField c 64 1 ≤ 1)) (invalid 0 0 64)]

/-- A restart in MODE SKIP, by its inline field. -/
def isSkip (c : Cmd) : Bool := opIs 0x62 c && entField c 64 1 == 1
def isRetry (c : Cmd) : Bool := opIs 0x62 c && entField c 64 1 != 1

/-- MODE SKIP completes at once; MODE RETRY once the copy has been dispatched and fetching has resumed. -/
def actRestart (retry : Bool) (s : State) (c : Cmd) : State :=
  if retry then restartQueue (setPhase s c.id (.waiting .restart)) (entQueue c) true (some c.id)
  else succeed (restartQueue s (entQueue c) false none) c 0 0 0 0 0

def execQueueRestartRetry (q : QueueId) (s : State) : Host.Outcome State Fault Refusal :=
  .next (runCommand s q.toNat isRetry restartErr noRanges noErr noSlots (actRestart true))

def execQueueRestartSkip (q : QueueId) (s : State) : Host.Outcome State Fault Refusal :=
  .next (runCommand s q.toNat isSkip restartErr noRanges noErr noSlots (actRestart false))

/-! ### LOG_READ (R369) -/

def recordBytes (page : Nat) : Nat := if page == 1 then 192 else if page == 2 then 64 else 256

def logReadErr (_ : State) (c : Cmd) : Option Err :=
  firstErr [must (decide (1 ≤ entCount c) && decide (entCount c ≤ 256)) (invalid 0 0 12),
    resultErr c,
    must (decide (1 ≤ entField c 64 1) && decide (entField c 64 1 ≤ 3)) (invalid 0 0 64)]

/-- The records of a page numbered from `lo` to `hi - 1`, and the next number. -/
def logRecords (s : State) (page lo hi : Nat) : List (List Byte) × Nat :=
  let pickd := fun (n : Nat) => decide (lo ≤ n) && decide (n < hi)
  if page == 1 then
    ((s.sched.errLog.filter (fun r => pickd r.number)).map errBytes, s.sched.errNext)
  else if page == 2 then
    ((s.hw.log.filter (fun r => pickd r.number)).map hwBytes, s.hw.next)
  else
    ((s.lintel.audit.filter (fun r => pickd r.number)).map auditBytes, s.lintel.auditNext)

def actLogRead (s : State) (c : Cmd) : State :=
  let start := entField c 72 8
  let r := logRecords s (entField c 64 1) start (start + entCount c)
  succeed (slotReady s c.id (entResult c) 0 r.1.flatten 0xFFFFFFFF) c 0 0 r.1.length r.2 0

def execLogRead (q : QueueId) (s : State) : Host.Outcome State Fault Refusal :=
  .next (runCommand s q.toNat (opIs 0x63) logReadErr noRanges noErr
    (fun _ c => oneSlot (entCount c * recordBytes (entField c 64 1)) c) actLogRead)

/-! ### POWER_STATE (R374) -/

def powerErr (_ : State) (c : Cmd) : Option Err :=
  must (decide (entField c 64 1 ≤ 3)) (invalid 0 0 64)

/-- The commands dispatched before this one that have not completed (R374): those it found as it was
dispatched. -/
def dispatchedBefore (s : State) (c : Cmd) : List Nat :=
  if c.waited then c.after
  else (s.sched.cmds.filter fun x => x.id != c.id && x.phase != .fetched && x.checked).map (·.id)

/-- The request is taken once no other is being served; Serving is reached at once, another state
by POWER_STATE_ENTRY. -/
def actPowerState (s : State) (c : Cmd) : State :=
  let st := entField c 64 1
  if s.power.request.isSome then
    updCmd s c.id fun k => { k with
      phase := .waiting .power, waited := true, after := dispatchedBefore s c }
  else
    let s1 := { s with
      power := { s.power with
        target := st
        automatic := false
        request := if st == 0 then none else some c.id
        waitFor := if st == 0 then [] else dispatchedBefore s c } }
    if st == 0 then succeed s1 c 0 0 0 0 0 else s1

def execPowerState (q : QueueId) (s : State) : Host.Outcome State Fault Refusal :=
  .next (runCommand s q.toNat (opIs 0x68) powerErr noRanges noErr noSlots actPowerState)

/-! ### COMMAND_FETCH (R350) -/

/-- Entries that wait in a queue (R348). -/
def waitingEntries (q : SubQ) : Nat := (q.tail + q.depth - q.head) % q.depth

/-- `eligible` of R350, with R372, R373 and R432. -/
def eligible (s : State) (q : SubQ) : Bool :=
  !s.sched.stopped && !q.frozen && q.deletedBy.isNone && waitingEntries q != 0 &&
  decide (inFlight s q.id < 32) && decide (s.sched.cmds.length < 16384) &&
  !(windowOf q.base == some 1 && uzoneDown s)

/-- The least ID of a list. -/
def leastId (l : List Nat) : Option Nat :=
  l.foldl (fun m x => match m with | none => some x | some y => some (min x y)) none

/-- `rr_next` of R350: the eligible queues of a class in ascending ID order, after the last. -/
def rrNext (s : State) (cls : Nat) : Option Nat :=
  let ids := (s.sched.sqs.filter fun q => q.cls == cls && eligible s q).map (·.id)
  match s.sched.rr.getD cls none with
  | none => leastId ids
  | some l =>
    match leastId (ids.filter fun i => decide (l < i)) with
    | some i => some i
    | none => leastId ids

/-- One pass of `pick` (R350) over the weighted classes, from `cur`. -/
def passClass (s : State) (credit : List Nat) (cur : Nat) : Nat → Option Nat
  | 0 => none
  | n + 1 =>
    let c := (cur + (4 - (n + 1))) % 4
    if 0 < credit.getD c 0 && (rrNext s c).isSome then some c
    else passClass s credit cur n

/-- `pick` of R350: the class, and the credits as they stand then. -/
def arbiter (s : State) : Option Nat × List Nat :=
  if (rrNext s 4).isSome then (some 4, s.sched.credit)
  else
    match passClass s s.sched.credit s.sched.cur 4 with
    | some c => (some c, s.sched.credit)
    | none =>
      let full := (List.range 4).map (weight s)
      match passClass s full s.sched.cur 4 with
      | some c => (some c, full)
      | none => (none, full)

/-- The lines of a queue's next entry that the submission queue agent does not hold (R423). -/
def entryMissing (s : State) (q : SubQ) : List Nat :=
  (linesOf (q.base + 128 * q.head) 128).filter fun l => (agentLine s.uzone 0 l).isNone

/-- Copy one entry and advance H (R349). -/
def fetchEntry (s : State) (q : SubQ) (cls : Nat) (credit : List Nat) : State :=
  let a := q.base + 128 * q.head
  { s with
    sched := { s.sched with
      cur := if cls == 4 then s.sched.cur else cls
      credit := if cls == 4 then credit else modAt credit cls (· - 1)
      rr := modAt s.sched.rr cls (fun _ => some q.id)
      sqs := mapIf (·.id == q.id) (fun x => { x with head := (x.head + 1) % x.depth }) s.sched.sqs
      cmds := s.sched.cmds ++ [{
      id := s.sched.nextCmd, sq := q.id, urgent := q.cls == 4,
        entry := readBytes s.mem a 128 }]
      nextCmd := s.sched.nextCmd + 1 } }

/-- The front of a queue completes at once when it fails steps 1 to 3 of R353. -/
def refuseFront (s : State) (q : SubQ) : State :=
  match s.sched.cmds.find? (fun c => c.sq == q.id && c.phase == .fetched && !inDispatch s q.id) with
  | none => s
  | some c =>
    match entryErr s c with
    | some e => fail s c e
    | none => s

/-- The arbiter's fetch: one entry, or with no eligible queue the credits alone (R350). An entry in
companion memory is fetched once its lines have come (R424), and one on the stack of a course that is
off once its domain is up (R32). -/
def fetchOne (s : State) : State :=
  match arbiter s with
  | (none, full) => { s with sched := { s.sched with credit := full } }
  | (some cls, credit) =>
    match (rrNext s cls).bind (findSq s) with
    | none => s
    | some q =>
      if courseOff s (unitOf (q.base + 128 * q.head)) then
        { s with power := { s.power with wake := true } }
      else if (entryMissing s q).isEmpty then fetchEntry s q cls credit
      else { s with uzone := (entryMissing s q).foldl agentRead s.uzone }

def execCommandFetch (s : State) : Host.Outcome State Fault Refusal :=
  let s1 := fetchOne (raiseCopies s)
  .next (s1.sched.sqs.foldl refuseFront s1)

/-! ### COALESCE_TIMEOUT (R362) -/

def coalesceDue (s : State) (q : ComplQ) : Bool :=
  q.coTime != 0 && (match q.firstAt with
    | none => false
    | some t => decide (t + q.coTime * 1000 ≤ now s))

def execCoalesceTimeout (cq : QueueId) (s : State) : Host.Outcome State Fault Refusal :=
  .next (match findCq s cq.toNat with
    | none => s
    | some q =>
      if coalesceDue s q then
        let s1 := updCq s q.id fun x => { x with since := 0, firstAt := none }
        match q.vector with
        | some v => interrupt s1 v
        | none => s1
      else s)

/-! ### Doorbells (R348, R358, R383) -/

/-- A tail written to a submission queue's doorbell. -/
def ringTail (s : State) (q v : Nat) : State :=
  { s with
    sched := { s.sched with
      sqs := mapIf (fun x => x.id == q && x.deletedBy.isNone)
        (fun x => if v < x.depth then { x with tail := v } else { x with dbErr := true })
        s.sched.sqs } }

/-- A head written to a completion queue's doorbell. -/
def ringHead (s : State) (q v : Nat) : State :=
  flushAllHeld (updCq s q fun x => if v < x.depth then { x with head := v } else { x with dbErr := true })

/-! ### ADMIN_QUEUE_CONTROL (R377) -/

/-- The bases as device addresses (R376). -/
def adminSqAddr (s : State) : Nat := bits s.sched.adminSqBase.toNat 51 12 * 4096
def adminCqAddr (s : State) : Nat := bits s.sched.adminCqBase.toNat 51 12 * 4096

/-- The administration queues may be enabled with these depths less one (R377). -/
def adminOk (s : State) (sd cd : Nat) : Bool :=
  let sqArea := (adminSqAddr s, (sd + 1) * 128)
  let cqArea := (adminCqAddr s, (cd + 1) * 32)
  sd != 0 && cd != 0 &&
  areaOk s (cqArea :: takenAreas s) sqArea.1 sqArea.2 &&
  areaOk s (sqArea :: takenAreas s) cqArea.1 cqArea.2

/-- A write of ADMIN_QUEUE_CONTROL (R377). -/
def writeAdminControl (s : State) (v : Nat) : State :=
  let on := s.sched.adminEnable
  let sd := if on then s.sched.adminSqDepth else bits v 11 0
  let cd := if on then s.sched.adminCqDepth else bits v 23 12
  let enable := !on && bit v 31 && adminOk s sd cd
  let s1 := { s with
    sched := { s.sched with
      adminSqDepth := sd
      adminCqDepth := cd
      adminEnable := on || enable
      sqs := if enable then s.sched.sqs ++ [{
        id := 0, cls := 4, depth := sd + 1, cq := 0,
          base := adminSqAddr s }]
        else s.sched.sqs
      cqs := if enable then s.sched.cqs ++ [{
        id := 0, depth := cd + 1, base := adminCqAddr s,
          vector := some 0, coCount := 1, coTime := 0 }]
        else s.sched.cqs } }
  if bit v 30 != bit v 29 && restartable s1 0 then restartQueue s1 0 (bit v 30) none else s1

end Sys2Proof.Machine
end

