-- ==== Sys2Proof/Machine/Dev.lean ====
section
/-!
DEFINITION. The companion's requests to the memory of the module (R32, R421, R603).
-/

namespace Sys2Proof.Machine

/-- The range of a request: whole lines from an aligned address. -/
def devRange (a lines : Nat) (write : Bool) : Range :=
  { addr := a / 64 * 64, len := 64 * lines, write := write }

/-- How a request finds its units: none stands in its way, some unit is held by a move or by a course
without power, its bytes lie at a home outside the module, or the answer is an error status (R603). -/
inductive DevReach where
  | ok | hold | away | error (status : Nat)
  deriving DecidableEq, Repr

/-- POISON is known from version 1.2 on (R418, R422). -/
def poisonStatus (s : State) : Nat :=
  if s.uzone.negMajor == 1 && decide (2 ≤ s.uzone.negMinor) then 2 else 1

/-- An access to a home outside the module, or none. -/
def devAway : Reach → Bool
  | .host => true
  | .far _ => true
  | .peer _ => true
  | _ => false

def devReach (s : State) (r : Range) : DevReach :=
  let at' := fun u => reachUnit s false 4 r.write u
  let ends := fun u => at' u != .ok && at' u != .moving && at' u != .off && !devAway (at' u)
  if !(windowOf r.addr == some 0 && rangeValid r.addr r.len) then .error 1
  else if (unitsOf r).any ends then .error 1
  else if (unitsOf r).any fun u => at' u == .moving || at' u == .off then .hold
  else if poisonedIn s r then .error (poisonStatus s)
  else if (unitsOf r).any fun u => devAway (at' u) then .away
  else .ok

/-- A message of the KV7 to the companion. -/
def answer (s : State) (m : Msg) : State := { s with uzone := uzSend s.uzone [m] }

/-- The bytes of a partial write, in runs that the mask sets. -/
def maskRuns (mask : Nat) (data : List Byte) (n : Nat) : List (Nat × List Byte) :=
  ((List.range n).filter fun i => bit mask i && (i == 0 || !bit mask (i - 1))).map fun i =>
    (i, (data.drop i).take ((((List.range n).drop i).takeWhile (bit mask)).length))

/-- The range of a request, and what it writes where. -/
def devWrites : Instr → Range × List (Nat × List Byte)
  | .devWr a data _ =>
    let n := min 4 (data.length / 64)
    (devRange a.toNat n true, [(0, data.take (64 * n))])
  | .devWrPartial a mask data _ => (devRange a.toNat 1 true, maskRuns mask.toNat (data.take 64) 64)
  | .devRd a lines _ => (devRange a.toNat (lines.toNat + 1) false, [])
  | _ => ({ addr := 0, len := 0 }, [])

/-- The parts of a read that lie outside the module asked for, each from its home (R603). -/
def devAsk (s : State) (r : Range) : State :=
  (unitsOf r).foldl (fun s u =>
    match reachUnit s false 4 false u with
    | .far l => { s with uzone := { s.uzone with devFar := some l } }
    | x => askPart s .dev r u x) s

/-- The access of a request at the homes of its units is made: its reads asked for, or its bytes written. -/
def devAccess (s : State) (i : Instr) : State :=
  let w := devWrites i
  let s1 := { s with uzone := { s.uzone with devAsked := true } }
  if w.1.write then w.2.foldl (fun s x => deviceWrite s (some .dev) (w.1.addr + x.1) x.2) s1
  else devAsk s1 w.1

/-- The response to a request, an error or what it read (R419, R603). -/
def devAnswer (s : State) (i : Instr) (st : Nat) : State :=
  match i with
  | .devRd a lines tag =>
    let r := devRange a.toNat (lines.toNat + 1) false
    answer s (.dataResp tag.toNat st (if st == 0 then readBytes s.mem r.addr r.len else []))
  | .devWr _ _ tag => answer s (.cmpResp tag.toNat st)
  | .devWrPartial _ _ _ tag => answer s (.cmpResp tag.toNat st)
  | _ => s

/-- The request in front has been answered. -/
def devOver (s : State) : State :=
  { s with uzone := { s.uzone with devAsked := false, devFar := none, devFailed := none } }

/-- An access that has been made at its homes is answered once they have answered it (R421, R603). -/
def devEnd (s : State) (i : Instr) : State × Bool :=
  match s.uzone.devFailed with
  | some st => (devAnswer (devOver s) i (if st == 0x32 then poisonStatus s else 1), true)
  | none =>
    if accessOut s .dev true || s.uzone.devFar.isSome then (s, false)
    else (devAnswer (devOver s) i 0, true)

/-- One request to the memory of the module served, and whether it is over; one that must wait, waits
(R32, R421, R603). -/
def devOne (s : State) (i : Instr) : State × Bool :=
  if s.uzone.devAsked then devEnd s i
  else
    match devReach s (devWrites i).1 with
    | .hold => (s, false)
    | .error st => (devAnswer s i st, true)
    | _ => devEnd (devAccess s i) i

/-- A request to the memory of the module. -/
def isDev : Instr → Bool
  | .devRd _ _ _ => true
  | .devWr _ _ _ => true
  | .devWrPartial _ _ _ _ => true
  | _ => false

/-- Requests served in arrival order, up to one that must wait (R421). -/
def serveWith (one : State → Instr → State × Bool) : Nat → State → State
  | 0, s => s
  | n + 1, s =>
    match s.uzone.heldDev with
    | [] => s
    | i :: is =>
      let x := one { s with uzone := { s.uzone with heldDev := is } } i
      if x.2 then serveWith one n x.1
      else { x.1 with uzone := { x.1.uzone with heldDev := i :: x.1.uzone.heldDev } }

/-- The held requests to memory look again, up to the first of another kind. -/
def serveDevs (s : State) : State :=
  serveWith (fun s i => if isDev i then devOne s i else (s, false)) s.uzone.heldDev.length s

end Sys2Proof.Machine
end

