-- ==== Sys2Proof/Machine/Hod.lean ====
section
/-!
DEFINITION. Hod streams, chains and their links, the Plumb units and the stall watchdog (R306 to
R330).
-/

namespace Sys2Proof.Machine

/-! ### Stream descriptors (R308 to R311) -/

def hDims (d : List Byte) : Nat := byteAt d 4
def hLevel (d : List Byte) : Nat := byteAt d 5
def hFlag (d : List Byte) (i : Nat) : Bool := bit (byteAt d 7) i
def hStart (d : List Byte) : Nat := getLE d 8 4
def hTap (d : List Byte) : Bool := byteAt d 12 == 1
def hCount (d : List Byte) (k : Nat) : Nat := getLE d (32 + 16 * k) 4

/-- A signed 48-bit field. -/
def signed48 (v : Nat) : Int := if v < 2 ^ 47 then v else (v : Int) - 2 ^ 48

/-- The stride of a dimension (R309), at the destination when `dst`. -/
def hStride (d : List Byte) (dst : Bool) (k : Nat) : Int :=
  if k == 0 then 1 else signed48 (getLE d (36 + 16 * k + (if dst then 6 else 0)) 6)

def hBase (d : List Byte) (dst : Bool) : Nat := getLE d (if dst then 24 else 16) 8

/-- Product of the counts of `n` dimensions from `k` on. -/
def countsFrom (d : List Byte) (k n : Nat) : Nat :=
  (List.range n).foldl (fun p i => p * hCount d (k + i)) 1

/-- Tb and Tn (R310). -/
def hTb (d : List Byte) : Nat := countsFrom d 0 (hLevel d)
def hTn (d : List Byte) : Nat := countsFrom d (hLevel d) (hDims d - hLevel d)

/-- The offsets of a tile's runs within the tile, dimension 1 fastest (R310). -/
def runOffsets (d : List Byte) (dst : Bool) : List Int :=
  (List.range (hLevel d - 1)).foldl (fun (offs : List Int) i =>
    (List.range (hCount d (i + 1))).flatMap fun (j : Nat) =>
      offs.map fun o => o + (j : Int) * hStride d dst (i + 1)) [0]

/-- The offset of tile `i`, dimension n - 1 slowest (R310). -/
def tileOffset (d : List Byte) (dst : Bool) (i : Nat) : Int :=
  ((List.range (hDims d - hLevel d)).foldl (fun a j =>
    (a.1 / hCount d (hLevel d + j),
      a.2 + (a.1 % hCount d (hLevel d + j) : Nat) * hStride d dst (hLevel d + j)))
    (i, (0 : Int))).2

/-- The addresses of the runs of tile `i`, in order. -/
def runAddrs (d : List Byte) (dst : Bool) (i : Nat) : List Int :=
  (runOffsets d dst).map fun o => hBase d dst + tileOffset d dst i + o

/-- The lowest and the highest address that a descriptor reaches on one side. -/
def spanOf (d : List Byte) (dst : Bool) : Int × Int :=
  (List.range (hDims d - 1)).foldl (fun a i =>
    let x := (hCount d (i + 1) - 1 : Nat) * hStride d dst (i + 1)
    (a.1 + min 0 x, a.2 + max 0 x))
    ((hBase d dst : Int), (hBase d dst + hCount d 0 - 1 : Nat))

/-- Every address reached on one side lies in a window (R271, R311). -/
def reachesOk (d : List Byte) (dst : Bool) : Bool :=
  let p := spanOf d dst
  (decide (0 ≤ p.1) && rangeNamed p.1.toNat (p.2 - p.1 + 1).toNat) ||
  (List.range (hTn d)).all fun i => (runAddrs d dst i).all fun a =>
    decide (0 ≤ a) && rangeNamed a.toNat (hCount d 0)

/-- The two spans of a descriptor meet (R311). -/
def spansMeet (d : List Byte) : Bool :=
  let a := spanOf d false
  let b := spanOf d true
  decide (a.1 ≤ b.2) && decide (b.1 ≤ a.2)

/-- The counts of the dimensions are in range, and the records beyond them all zero (R309). -/
def dimErr (d : List Byte) (wh el k : Nat) : Option Err :=
  let o := 32 + 16 * k
  if hDims d ≤ k then must ((d.drop o).take 16 == zeros 16) (invalid wh el o)
  else must (decide (1 ≤ hCount d k) && decide (hCount d k ≤ if k == 0 then 2 ^ 21 else 2 ^ 24))
    (invalid wh el o)

/-- The checks of R311 on one stream descriptor; `links` is the link count of its chain, none for
HOD_STREAM. A Plumb tap takes its tiles from its producer (R317), where `tapErr` checks them, and reaches
no address. -/
def streamErr (d : List Byte) (links : Option Nat) (wh el : Nat) : Option Err :=
  let n := links.getD 0
  let at' := fun o => invalid wh el o
  let tap := hTap d
  firstErr ([
    structErr d 128 wh el,
    must (decide (1 ≤ hDims d) && decide (hDims d ≤ 5)) (at' 4),
    must (decide (1 ≤ hLevel d) && decide (hLevel d ≤ hDims d)) (at' 5),
    must (decide (byteAt d 6 ≤ 7) || byteAt d 6 == 0xFF) (at' 6),
    must (decide (byteAt d 12 ≤ 1)) (at' 12),
    must (!tap || decide (byteAt d 13 ≤ 3)) (at' 13),
    must (links.isNone || !hFlag d 2 || decide (getLE d 14 2 < n)) (at' 14),
    must (links.isNone || !hFlag d 0 || decide (getLE d 16 8 % 16 < n)) (at' 16),
    must (links.isNone || !hFlag d 1 || decide (getLE d 24 8 % 16 < n)) (at' 24)] ++
    (List.range 5).map (dimErr d wh el) ++ [
    must (tap || decide (hTb d ≤ 2 ^ 24)) (at' 5),
    must (tap || decide (hTn d ≤ 2 ^ 32)) (at' 5),
    must (tap || decide (hStart d < hTn d)) (at' 8),
    must (tap || hFlag d 0 || reachesOk d false) (at' 16),
    must (tap || hFlag d 1 || reachesOk d true) (at' 24),
    must (tap || hFlag d 0 || hFlag d 1 || !spansMeet d) (at' 24),
    must (!hFlag d 2 || hFlag d 1) (at' 7),
    must (links.isSome || !tap) (at' 12),
    must (links.isSome || byteAt d 7 % 8 == 0) (at' 7),
    must (!tap || byteAt d 7 % 8 == 1) (at' 7)])

/-! ### Chain descriptors (R315, R317 to R319) -/

def chStages (d : List Byte) : Nat := byteAt d 4
def chLinks (d : List Byte) : Nat := byteAt d 5
def chBytes (d : List Byte) : Nat := 64 + 128 * chStages d + 32 * chLinks d
def chStage (d : List Byte) (i : Nat) : List Byte := (d.drop (64 + 128 * i)).take 128
def chLink (d : List Byte) (j : Nat) : List Byte :=
  (d.drop (64 + 128 * chStages d + 32 * j)).take 32

def lkKey (r : List Byte) : Nat := getLE r 0 2
def lkSlots (r : List Byte) : Nat := byteAt r 2
def lkEnd (r : List Byte) : Nat := byteAt r 3
def lkBytes (r : List Byte) : Nat := getLE r 8 4
def lkBuffer (r : List Byte) : Nat := getLE r 16 8

/-- The links that a stage writes, by index. -/
def outLinks (sd : List Byte) : List Nat :=
  (if hFlag sd 1 then [getLE sd 24 8 % 16] else []) ++ (if hFlag sd 2 then [getLE sd 14 2] else [])
/-- The link that a stage reads, by index. -/
def inLink (sd : List Byte) : Option Nat := if hFlag sd 0 then some (getLE sd 16 8 % 16) else none

/-- The stages that produce into a link, and those that consume from it. -/
def producers (d : List Byte) (j : Nat) : List Nat :=
  (List.range (chStages d)).flatMap fun i =>
    (outLinks (chStage d i)).filterMap fun l => if l == j then some i else none
def consumers (d : List Byte) (j : Nat) : List Nat :=
  (List.range (chStages d)).filter fun i => inLink (chStage d i) == some j

/-- Tb and Tn of a stage; those of a Plumb tap are its producer's where the chain has it (R317). -/
def stageTiles (d : List Byte) (i : Nat) : Nat × Nat :=
  let sd := chStage d i
  let from' := if hTap sd then (inLink sd).bind fun j =>
      if lkKey (chLink d j) == 0 then (producers d j).head? else none
    else none
  let x := (from'.map (chStage d)).getD sd
  (hTb x, hTn x)

/-- R315 on one link record. -/
def linkFieldErr (d : List Byte) (j : Nat) : Option Err :=
  let r := chLink d j
  let uses := producers d j ++ consumers d j
  firstErr [
    must (decide (2 ≤ lkSlots r) && decide (lkSlots r ≤ 8)) (invalid 2 j 2),
    must (lkKey r == 0 || decide (lkEnd r ≤ 1)) (invalid 2 j 3),
    must (lkBytes r % 64 == 0 && uses.all fun i => decide ((stageTiles d i).1 ≤ lkBytes r))
      (invalid 2 j 8),
    must (lkBuffer r % 64 == 0 &&
      decide (lkBuffer r + lkSlots r * lkBytes r ≤ 2 ^ 40)) (invalid 2 j 16)]

/-- R317 on one link record. -/
def linkUseErr (d : List Byte) (j : Nat) : Option Err :=
  let r := chLink d j
  let ps := producers d j
  let cs := consumers d j
  let one := fun (l : List Nat) => l.length == 1
  let dup := (List.range j).any fun i => lkKey (chLink d i) == lkKey r
  if lkKey r == 0 then
    firstErr [must (one ps && one cs) (invalid 2 j 0),
      must (cs.all fun c => hTap (chStage d c) ||
        ps.all fun p => stageTiles d p == stageTiles d c) (invalid 2 j 0)]
  else
    firstErr [must (!dup) (invalid 2 j 0),
      must (if lkEnd r == 0 then one ps && cs.isEmpty else one cs && ps.isEmpty) (invalid 2 j 3)]

def sharedLink (s : State) (key : Nat) : Option HodLink :=
  if key == 0 then none else s.hod.links.find? fun l => l.key == key

/-- R318 on one link record. -/
def linkShareErr (s : State) (d : List Byte) (j : Nat) : Option Err :=
  let r := chLink d j
  match sharedLink s (lkKey r) with
  | none => none
  | some l =>
    firstErr [must (l.slots == lkSlots r) (invalid 2 j 2),
      must (if lkEnd r == 0 then l.producer.isNone && !l.prodEnded
        else l.consumer.isNone && !l.consEnded) (invalid 2 j 3),
      must (l.slotBytes == lkBytes r) (invalid 2 j 8),
      must (l.buffer == lkBuffer r) (invalid 2 j 16)]

/-- The stages left when those without a producer among the rest are taken away `n` times. -/
def peel (d : List Byte) : Nat → List Nat → List Nat
  | 0, l => l
  | n + 1, l => peel d n (l.filter fun i =>
      ((inLink (chStage d i)).elim false fun j =>
        lkKey (chLink d j) == 0 && (producers d j).any l.contains))

/-- SIZE of a chain's header: that of R315, or more where a higher minor version adds to it (R15). -/
def chSizeOk (d : List Byte) : Bool :=
  if byteAt d 0 == 0 then getLE d 2 2 == chBytes d else decide (chBytes d ≤ getLE d 2 2)

/-- R311 on the tiles of a Plumb tap, which are its producer's or its own (R317). -/
def tapErr (d : List Byte) (i : Nat) : Option Err :=
  let t := stageTiles d i
  if hTap (chStage d i) then
    firstErr [must (decide (t.1 ≤ 2 ^ 24)) (invalid 2 i 5), must (decide (t.2 ≤ 2 ^ 32)) (invalid 2 i 5),
      must (decide (hStart (chStage d i) < t.2)) (invalid 2 i 8)]
  else none

/-- The checks of R319. -/
def chainErr (s : State) (d : List Byte) : Option Err :=
  let ss := List.range (chStages d)
  let ls := List.range (chLinks d)
  match firstErr [
    must (byteAt d 1 == 1) (badVersion 1 0 1),
    must (decide (1 ≤ chStages d) && decide (chStages d ≤ 16)) (invalid 1 0 4),
    must (decide (chLinks d ≤ 16)) (invalid 1 0 5),
    must (chSizeOk d) (badVersion 1 0 2)] with
  | some e => some e
  | none => firstErr (
      ss.map (fun i => streamErr (chStage d i) (some (chLinks d)) 2 i) ++
      ss.map (tapErr d) ++
      ls.map (linkFieldErr d) ++ ls.map (linkUseErr d) ++ ls.map (linkShareErr s d) ++
      [must (peel d (chStages d) ss).isEmpty { status := 0x21 }])

/-! ### Plumb units (R326 to R330) -/

def plumbWidth (config : BitVec 32) : Nat := bits config.toNat 6 0
/-- WIDTH is one a scan or tap may start with (R327). -/
def widthOk (p : Plumb) : Bool := decide (8 ≤ plumbWidth p.config) && decide (plumbWidth p.config ≤ 64)

/-- The start of a scan or tap: the registers latched and the shift register set (R326, R327). -/
def latchUnit (cont : Bool) (p : Plumb) : Plumb :=
  { p with
    busy := true
    latchedConfig := p.config
    latchedPoly := p.poly
    reg := if cont then p.reg else p.init.toNat % 2 ^ plumbWidth p.config }

/-- A unit absorbs bytes (R327). -/
def absorb (bs : List Byte) (p : Plumb) : Plumb :=
  { p with
    reg := plumbFold (plumbWidth p.latchedConfig) p.latchedPoly.toNat
      (bit p.latchedConfig.toNat 7) p.reg bs }

/-- RESULT of R327. -/
def plumbResult (p : Plumb) : Nat :=
  let w := plumbWidth p.latchedConfig
  let out := if bit p.latchedConfig.toNat 8 then reverseBits w p.reg else p.reg % 2 ^ w
  if bit p.latchedConfig.toNat 9 then out ^^^ (2 ^ w - 1) else out

/-- The end of a scan or tap that absorbed its last byte (R329, R330). -/
def finishUnit (p : Plumb) : Plumb :=
  { p with
    busy := false
    result := BitVec.ofNat 64 (plumbResult p)
    scans := (p.scans + 1) % 2 ^ 16 }

def unitAt (s : State) (u : Nat) : Plumb := s.plumb.units.getD u {}
def updUnit (s : State) (u : Nat) (f : Plumb → Plumb) : State :=
  { s with plumb := { s.plumb with units := modAt s.plumb.units u f } }

/-! ### Streams and their ends -/

def findStream (s : State) (id : Nat) : Option Stream := s.hod.streams.find? (·.id == id)
def updStream (s : State) (id : Nat) (f : Stream → Stream) : State :=
  { s with hod := { s.hod with streams := mapIf (·.id == id) f s.hod.streams } }
/-- The streams of a command of this chapter: none of the module's own. -/
def streamsOf (s : State) (cmd : Nat) : List Stream :=
  s.hod.streams.filter fun t => t.cmd == cmd && t.own.isNone
def findLink (s : State) (id : Nat) : Option HodLink := s.hod.links.find? (·.id == id)

/-- Streams bound to an engine (R306, R336). -/
def boundTo (s : State) (e : Nat) : List Stream :=
  s.hod.streams.filter fun t => t.engine == e && t.st != 1

/-- The saved position of a stream as LAST_DELIVERED shows it (R322, R324). -/
def lastDelivered (t : Stream) : Nat :=
  if t.nextDeliver == 0 then 0xFFFFFFFF else t.nextDeliver - 1

/-- STATE of a stage in the report (R324): halted where a tier fault ended the command there, else
aborted at the stage that failed, and stopped at the others. -/
def reportState (failed : Option Nat) (status : Nat) (t : Stream) : Nat :=
  if t.st == 1 then 0
  else if failed == some t.stage then (if status == 0x20 then 1 else 3)
  else 2

/-- The stream report (R324). -/
def reportBytes (ts : List Stream) (failed : Option Nat) (status : Nat) : List Byte :=
  header (16 + 16 * ts.length) ++ leBytes 1 ts.length ++ leBytes 1 (failed.getD 0xFF) ++ zeros 10 ++
  ts.flatMap fun t => leBytes 4 (lastDelivered t) ++ leBytes 4 t.count ++
    leBytes 1 (reportState failed status t) ++ zeros 7

/-- The tiles for which a stream has taken counts and which it has not delivered. -/
def undelivered (t : Stream) : Nat := t.taken - t.nextDeliver

/-- A shared link's ends that a command held: ended where the stage completed, else vacant, with the
counts of its undelivered tiles returned (R321). -/
def vacate (s : State) (cmd : Nat) (l : HodLink) : HodLink :=
  let st := fun (e : Option (Nat × Nat)) =>
    e.bind fun x => (streamsOf s x.1).find? fun t => t.stage == x.2
  let mineP := (l.producer.map (·.1)) == some cmd
  let mineC := (l.consumer.map (·.1)) == some cmd
  let p := if mineP then ((st l.producer).map undelivered).getD 0 else 0
  let c := if mineC then ((st l.consumer).map undelivered).getD 0 else 0
  { l with
    free := l.free + p
    wr := l.wr - p
    filled := l.filled + c
    rd := l.rd - c
    sizes := List.replicate c (((st l.consumer).map (·.tileBytes)).getD 0) ++ l.sizes
    producer := if mineP then none else l.producer
    consumer := if mineC then none else l.consumer
    prodVacant := if mineP && !l.prodEnded then some (now s) else l.prodVacant
    consVacant := if mineC && !l.consEnded then some (now s) else l.consVacant }

/-- A link returns to the pool: a private link with its command, a shared one when both ends have
ended (R317). -/
def linkGone (cmd : Nat) (l : HodLink) : Bool :=
  (l.key == 0 && ((l.producer.map (·.1)) == some cmd || (l.consumer.map (·.1)) == some cmd)) ||
  (l.key != 0 && l.prodEnded && l.consEnded)

/-- All that a command of this chapter holds is given back. -/
def releaseHod (s : State) (cmd : Nat) : State :=
  let mine := streamsOf s cmd
  let units := mine.filterMap fun t => if t.st == 1 then none else t.plumb
  { s with
    hod := { s.hod with
      streams := s.hod.streams.filter fun t => t.cmd != cmd || t.own.isSome
      links := (s.hod.links.filter fun l => !linkGone cmd l).map (vacate s cmd)
      order := s.hod.order.filter (· != cmd)
      descs := s.hod.descs.filter (·.1 != cmd) }
    plumb := { s.plumb with
      units := s.plumb.units.zipIdx.map fun p =>
        if units.contains p.2 then { p.1 with busy := false } else p.1 }
    tiers := { s.tiers with
      faults := s.tiers.faults.map fun f => { f with
        waiters := f.waiters.filter fun w => !(mine.any fun t => w.who == .stream t.id) } } }

/-- The report of a command written at its slot, which READY then closes (R324, R364). -/
def writeReport (s : State) (c : Cmd) (failed : Option Nat) (status : Nat) : State :=
  match ((findCmd s c.id).getD c).slots, streamsOf s c.id with
  | (a, _) :: _, t :: ts => slotWrite s c.id (a + 16) (reportBytes (t :: ts) failed status)
  | _, _ => s

/-- A command of this chapter fails: its report stands in the slot and its stages stop (R321, R323). -/
def hodFail (s : State) (c : Cmd) (failed : Option Nat) (e : Err) : State :=
  fail (releaseHod (writeReport s c failed e.status) c.id) c e

/-- A status that carries an INFO_A of its own (R360, R361). -/
def ownInfo (st : Nat) : Bool := [0x10, 0x11, 0x15, 0x20, 0x31].contains st

/-- The pinned epoch that a completion of R360 carries. -/
def pinInfo (c : Cmd) : Nat := c.pin.getD 0

/-- Any command that fails: one of this chapter gives back what it holds, and a pinned one reports its
epoch (R360). -/
def endCmd (s : State) (c : Cmd) (e : Err) : State :=
  if s.hod.order.contains c.id then hodFail s c none e
  else fail s c { e with
    info32 := if opIs 0x11 c then c.batch.ready else e.info32
    a := if ownInfo e.status then e.a else pinInfo c }

/-! ### Starting (R306, R317, R326) -/

/-- The course of a stage's engine (R306): a link lies where its buffer does. -/
def courseOf (d : List Byte) (src dst : Option Nat) : Nat :=
  let inStack := fun (a : Option Nat) => a.bind fun x => if x < 2 ^ 40 then some (x / stackBytes) else none
  if byteAt d 6 != 0xFF then byteAt d 6
  else (inStack dst).getD ((inStack src).getD 0)

/-- A stream bound to the engine of its course with fewer streams (R306). -/
def bind (s : State) (course : Nat) (t : Stream) : State :=
  let e := 2 * course +
    (if (boundTo s (2 * course + 1)).length < (boundTo s (2 * course)).length then 1 else 0)
  { s with
    hod := { s.hod with
      streams := s.hod.streams ++ [{ t with id := s.hod.nextStream, engine := e, lastTime := now s }]
      nextStream := s.hod.nextStream + 1 } }

/-- The private link that a stage of a command reads or writes, or the shared link of its key. -/
def linkFor (s : State) (cmd : Nat) (d : List Byte) (j : Nat) : Option Nat :=
  let r := chLink d j
  if lkKey r != 0 then (sharedLink s (lkKey r)).map (·.id)
  else (s.hod.links.find? fun l => l.key == 0 &&
    l.consumer == ((consumers d j).head?.map fun i => (cmd, i))).map (·.id)

/-- One stage of a chain bound. -/
def bindStage (d : List Byte) (c : Cmd) (s : State) (i : Nat) : State :=
  let sd := chStage d i
  let outs := outLinks sd
  let buf := fun j => lkBuffer (chLink d j)
  let tiles := stageTiles d i
  bind s (courseOf sd ((inLink sd).elim (some (hBase sd false)) (fun j => some (buf j)))
      (if hTap sd then none else (outs.head?).elim (some (hBase sd true)) (fun j => some (buf j)))) {
    id := 0, cmd := c.id, stage := i, engine := 0, urgent := c.urgent, desc := sd,
    srcLink := (inLink sd).bind (linkFor s c.id d)
    dstLink := (outs[0]?).bind (linkFor s c.id d)
    dstLink2 := (outs[1]?).bind (linkFor s c.id d)
    plumb := if hTap sd then some (byteAt sd 13) else none
    nextIssue := hStart sd, nextDeliver := hStart sd, taken := hStart sd
    count := tiles.2, tileBytes := tiles.1 }

/-- The links of a chain taken (R316 to R318). The producer of two links may start below the START_TILE
of one of their consumers (R325): its tiles below that do not enter that link (DEDUCED, log 119). -/
def takeLink (d : List Byte) (c : Cmd) (s : State) (j : Nat) : State :=
  let r := chLink d j
  let p := (producers d j).head?.map fun i => (c.id, i)
  let q := (consumers d j).head?.map fun i => (c.id, i)
  let start := fun (l : List Nat) => (l.head?.map fun i => hStart (chStage d i)).getD 0
  let first := max (start (producers d j)) (start (consumers d j))
  match sharedLink s (lkKey r) with
  | some l =>
    { s with
      hod := { s.hod with
        links := mapIf (·.id == l.id) (fun l =>
          if lkEnd r == 0 then { l with producer := p, prodVacant := none }
          else { l with consumer := q, consVacant := none }) s.hod.links } }
  | none =>
    { s with
      hod := { s.hod with
        links := s.hod.links ++ [{
          id := s.hod.nextLink, key := lkKey r, slots := lkSlots r, slotBytes := lkBytes r
          buffer := lkBuffer r, free := lkSlots r, filled := 0, wr := first, rd := first
          first := if lkKey r == 0 then first else 0
          producer := p, consumer := q
          prodVacant := if p.isNone then some (now s) else none
          consVacant := if q.isNone then some (now s) else none }]
        nextLink := s.hod.nextLink + 1 } }

/-- The links that a chain takes from the pool: not those that exist (R317). -/
def newLinks (s : State) (d : List Byte) : Nat :=
  ((List.range (chLinks d)).filter fun j => (sharedLink s (lkKey (chLink d j))).isNone).length

/-- The commands of this chapter dispatched before one. -/
def earlier (s : State) (cmd : Nat) : List Cmd :=
  (s.hod.order.takeWhile (· != cmd)).filterMap (findCmd s)

/-- The units of the Plumb that a set of streams names, or that a scan names. -/
def chainUnits (d : List Byte) : List Nat :=
  (((List.range (chStages d)).map (chStage d)).filter hTap).map fun x => byteAt x 13

/-- The descriptor of a command of this chapter, as it was dispatched. -/
def hodDesc (s : State) (cmd : Nat) : List Byte :=
  ((s.hod.descs.find? (·.1 == cmd)).map (·.2)).getD []

/-- The units that a command of this chapter names. -/
def cmdUnits (s : State) (c : Cmd) : List Nat :=
  let d := hodDesc s c.id
  if opIs 0x52 c then [byteAt d 4] else if opIs 0x51 c then chainUnits d else []

/-- The first unit that is busy, or that an earlier command which has still to start names (R326). -/
def busyUnit (s : State) (cmd : Nat) (units : List Nat) : Option Nat :=
  units.find? fun u => (unitAt s u).busy ||
    (earlier s cmd).any fun x => (streamsOf s x.id).isEmpty && (cmdUnits s x).contains u

/-- The units start, unless one is not set to a width of R327. -/
def startUnits (s : State) (c : Cmd) (units : List Nat) (cont : Bool) (go : State → State) : State :=
  match busyUnit s c.id units with
  | some u => setPhase s c.id (.waiting (.plumb u))
  | none =>
    if units.all fun u => widthOk (unitAt s u) then
      go (setPhase (units.foldl (fun s u =>
        if (unitAt s u).busy then s else updUnit s u (latchUnit cont)) s) c.id .running)
    else hodFail s c none (invalid 0xFF 0 0)

def bindStages (s : State) (c : Cmd) (d : List Byte) : State :=
  (List.range (chStages d)).foldl (bindStage d c) s

/-- A chain takes its links, waiting for the pool where it creates some, and starts once its units are
free (R317, R326). -/
def startChain (s : State) (c : Cmd) (d : List Byte) : State :=
  let held := s.hod.links.any fun l =>
    (l.producer.map (·.1)) == some c.id || (l.consumer.map (·.1)) == some c.id
  let go := fun s => startUnits s c (chainUnits d) false fun s => bindStages s c d
  if held || chLinks d == 0 then go s
  else if newLinks s d != 0 && ((earlier s c.id).any (fun x => x.phase == .waiting .linkPool) ||
      decide (1024 < s.hod.links.length + newLinks s d)) then
    setPhase s c.id (.waiting .linkPool)
  else
    match firstErr ((List.range (chLinks d)).map (linkShareErr s d)) with
    | some e => hodFail s c none e
    | none => go ((List.range (chLinks d)).foldl (takeLink d c) s)

def scanDesc (s : State) (c : Cmd) : List Byte := readBytes s.mem (entDesc c) 32

/-- A scan starts as a stream of 4 KiB tiles (R329). -/
def startScanUnit (s : State) (c : Cmd) (d : List Byte) : State :=
  let start := getLE d 16 8
  let len := getLE d 24 8
  startUnits s c [byteAt d 4] (bit (byteAt d 5) 0) fun s =>
    bind s (courseOf (zeros 6 ++ [0xFF]) (some start) none) {
      id := 0, cmd := c.id, stage := 0, engine := 0, urgent := c.urgent, desc := d
      plumb := some (byteAt d 4), plumbBytes := some (start, len)
      nextIssue := 0, nextDeliver := 0, taken := 0
      count := ceilDiv len 4096, tileBytes := 4096 }

/-- A stream descriptor alone, as a chain of one stage and no link. -/
def asChain (d : List Byte) : List Byte := header 192 ++ [1, 0] ++ zeros 58 ++ d

/-- A command of this chapter is dispatched with its descriptor, and starts, or waits, or goes on where
it stood. -/
def actHod (desc : State → Cmd → List Byte) (start : State → Cmd → State) (s : State) (c : Cmd) :
    State :=
  if (streamsOf s c.id).isEmpty then
    start (if s.hod.order.contains c.id then s
      else { s with hod := { s.hod with
        order := s.hod.order ++ [c.id], descs := s.hod.descs ++ [(c.id, desc s c)] } }) c
  else s

def streamDesc (s : State) (c : Cmd) : List Byte := readBytes s.mem (entDesc c) 128
def chainDesc (s : State) (c : Cmd) : List Byte :=
  readBytes s.mem (entDesc c) (chBytes (readBytes s.mem (entDesc c) 64))
def startStreamCmd (s : State) (c : Cmd) : State := startChain s c (asChain (hodDesc s c.id))
def startChainCmd (s : State) (c : Cmd) : State := startChain s c (hodDesc s c.id)
def startScanCmd (s : State) (c : Cmd) : State := startScanUnit s c (hodDesc s c.id)

def execHodStream (q : QueueId) (s : State) : Host.Outcome State Fault Refusal :=
  .next (runCommand s q.toNat (opIs 0x50)
    (fun _ c => firstErr [resultErr c, descErr c 128])
    (fun _ c => [{ addr := entDesc c, len := 128 }])
    (fun s c => streamErr (streamDesc s c) none 1 0)
    (fun _ c => oneSlot 32 c) (actHod streamDesc startStreamCmd))

def execHodChain (q : QueueId) (s : State) : Host.Outcome State Fault Refusal :=
  .next (runCommand s q.toNat (opIs 0x51)
    (fun _ c => firstErr [resultErr c, descErr c 64])
    (fun s c => [{ addr := entDesc c, len := chBytes (readBytes s.mem (entDesc c) 64) }])
    (fun s c => chainErr s (chainDesc s c))
    (fun s c => oneSlot (16 + 16 * chStages (chainDesc s c)) c) (actHod chainDesc startChainCmd))

def scanErr (s : State) (c : Cmd) : Option Err :=
  let d := scanDesc s c
  let start := getLE d 16 8
  let len := getLE d 24 8
  firstErr [structErr d 32 1 0,
    must (decide (byteAt d 4 ≤ 3)) (invalid 1 0 4),
    must (windowOf start).isSome (invalid 1 0 16),
    must (decide (1 ≤ len) && decide (len ≤ 2 ^ 40)) (invalid 1 0 24),
    must (rangeNamed start len) (invalid 1 0 16)]

def execPlumbScan (q : QueueId) (s : State) : Host.Outcome State Fault Refusal :=
  .next (runCommand s q.toNat (opIs 0x52) (fun _ c => descErr c 32)
    (fun _ c => [{ addr := entDesc c, len := 32 }]) scanErr noSlots (actHod scanDesc startScanCmd))

/-- The start of the command, by its opcode. -/
def startAgain (s : State) (c : Cmd) : State :=
  if opIs 0x50 c then startStreamCmd s c
  else if opIs 0x51 c then startChainCmd s c
  else startScanCmd s c

def execHodLinkPoolWaitEnd (cmd : Nat) (s : State) : Host.Outcome State Fault Refusal :=
  .next (match findCmd s cmd with
    | none => s
    | some c => if c.phase == .waiting .linkPool then startAgain s c else s)

def execPlumbUnitWaitEnd (cmd : Nat) (s : State) : Host.Outcome State Fault Refusal :=
  .next (match findCmd s cmd with
    | none => s
    | some c =>
      match c.phase with
      | .waiting (.plumb _) => startAgain s c
      | _ => s)

/-! ### Tiles (R307, R310, R312, R316, R322, R323) -/

/-- The bytes of the tile that a stream reads next from a link: those of the filled slot. -/
def headSize (s : State) (t : Stream) : Option Nat :=
  if t.nextIssue < t.taken then none
  else (t.srcLink.bind (findLink s)).bind fun l => l.sizes.head?

/-- The bytes of a tile as the stream takes them now: a tap takes the size of the slot (R317). -/
def tileLen (s : State) (t : Stream) (i : Nat) : Nat :=
  match t.plumbBytes with
  | some (_, len) => min 4096 (len - 4096 * i)
  | none => if t.plumb.isSome && !(i < t.taken) then (headSize s t).getD t.tileBytes else t.tileBytes

/-- The slot of a stream's tile in a link, by the link's next number (R316). -/
def slotAddr (l : HodLink) (next : Nat) (t : Stream) (i : Nat) : Nat :=
  l.buffer + (next + i - t.taken) % l.slots * l.slotBytes

/-- Where the bytes of a tile come from, in order. -/
def srcRuns (s : State) (t : Stream) (i : Nat) : List (Nat × Nat) :=
  match t.srcLink.bind (findLink s), t.plumbBytes with
  | some l, _ => [(slotAddr l l.rd t i, tileLen s t i)]
  | none, some (start, _) => [(start + 4096 * i, tileLen s t i)]
  | none, none => (runAddrs t.desc false i).map fun a => (a.toNat, hCount t.desc 0)

/-- The output links that tile `i` of a stream enters. -/
def outputs (s : State) (t : Stream) (i : Nat) : List HodLink :=
  ((t.dstLink.toList ++ t.dstLink2.toList).filterMap (findLink s)).filter fun l => decide (l.first ≤ i)

/-- Runs that follow on one another joined (R313). -/
def joinRuns : List (Nat × Nat) → List (Nat × Nat)
  | [] => []
  | (a, n) :: rest =>
    match joinRuns rest with
    | (b, m) :: more => if a + n == b then (a, n + m) :: more else (a, n) :: (b, m) :: more
    | [] => [(a, n)]

/-- Where a tile goes in memory. A tap and a scan write nothing. -/
def dstRuns (t : Stream) (i : Nat) : List (Nat × Nat) :=
  if t.plumb.isSome || t.dstLink.isSome then []
  else joinRuns ((runAddrs t.desc true i).map fun a => (a.toNat, hCount t.desc 0))

/-- The accesses of a tile. -/
def tileRanges (s : State) (t : Stream) (i : Nat) : List Range :=
  (srcRuns s t i).map (fun r => { addr := r.1, len := r.2 }) ++
  (outputs s t i).map (fun l =>
    { addr := slotAddr l l.wr t i, len := tileLen s t i, write := true }) ++
  (dstRuns t i).map (fun r => { addr := r.1, len := r.2, write := true })

/-- A stage waits for a semaphore (R316, R320): the links, and whether for their producer. -/
def waitsOn (s : State) (t : Stream) : List (HodLink × Bool) :=
  if t.st != 0 || t.nextIssue < t.taken || t.count ≤ t.nextIssue then []
  else
    ((t.srcLink.bind (findLink s)).toList.filter (·.filled == 0)).map (fun l => (l, true)) ++
    ((outputs s t t.nextIssue).filter (·.free == 0)).map (fun l => (l, false))

/-- The stream of a Plumb unit that runs: the first bound one (R326). -/
def ownsUnit (s : State) (t : Stream) : Bool :=
  match t.plumb with
  | none => true
  | some u => ((s.hod.streams.find? fun x => x.plumb == some u && x.st != 1).map (·.id)) == some t.id

/-- What stands in the way of a stream's next tile. -/
def issueBlock (s : State) (t : Stream) : Option (Nat × Range × Reach) :=
  reachRanges s t.got (tileRanges s t t.nextIssue)

/-- Able to issue (R307). A tile that writes to a unit in motion waits (R294). -/
def canIssue (s : State) (t : Stream) : Bool :=
  t.st == 0 && decide (t.nextIssue < t.count) && t.waits.isNone && ownsUnit s t &&
  (t.own.isSome || (waitsOn s t).isEmpty) &&
  (t.inFlight.isEmpty || t.plumb.isNone || tileLen s t t.nextIssue == t.tileBytes) &&
  ((issueBlock s t).map (·.2.2)) != some .moving

/-- The next stream of an engine to be given a place (R307). -/
def nextToIssue (s : State) (e : Nat) : Option Stream :=
  let all := (boundTo s e).filter (canIssue s)
  let urgent := all.filter (·.urgent)
  let l := if urgent.isEmpty then all else urgent
  let last := s.hod.rr.getD e 0
  match l.find? fun t => decide (last < t.id) with
  | some t => some t
  | none => l.head?

/-- A tile meets a tier fault: the stage halts at its saved position and waits (R322), or with the
fault queue disabled its command ends (R288). -/
def haltStream (s : State) (c : Cmd) (t : Stream) (u cause : Nat) (r : Range) : State :=
  if s.tiers.enable then
    openFault (updStream s t.id fun t => { t with st := 2 }) (some (.stream t.id)) u cause r
      (courseStop (t.engine / 2))
  else hodFail s c (some t.stage) { status := 0x20, a := u }

/-- The counts that a tile takes from its links, once (R316, R323). -/
def takeCounts (t : Stream) (l : HodLink) : HodLink :=
  let src := t.srcLink == some l.id
  let dst := (t.dstLink == some l.id || t.dstLink2 == some l.id) && decide (l.first ≤ t.nextIssue)
  if t.nextIssue < t.taken then l
  else { l with
    filled := l.filled - b2n src
    sizes := if src then l.sizes.drop 1 else l.sizes
    rd := l.rd + b2n src
    free := l.free - b2n dst
    wr := l.wr + b2n dst }

/-- A tile goes in flight. -/
def issueTile (s : State) (t : Stream) : State :=
  let i := t.nextIssue
  let n := if t.plumbBytes.isSome then t.tileBytes else tileLen s t i
  { s with
    hod := { s.hod with
      links := s.hod.links.map (takeCounts t)
      rr := modAt s.hod.rr t.engine fun _ => t.id
      streams := mapIf (·.id == t.id) (fun t => { t with
        nextIssue := i + 1
        taken := max t.taken (i + 1)
        tileBytes := n
        got := []
        inFlight := t.inFlight ++ [i] }) s.hod.streams } }

/-- A domain of R536 is on. -/
def domainOn (s : State) (i : Nat) : Bool := s.power.domains.getLsbD i
/-- The domains of a Brick, and of the Slab. -/
def brickOn (s : State) (b : Nat) : Bool := domainOn s (12 + b / 8)
def slabOn (s : State) : Bool := (List.range 4).all (domainOn s)

/-- Work for a block whose domain is off is held, and the domain powered up (R30, R32). -/
def holdWork (s : State) : State := { s with power := { s.power with wake := true } }

/-- The engines of a course take no work while its domain is off (R32). -/
def engineOn (s : State) (e : Nat) : Bool := domainOn s (4 + e / 2)

/-- A stream's next tile waits: for data asked of its home, or for the course that is off (R32, R454). -/
def holdTile (s : State) (t : Stream) (u : Nat) (r : Range) (x : Reach) : State :=
  let wait := fun (w : Wait) => askPart (updStream s t.id fun t => { t with
    waits := some w, got := t.got ++ [partKey r u] }) (.stream t.id) r u x
  match x with
  | .host => wait .host
  | .far l => wait (.far l)
  | .peer _ => wait (.peer s.mortar.nextTag)
  | .off => updStream (holdWork s) t.id fun t => { t with waits := some .domain }
  | _ => s

/-- The place given to a stream: its next tile goes in flight, or meets what stands in its way. -/
def tryIssue (s : State) (c : Cmd) (t : Stream) : State :=
  if t.plumb.isNone && (headSize s t).elim false (· != t.tileBytes) then
    hodFail s c (some t.stage) (invalid 0xFF 0 0)
  else
    match issueBlock s t with
    | none => issueTile s t
    | some (u, r, .fault cause) => haltStream s c t u cause r
    | some (_, _, .ends st) => hodFail s c (some t.stage) { status := st }
    | some (u, r, x) => holdTile s t u r x

/-- Tiles in flight on an engine (R307, R336). -/
def tilesInFlight (s : State) (e : Nat) : Nat :=
  ((s.hod.streams.filter (·.engine == e)).map (·.inFlight.length)).sum

/-! ### The module's own streams (R306, R307, R313) -/

/-- A stream of the module's own bound for one tile, by the name that it reads first (DESIGN CHOICE,
log 118). -/
def bindOwn (s : State) (o : Own) (cmd : Nat) (urgent : Bool) (src : Option Nat) : State :=
  bind s (courseOf (zeros 6 ++ [0xFF]) src none) {
    id := 0, cmd := cmd, stage := 0, own := some o, engine := 0, urgent := urgent, desc := []
    nextIssue := 0, nextDeliver := 0, taken := 0, count := 1, tileBytes := 0 }

def findOwn (s : State) (o : Own) : Option Stream := s.hod.streams.find? fun t => t.own == some o

/-- The tile of a stream of the module's own goes in flight, if it is not and its engine has a place
(R307). -/
def startOwn (s : State) (o : Own) : State :=
  match findOwn s o with
  | none => s
  | some t =>
    let s1 := updStream s t.id fun t => { t with st := 0, nextIssue := t.inFlight.length }
    if t.inFlight.isEmpty && decide (tilesInFlight s t.engine < 8) && engineOn s t.engine then
      issueTile s1 { t with st := 0, nextIssue := 0 }
    else s1

/-- A stream of the module's own halts for a tier fault (R322). -/
def haltOwn (s : State) (o : Own) : State :=
  { s with hod := { s.hod with
      streams := mapIf (fun t => t.own == some o) (fun t => { t with st := 2, inFlight := [] })
        s.hod.streams } }

/-- The tile of a stream of the module's own is in flight. -/
def ownInFlight (s : State) (o : Own) : Bool := (findOwn s o).elim false fun t => !t.inFlight.isEmpty

/-- A stream of the module's own ends. -/
def dropOwn (s : State) (o : Own) : State :=
  { s with hod := { s.hod with streams := s.hod.streams.filter fun t => t.own != some o } }

/-- Its tile is delivered, and the stream ends (R312, R337). -/
def endOwn (s : State) (o : Own) : State :=
  match findOwn s o with
  | none => s
  | some t =>
    let s1 := dropOwn s o
    { s1 with hod := { s1.hod with
        delivered := modAt s1.hod.delivered t.engine fun n => (n + 1) % 2 ^ 64 } }

/-! ### Delivery (R312, R316, R329, R330) -/

/-- Bytes laid down over runs in order. A contiguous tile of a neighbour's unit leaves as
ceil(Tb / 65,536) messages (R313); a message has one ADDRESS (R445), so each further run has its own
(DESIGN CHOICE, log 117). -/
def writeRuns (stream : Nat) : List (Nat × Nat) → List Byte → State → State
  | [], _, s => s
  | (a, n) :: rest, bs, s =>
    writeRuns stream rest (bs.drop n) (deviceWrite s (some (.stream stream)) a (bs.take n))

/-- What a link gains when a tile of a stream is delivered. -/
def signal (t : Stream) (i : Nat) (n : Nat) (l : HodLink) : HodLink :=
  let last := i + 1 == t.count
  let src := t.srcLink == some l.id
  let out := t.dstLink == some l.id || t.dstLink2 == some l.id
  let dst := out && decide (l.first ≤ i)
  { l with
    free := l.free + b2n src
    filled := l.filled + b2n dst
    sizes := if dst then l.sizes ++ [n] else l.sizes
    prodEnded := l.prodEnded || (last && out)
    consEnded := l.consEnded || (last && src) }

/-- A shared link whose two ends have ended is back in the pool (R317). -/
def bothEnded (l : HodLink) : Bool := l.key != 0 && l.prodEnded && l.consEnded

/-- The completion of a command whose stages have all delivered their last tile. -/
def hodDone (s : State) (c : Cmd) (result : Nat) : State :=
  let ts := streamsOf s c.id
  if ts.isEmpty || ts.any (·.st != 1) then s
  else
    let s1 := match ((findCmd s c.id).getD c).slots with
      | (a, _) :: _ => slotReady s c.id a 0 (reportBytes ts none 0) 0xFFFFFFFF
      | [] => s
    succeed (releaseHod s1 c.id) c 0 0 0 (if opIs 0x52 c then result else 0) 0

/-- The unit of a tap or scan that is done; the next tap of the chain on that unit starts. -/
def nextTap (s : State) (c : Cmd) (u : Nat) : State :=
  match s.hod.streams.find? fun x => x.plumb == some u && x.st != 1 with
  | none => updUnit s u finishUnit
  | some x =>
    let s1 := updUnit s u finishUnit
    if widthOk (unitAt s1 u) then updUnit s1 u (latchUnit false)
    else hodFail s1 c (some x.stage) (invalid 0xFF 0 0)

/-- The bytes of a tile. -/
def tileData (s : State) (t : Stream) (i : Nat) : List Byte :=
  (srcRuns s t i).flatMap fun r => readBytes s.mem r.1 r.2

/-- A tile written at its destination, or into its slots. -/
def writeTile (s : State) (t : Stream) (i : Nat) : State :=
  let bs := tileData s t i
  writeRuns t.id ((outputs s t i).map fun l => (slotAddr l l.wr t i, bs.length))
    ((outputs s t i).flatMap fun _ => bs) (writeRuns t.id (dstRuns t i) bs s)

/-- The tile in front of a stream, which has been written, is delivered. -/
def deliver (s : State) (c : Cmd) (t : Stream) (i : Nat) : State :=
  let bs := tileData s t i
  let last := i + 1 == t.count
  let s2 := match t.plumb with
    | some u => updUnit s u (absorb bs)
    | none => s
  let s3 := { s2 with
    hod := { s2.hod with
      links := (s2.hod.links.map (signal t i bs.length)).filter fun l => !bothEnded l
      delivered := modAt s2.hod.delivered t.engine fun n => (n + 1) % 2 ^ 64
      streams := mapIf (·.id == t.id) (fun t => { t with
        inFlight := t.inFlight.drop 1
        nextDeliver := i + 1
        sent := false
        st := if last then 1 else t.st
        lastTime := now s }) s2.hod.streams } }
  if last then
    match t.plumb with
    | some u => hodDone (nextTap s3 c u) c (plumbResult (unitAt s3 u))
    | none => hodDone s3 c 0
  else s3

/-- A tile's accesses: the data they read have come. -/
def tileUnits (s : State) (t : Stream) (i : Nat) : List Nat := (tileRanges s t i).flatMap partKeys

/-- The tile in front is out of flight without having been delivered (R322). -/
def dropTile (s : State) (t : Stream) : State :=
  updStream s t.id fun t => { t with inFlight := t.inFlight.drop 1, sent := false }

/-- The tile in front is written and then, once the homes outside the module have answered the writes,
delivered (R312). -/
def landTile (s : State) (c : Cmd) (t : Stream) (i : Nat) : State :=
  let s1 := if t.sent then s else writeTile (updStream s t.id fun t => { t with sent := true }) t i
  if writesOut s1 (.stream t.id) then s1 else deliver s1 c t i

/-- A tile in flight finishes or meets a fault, which halts its stage. Behind a fault the tiles in flight
finish, undelivered, or fault (R322); the stage will fetch them again whole (R323). -/
def tryDeliver (s : State) (c : Cmd) (t : Stream) (i : Nat) : State :=
  match reachRanges s (tileUnits s t i) (tileRanges s t i) with
  | none => if t.st == 2 then dropTile (writeTile s t i) t else landTile s c t i
  | some (u, r, .fault cause) => haltStream (dropTile s t) c t u cause r
  | some (_, _, .ends st) => hodFail s c (some t.stage) { status := st }
  | some _ => s

/-- A halted stream goes on at the tile after its saved position (R323). -/
def resumeStream (s : State) (id : Nat) : State :=
  updStream s id fun t => if t.st == 2 then
    { t with st := 0, inFlight := [], nextIssue := t.nextDeliver, sent := false, lastTime := now s }
    else t

/-- The data that a stream's next tile waited for have come. -/
def wakeStream (s : State) (id : Nat) : State := updStream s id fun t => { t with waits := none }

/-! ### The stall watchdog (R320, R321) -/

/-- Where a wait-for path ends: at the stage it left from, with the stages on it, or at an end that
has ended or has long been vacant. -/
inductive PathEnd where
  | cycle (ids : List Nat)
  | dead
  deriving DecidableEq, Repr

def watchNs (s : State) : Nat := s.sched.watchdog * 1000

/-- The stream at one end of a link, or whether that end is dead (R320). -/
def endOf (s : State) (l : HodLink) (prod : Bool) : Option Stream × Bool :=
  let e := if prod then l.producer else l.consumer
  let ended := if prod then l.prodEnded else l.consEnded
  let vac := if prod then l.prodVacant else l.consVacant
  let t := e.bind fun x => (streamsOf s x.1).find? fun t => t.stage == x.2
  (if ended then none else t,
    ended || (t.isNone && vac.elim false fun v => decide (v + watchNs s ≤ now s)))

/-- The ends of the wait-for paths from a stage, in order. -/
def waitPaths (s : State) (home : Nat) : Nat → List Nat → Stream → List PathEnd
  | 0, _, _ => []
  | n + 1, seen, t =>
    (waitsOn s t).flatMap fun w =>
      match endOf s w.1 w.2 with
      | (_, true) => [.dead]
      | (some x, false) =>
        if x.id == home then [.cycle (seen ++ [t.id])]
        else if seen.contains x.id || !x.inFlight.isEmpty then []
        else waitPaths s home n (seen ++ [t.id]) x
      | (none, false) => []

/-- The commands of a set of streams. -/
def cmdsOf (s : State) (ids : List Nat) : List Nat :=
  (s.hod.streams.filter fun t => ids.contains t.id).map (·.cmd)

/-- The command dispatched last among some. -/
def youngest (s : State) (cmds : List Nat) : Option Nat :=
  (s.hod.order.filter cmds.contains).getLast?

/-- A command ends with STREAM_DEADLOCK (R321). -/
def deadlock (s : State) (cmd stage : Nat) : State :=
  match findCmd s cmd with
  | none => s
  | some c => hodFail s c (some stage) { status := 0x22 }

/-- The cases of R320 for a stalled stage, the first that applies. -/
def examine (s : State) (t : Stream) : State :=
  let ends := waitPaths s t.id (s.hod.streams.length + 1) [] t
  let loop := ends.findSome? fun e => match e with
    | .cycle ids => if (cmdsOf s ids).any (· != t.cmd) then some ids else none
    | .dead => none
  match loop with
  | some ids =>
    match youngest s (cmdsOf s ids) with
    | none => s
    | some cmd =>
      let st := ((streamsOf s cmd).find? fun x => ids.contains x.id).map (·.stage)
      deadlock s cmd (st.getD 0)
  | none => if ends.contains .dead then deadlock s t.cmd t.stage else s

def execHodWatchdogExpiry (stream : Nat) (s : State) : Host.Outcome State Fault Refusal :=
  .next (match findStream s stream with
    | none => s
    | some t =>
      if s.sched.watchdog != 0 && !(waitsOn s t).isEmpty && decide (t.lastTime + watchNs s ≤ now s)
      then examine s t
      else s)

end Sys2Proof.Machine
end

