-- ==== Sys2Proof/Machine/Tiers.lean ====
section
/-!
DEFINITION. Memory tiers, MIGRATE, tier faults and far memory (R271 to R305).
-/

namespace Sys2Proof.Machine

/-! ### Room in the Tile and Bulk regions (R65) -/

/-- Usable Tile bytes of one Brick: 7t/3 TiB over 64 Bricks, in whole units (R65). -/
def tileShare (s : State) : Nat := 7 * tileSixteenths s * 2 ^ 40 / 3 / 64 / unitBytes * unitBytes
/-- Usable Bulk bytes of one Brick: 48(16 - t)/7 TiB over 64 Bricks, in whole units (R65). -/
def bulkBrick (s : State) : Nat :=
  48 * (16 - tileSixteenths s) * 2 ^ 40 / 7 / 64 / unitBytes * unitBytes
/-- A Brick's Tile bytes less those of its failed dies (R65, R555). -/
def tileOf (s : State) (b : Nat) : Nat :=
  tileShare s - (s.bricks.getD b {}).deadDies.length * (tileShare s / 8)
/-- The dies marked failed (R555). -/
def deadDies (s : State) : Nat := (s.bricks.map (·.deadDies.length)).sum
/-- Usable Tile bytes of the module (R65, R599). -/
def tileBytes (s : State) : Nat := 64 * tileShare s - deadDies s * (tileShare s / 8)
/-- Usable Bulk bytes of the module (R65, R599). -/
def bulkShare (s : State) : Nat := 64 * bulkBrick s - deadDies s * (bulkBrick s / 8)

/-- Bytes of the Bulk images of a collection's durable objects: the units homed in Bulk have none
(R171). -/
def imageBytes (s : State) (c : Coll) : Nat :=
  ((c.areas.filter (·.durable)).map fun a =>
    a.bytes - ((s.tiers.entries.filter fun e => e.home == .bulk && decide (a.name ≤ e.unit) &&
      decide (e.unit < a.name + a.bytes)).length * unitBytes)).sum

/-- Bytes of a sequence's durable image: its descriptor, its length, page table and summaries, in
16 KiB pages (R267). -/
def kvImageBytes (q : KvSeq) : Nat :=
  if q.image.isNone then 0 else roundUp (72 + (q.units.map (·.2)).sum) 16384

/-- Bulk bytes in use: units homed there, images (R171, R267) and key-value pages, in 16 KiB
pages. -/
def bulkInUse (s : State) : Nat :=
  (s.tiers.entries.filter (fun e => e.home == .bulk)).length * unitBytes +
  (s.index.colls.map (imageBytes s)).sum +
  (s.kv.seqs.map fun q => (q.pages.map fun p => roundUp p.bulk.length 16384).sum +
    kvImageBytes q).sum

/-! ### Homes -/

/-- A unit's home and flags recorded; an entry is kept only where it says something (R276). -/
def setHome (s : State) (u : Nat) (h : Home) (fault moving : Bool) : State :=
  let keep := h != plainHome s u || fault || moving
  { s with
    tiers := { s.tiers with
      entries := s.tiers.entries.filter (fun e => e.unit != u) ++
        (if keep then [{ unit := u, home := h, faultOn := fault, moving := moving }] else []) } }

/-- The partition units of a stack that have an entry or are part of an object, each once. -/
def partUnits (s : State) : List Nat :=
  let units := fun (a n : Nat) => (List.range (ceilDiv (a % unitBytes + n) unitBytes)).map fun i =>
    unitOf a + i * unitBytes
  let all := s.tiers.entries.map (·.unit) ++
    s.index.colls.flatMap (fun k => k.areas.flatMap fun a => units a.name a.bytes) ++
    s.kv.seqs.flatMap fun q => q.units.flatMap (fun a => units a.1 a.2) ++
      (q.pages.filter (·.st == 1)).map fun p => unitOf p.loc
  (all.filter fun u => windowOf u == some 0 && (regionOf s u == 2 || regionOf s u == 3)).foldl
    (fun l u => if l.contains u then l else u :: l) []

/-- Translator entries in use (R276, R305): units away from their default home, and vacant units
that have one; every vacant unit of the free-space partitions is such a unit, and after a recovery
every partition unit of no object (R300). -/
def entriesInUse (s : State) : Nat :=
  let sum := fun (f : Nat → Nat) => ((List.range 8).map f).sum
  let free := sum (partFree s)
  let placed := (s.tiers.entries.filter fun e =>
    windowOf e.unit == some 0 && regionOf s e.unit == 1 && e.home != .vacant).length
  let away := (s.tiers.entries.filter fun e =>
    e.home != ownHome e.unit && !(e.home == .vacant && windowOf e.unit == some 0 &&
      regionOf s e.unit == 1)).length
  let lost := if s.tiers.recovered then sum (partKv s) + sum (partIndex s) - (partUnits s).length
    else 0
  (if s.quoin.active.isSome then free + lost else 0) - placed + away

/-- A unit is pinned (R278). -/
def pinned (s : State) (u : Nat) : Bool :=
  (windowOf u == some 0 && (regionOf s u == 0 || regionOf s u == 4)) ||
  (takenAreas s).any (fun r => overlaps u unitBytes r.1 r.2)

/-- A unit of the export area while the export is enabled (R453, R473). -/
def exported (s : State) (u : Nat) : Bool :=
  let e := s.mortar.exportReg.toNat
  let base := bits e 39 21 * unitBytes
  bit e 63 && decide (base ≤ u) && decide (u < base + bits e 17 0 * unitBytes)

/-- A destination frame that a running MIGRATE has claimed and not yet filled (R293). -/
def claimed (s : State) (d : Nat) : Bool :=
  s.tiers.migrations.any fun m =>
    m.tier != 1 && m.tier != 2 && decide (m.dest ≤ d) && decide (d < m.dest + m.units * unitBytes)

/-- A frame is free when no unit has it as home (R279). -/
def frameFree (s : State) (d : Nat) : Bool :=
  homeOf s d != ownHome d && !(s.tiers.entries.any fun e => e.home == ownHome d) && !claimed s d

/-! ### MIGRATE (R290 to R296) -/

def migAction (s : State) (c : Cmd) : Nat := (readByte s.mem (entDesc c + 4)).toNat
def migUnits (d : List Byte) : List Nat :=
  (List.range (getLE d 8 4)).map fun i => getLE d 16 8 + i * unitBytes
def migDests (d : List Byte) : List Nat :=
  (List.range (getLE d 8 4)).map fun i => getLE d 24 8 + i * unitBytes

/-- The window of a destination tier (R290). -/
def tierWindow (tier : Nat) (a : Nat) : Bool :=
  match tier, windowOf a with
  | 0, some 0 => true
  | 3, some 1 => true
  | 4, some 2 => true
  | 5, some (_ + 4) => true
  | _, _ => false

/-- The checks of a MIGRATE descriptor's fields (R290, R292). -/
def migErr (_ : State) (d : List Byte) : Option Err :=
  let act := byteAt d 4
  let tier := byteAt d 5
  let n := getLE d 8 4
  let src := getLE d 16 8
  let dst := getLE d 24 8
  firstErr [
    structErr d 32 1 0,
    must (decide (act ≤ 4)) (invalid 1 0 4),
    must (act != 0 || decide (tier ≤ 5)) (invalid 1 0 5),
    must (decide (1 ≤ n) && decide (n ≤ 65536)) (invalid 1 0 8),
    must (src % unitBytes == 0 && rangeNamed src (n * unitBytes)) (invalid 1 0 16),
    must (act != 0 ||
      (if tier == 1 || tier == 2 then dst == 0
       else dst % unitBytes == 0 && rangeNamed dst (n * unitBytes) && tierWindow tier dst &&
         tierWindow tier (dst + (n - 1) * unitBytes) &&
         !overlaps src (n * unitBytes) dst (n * unitBytes))) (invalid 1 0 24)]

/-- A unit is allowed for an action (R278, R279, R291, R453). -/
def unitAllowed (s : State) (act tier u : Nat) : Bool :=
  let extent := windowOf u == some 3
  !exported s u &&
  (match act with
   | 0 => homeOf s u != .vacant && !pinned s u &&
      (if extent then tier == 0 || tier == 1 else tier != 1)
   | 1 => homeOf s u == .vacant && windowOf u == some 0 && frameFree s u
   | 2 => homeOf s u != .vacant && !pinned s u
   | 3 => !pinned s u
   | _ => true)

/-- A destination frame exists and is free (R272, R292). -/
def destOk (s : State) (d : Nat) : Bool :=
  (match backing s (ownHome d) with | .fault _ => false | _ => true) && frameFree s d

/-- The Brick whose Tile a flash name lies in (R273). -/
def brickOfName (u : Nat) : Nat := (u - flashBase) / 2 ^ 41

/-- R292 over the units, first applicable status. -/
def migUnitErr (s : State) (d : List Byte) : Option Err :=
  let act := byteAt d 4
  let tier := byteAt d 5
  let us := migUnits d
  let ds := if act == 0 && tier != 1 && tier != 2 then migDests d else []
  let room :=
    if act != 0 then true
    else if tier == 2 then
      decide (bulkInUse s + (us.filter fun u => homeOf s u != .bulk).length * unitBytes ≤
        bulkShare s)
    else if tier == 1 then
      (List.range 64).all fun b =>
        decide ((s.bricks.getD b {}).tileUsed +
          (us.filter fun u => brickOfName u == b && homeOf s u != .tile).length * unitBytes ≤
          tileOf s b)
    else true
  let more := if act == 0 || act == 2 then (us.filter fun u => homeOf s u == ownHome u).length else 0
  let blocked := fun (st : Nat) => ds.any fun x => backing s (ownHome x) == .ends st
  firstErr [
    must (us.all (unitAllowed s act tier)) (invalid 1 0 16),
    must (ds.all (destOk s)) (invalid 1 0 24),
    must (room && decide (entriesInUse s + more ≤ 16777216)) { status := 0x14 },
    must (!blocked 0x41) { status := 0x41 },
    must (!blocked 0x40) { status := 0x40 }]

/-- The wait of R293, the checks of R292, and then the action. -/
def migrate (s : State) (c : Cmd) (act : State → List Byte → State) : State :=
  let d := readBytes s.mem (entDesc c) 32
  if movingElsewhere s (migUnits d) then setPhase s c.id (.waiting .migrate)
  else
    match migUnitErr s d with
    | some e => fail s c e
    | none => act s d

/-- An action that takes effect at once on every unit. -/
def migrateEach (s : State) (c : Cmd) (f : State → Nat → State) : State :=
  migrate s c fun s d =>
    succeed ((migUnits d).foldl f s) c 0 0 (migUnits d).length 0 0

def migRange (_ : State) (c : Cmd) : List Range := [{ addr := entDesc c, len := 32 }]
def migCheck (s : State) (c : Cmd) : Option Err := migErr s (readBytes s.mem (entDesc c) 32)
def migPre (_ : State) (c : Cmd) : Option Err := descErr c 32

def isMigrate (s : State) (a : Nat) (c : Cmd) : Bool := opIs 0x53 c && migAction s c == a
/-- MOVE, and a MIGRATE whose ACTION is none of R290. -/
def isMove (s : State) (c : Cmd) : Bool :=
  opIs 0x53 c && (migAction s c == 0 || decide (4 < migAction s c))

/-- Step 1 of R294 for a unit. -/
def markMoving (s : State) (u : Nat) : State := setHome s u (homeOf s u) (faultOn s u) true

/-- The home of the `i`-th unit of a move (R290). -/
def moveHome (m : Migration) (i : Nat) : Home :=
  let d := m.dest + i * unitBytes
  if m.tier == 1 then .tile else if m.tier == 2 then .bulk else ownHome d

/-- The unit that a move is at. -/
def moveUnit (m : Migration) : Nat := m.source + m.done * unitBytes

def findMove (s : State) (cmd : Nat) : Option Migration := s.tiers.migrations.find? (·.cmd == cmd)
def updMove (s : State) (cmd : Nat) (f : Migration → Migration) : State :=
  { s with tiers := { s.tiers with migrations := mapIf (·.cmd == cmd) f s.tiers.migrations } }

/-- The copy of a unit goes on (R294): its contents, once all of them are here, go to the destination. -/
def copyOn (s : State) (cmd : Nat) : State :=
  match findMove s cmd with
  | none => s
  | some m =>
    if m.sent || accessOut s (.cmd cmd) false then s
    else homeWrite (some (.cmd cmd)) (updMove s cmd fun m => { m with sent := true })
      (moveHome m m.done) (moveUnit m) (readBytes s.mem (moveUnit m) unitBytes)

/-- Steps 1 and 2 of R294 begin for the unit that a move is at: contents that lie with the companion or a
neighbour are asked for. -/
def startCopy (s : State) (cmd : Nat) : State :=
  match findMove s cmd with
  | none => s
  | some m =>
    let u := moveUnit m
    copyOn (askPart (markMoving s u) (.cmd cmd) { addr := u, len := unitBytes } u
      (backing s (homeOf s u))) cmd

/-- A move that writes or reads encrypted media (R519, R524). -/
def moveNeedsKey (s : State) (d : List Byte) : Bool :=
  byteAt d 5 == 1 || byteAt d 5 == 2 ||
  (migUnits d).any fun u => homeOf s u == .tile || homeOf s u == .bulk

def actMove (s : State) (c : Cmd) : State :=
  migrate s c fun s d =>
    let src := getLE d 16 8
    if s.lintel.withheld && moveNeedsKey s d then fail s c { status := 0x50 }
    else
    startCopy { s with
      tiers := { s.tiers with
        migrations := s.tiers.migrations ++ [{
          cmd := c.id, tier := byteAt d 5, source := src
          dest := getLE d 24 8, units := getLE d 8 4 }] } } c.id

def execMigrateMove (q : QueueId) (s : State) : Host.Outcome State Fault Refusal :=
  .next (runCommand s q.toNat (isMove s) migPre migRange migCheck noSlots actMove)

/-- PLACE of one unit (R291). -/
def placeUnit (s : State) (u : Nat) : State :=
  let s1 := setHome s u (.stack u) false false
  { s1 with mem := freeUnit s1.mem u s1.drawn, drawn := s1.drawn + 1 }

def execMigratePlace (q : QueueId) (s : State) : Host.Outcome State Fault Refusal :=
  .next (runCommand s q.toNat (isMigrate s 1) migPre migRange migCheck noSlots
    fun s c => migrateEach s c placeUnit)

/-- Tile bytes of the Bricks after a unit goes from one home to another (R65). -/
def moveTile (bs : List Brick) (u : Nat) (old new : Home) : List Brick :=
  modAt bs (brickOfName u) fun b => { b with
    tileUsed := b.tileUsed + (if new == .tile && old != .tile then unitBytes else 0) -
      (if old == .tile && new != .tile then unitBytes else 0) }

/-- VACATE of one unit (R291). -/
def vacateUnit (s : State) (u : Nat) : State :=
  let s1 := setHome s u .vacant false false
  { s1 with
    mem := dropUnit s1.mem u
    bricks := if windowOf u == some 3 then moveTile s.bricks u (homeOf s u) .vacant else s.bricks }

def execMigrateVacate (q : QueueId) (s : State) : Host.Outcome State Fault Refusal :=
  .next (runCommand s q.toNat (isMigrate s 2) migPre migRange migCheck noSlots
    fun s c => migrateEach s c vacateUnit)

def execMigrateFaultOn (q : QueueId) (s : State) : Host.Outcome State Fault Refusal :=
  .next (runCommand s q.toNat (isMigrate s 3) migPre migRange migCheck noSlots
    fun s c => migrateEach s c fun s u => setHome s u (homeOf s u) true (movingUnit s u))

def execMigrateFaultOff (q : QueueId) (s : State) : Host.Outcome State Fault Refusal :=
  .next (runCommand s q.toNat (isMigrate s 4) migPre migRange migCheck noSlots
    fun s c => migrateEach s c fun s u => setHome s u (homeOf s u) false (movingUnit s u))

/-- A move is over: its claimed frames are released. -/
def dropMove (s : State) (cmd : Nat) : State :=
  { s with tiers := { s.tiers with migrations := s.tiers.migrations.filter (·.cmd != cmd) } }

/-- The copy of a unit fails (R295): the unit and the later ones keep their old homes, and requests of the
companion that waited for it are served. -/
def migrateFail (s : State) (m : Migration) (e : Err) : State :=
  let u := moveUnit m
  let s1 := serveDevs (dropMove (setHome s u (homeOf s u) (faultOn s u) false) m.cmd)
  match findCmd s1 m.cmd with
  | some c => fail s1 c { e with info32 := m.done }
  | none => s1

/-- Accesses that translated to a unit's old home are outstanding (R294). -/
def oldHomeBusy (s : State) (u : Nat) : Bool :=
  s.mortar.reqs.any (fun r => r.unit == u && (r.kind == 1 || r.kind == 2)) ||
  match homeOf s u with
  | .companion p => s.uzone.reqs.any fun r =>
      (r.kind == 3 || r.kind == 4 || r.kind == 5) && decide (p ≤ r.addr) && decide (r.addr < p + unitBytes)
  | _ => false

/-- Steps 3 to 5 of R294 for the unit that moves, and steps 1 and 2 for the next; or the end of R295. -/
def migrateDone (s : State) (m : Migration) : State :=
  let u := moveUnit m
  match findCmd s m.cmd with
  | none => dropMove s m.cmd
  | some c =>
    let h := moveHome m m.done
    let s1 := { setHome s u h false false with
      bricks := if windowOf u == some 3 then moveTile s.bricks u (homeOf s u) h else s.bricks }
    if m.done + 1 < m.units then
      startCopy (updMove s1 m.cmd fun x => { x with done := x.done + 1, sent := false }) m.cmd
    else succeed (dropMove s1 m.cmd) c 0 0 m.units 0 0

/-- The copy of a unit ends. The new home is recorded only once every access that translated to the old
one has completed, so that steps 4 and 5 of R294 are one (DESIGN CHOICE, log 127). -/
def unitDone (s : State) (cmd : Nat) (result : CopyEnd) : State :=
  match findMove s cmd with
  | none => s
  | some m =>
    if (findCmd s cmd).elim false (opIs 0x24) then s
    else match result with
      | .ok => if m.sent && !accessOut s (.cmd cmd) true && !oldHomeBusy s (moveUnit m) then migrateDone s m
        else s
      | .mediaError => migrateFail s m { status := 0x32 }
      | .linkDown => migrateFail s m { status := 0x40 }
      | .peerLost => migrateFail s m { status := 0x41 }

/-! ### The fault queue (R301 to R303) -/

/-- A write of TIER_FAULT_QUEUE_CONTROL (R302, R303), and the records it makes room for (R287). -/
def writeTierControl (s : State) (v : BitVec 32) : State :=
  let on := v.getLsbD 31
  let start := on && !s.tiers.enable
  postFaults { s with
    tiers := { s.tiers with
      enable := on
      head := v.extractLsb' 12 12
      tail := if start then 0 else s.tiers.tail
      phase := if start then true else s.tiers.phase } }

/-! ### Far memory (R297, R298) -/

def execXfCapacityChange (link : BitVec 2) (bytes : Nat) (s : State) :
    Host.Outcome State Fault Refusal :=
  .next { s with tiers := { s.tiers with xfCap := modAt s.tiers.xfCap link.toNat fun _ => bytes } }

end Sys2Proof.Machine
end

