-- ==== Sys2Proof/Machine/Collections.lean ====
section
/-!
DEFINITION. Collections, sketches and the flash layout (R35 to R68), the projection matrix and code
book of a create (R221, R602), range locks (R173 to R175), sealing (R168 to R170), and
COLLECTION_CREATE and COLLECTION_DROP (R38, R39, R176).
-/

namespace Sys2Proof.Machine

/-- The entries in which two ID maps differ. -/
def idChanged (old new : List (Nat × Nat × Nat)) : List Nat :=
  ((old ++ new).foldl (fun l e => if l.contains e.1 then l else l ++ [e.1]) []).filter fun i =>
    idAt old i != idAt new i

/-- Write the entries of an ID map that differ from those of an older one. -/
def writeIdMap (s : State) (owner : Option Owner) (d : List Byte)
    (old new : List (Nat × Nat × Nat)) : State :=
  (idChanged old new).foldl
    (fun s i => deviceWrite s owner (dIdMap d + 16 * i) (idEntryBytes (idAt new i))) s

/-- What a lookup of vector IDs in the ID map reads (R64, R281). -/
def idReadRanges (m : Mem) (d : List Byte) (n : Nat) (vids : List Nat) : List Range :=
  vids.flatMap fun v => (idProbe m d v (n + 1) (idHome (dIdEntries d) v)).1.map fun j =>
    { addr := dIdMap d + 16 * j, len := 16, kind := 1 }

/-- What a change of the ID map writes. -/
def idWriteRanges (d : List Byte) (old new : List (Nat × Nat × Nat)) : List Range :=
  (idChanged old new).map fun i => { addr := dIdMap d + 16 * i, len := 16, kind := 3, write := true }

/-! ### Collections and their areas -/

/-- The name of a slot's Wall block (R53, R54, R273). -/
def blockAddr (c : Coll) (slot : Nat) : Nat :=
  c.extents.getD (brickOf slot) 0 + blockIndex slot * dBlock c.desc

/-- The re-rank copy of a slot as its bytes in memory have it (R58 to R60, R105); that of a slot whose
segment is not there is the copy as inserted. -/
def copyAt (m : Mem) (c : Coll) (x : Slot) : QVec :=
  match findSeg c (x.num / segSlots) with
  | none => x.copy
  | some g => copyOf (dFormat c.desc) (dGroup c.desc) (dDim c.desc)
      (readBytes m (g.rerank + x.num % segSlots * dStride c.desc) (dStride c.desc))
      (match x.sideRow with
       | some r => readBytes m (g.side + 32 * r) 32
       | none => [])

/-- The attribute word of a slot as the slices of its segment have it (R131). -/
def sliceWord (m : Mem) (c : Coll) (x : Slot) : BitVec 64 :=
  match findSeg c (x.num / segSlots) with
  | none => x.attr
  | some g => BitVec.ofNat 64 (((List.range 64).map fun i =>
      b2n (bit (readByte m (g.side + 64 * 2 ^ 20 + i * 2 ^ 21 + x.num % segSlots / 8)).toNat
        (x.num % 8)) * 2 ^ i).sum)

/-- The least of some candidate starts at which `n` bytes fit between `lo` and `hi` beside what is
taken; where the manual leaves the choice open, the lowest (DESIGN CHOICE, log 22). -/
def firstFit (taken : List (Nat × Nat)) (lo hi n : Nat) : Option Nat :=
  leastId ((lo :: taken.map fun r => roundUp (r.1 + r.2) unitBytes).filter fun a =>
    decide (lo ≤ a) && decide (a + n ≤ hi) && !(taken.any fun r => overlaps a n r.1 r.2))

/-- The first name and the end of a course's index-cache partition (R479). -/
def indexLo (s : State) (c : Nat) : Nat :=
  c * stackBytes + (partStaging s c + partFree s c + partKv s c) * unitBytes
def indexHi (c : Nat) : Nat := c * stackBytes + 65520 * unitBytes

/-- Names of the stacks that an object, a translator entry or a move has taken. -/
def indexTaken (s : State) : List (Nat × Nat) :=
  (s.index.colls.flatMap fun c => c.areas.map fun a => (a.name, roundUp a.bytes unitBytes)) ++
  s.tiers.entries.flatMap (fun e => match e.home with
    | .stack a => [(e.unit, unitBytes), (a, unitBytes)]
    | _ => [(e.unit, unitBytes)]) ++
  s.tiers.migrations.map (fun m => (m.dest, m.units * unitBytes)) ++ takenAreas s

/-- Areas of the given sizes from the index-cache partition of a course (R60, R132, R602). -/
def allotFrom (lo hi : Nat) : List (Nat × Nat) → List Nat → Option (List Nat)
  | _, [] => some []
  | taken, n :: ns =>
    match firstFit taken lo hi (roundUp n unitBytes) with
    | none => none
    | some a => (allotFrom lo hi ((a, roundUp n unitBytes) :: taken) ns).map (a :: ·)

def allotIndex (s : State) (course : Nat) (sizes : List Nat) : Option (List Nat) :=
  allotFrom (indexLo s course) (indexHi course) (indexTaken s) sizes

/-- Bulk has room for the images of new durable objects (R171). -/
def bulkRoom (s : State) (bytes : Nat) : Bool := decide (bulkInUse s + bytes ≤ bulkShare s)

/-- Names of a Brick's flash range (R273). -/
def flashLo (b : Nat) : Nat := flashBase + b * 2 ^ 41

/-- A Wall extent's name in each Brick (R273); none where a Brick lacks room (R39). -/
def allotExtent (s : State) (d : List Byte) (b : Nat) : Option Nat :=
  let k := s.bricks.getD b {}
  if tileOf s b - k.tileUsed < dExtent d then none
  else firstFit (k.extents.map (·.2)) (flashLo b) (flashLo b + 2 ^ 41)
    (roundUp (dExtent d) unitBytes)

def allotExtents (s : State) (d : List Byte) : Option (List Nat) :=
  (List.range 64).foldr (fun b acc =>
    match allotExtent s d b, acc with
    | some a, some l => some (a :: l)
    | _, _ => none) (some [])

/-! ### The checks of a create (R38, R39, R221, R602, R521) -/

/-- Some degree is allowed for a block size and an entry size (R43). -/
def someDegree (d : List Byte) : Bool := decide (128 + 8 * dEntry d ≤ dBlock d)

/-- Lintel holds the key that a KEY_HANDLE names (R521). -/
def keyOk (s : State) (h : Nat) : Bool :=
  h == 0 || (decide (h ≤ 4095) && s.lintel.keys.any (·.1 == h))

/-- An address field of a descriptor: aligned to 64 and in a window (R38, R271). -/
def addrOk (a : Nat) : Bool := a % 64 == 0 && (windowOf a).isSome

/-- The checks of R38 in offset order. -/
def collErr (s : State) (d : List Byte) : Option Err :=
  let bf16 := byteAt d 10 == 3
  firstErr [
    structErr d 64 1 0,
    must (findColl s (byteAt d 4)).isNone (invalid 1 0 4),
    must (decide (byteAt d 5 ≤ if dKv5 d then 2 else 3)) (invalid 1 0 5),
    must (decide (byteAt d 6 ≤ 1) && someDegree d) (invalid 1 0 6),
    must (decide (8 ≤ dDegree d) && decide (dDegree d ≤ 64) &&
      decide (128 + dDegree d * dEntry d ≤ dBlock d)) (invalid 1 0 7),
    must (decide (32 ≤ dDim d) && decide (dDim d ≤ 4096) && (!dKv5 d || dDim d % dSubs d == 0))
      (invalid 1 0 8),
    must (decide (byteAt d 10 ≤ 3)) (invalid 1 0 10),
    must (bf16 || (decide (byteAt d 11 ≤ 2) && dDim d % dGroup d == 0)) (invalid 1 0 11),
    must (decide (dKind d ≤ 2) && !(dKv5 d && dKind d == 1)) (invalid 1 0 12),
    must (!dKv5 d || kv5Mode s) (invalid 1 0 13),
    must (decide (4 ≤ dFallback d) && decide (dFallback d ≤ 20)) (invalid 1 0 14),
    must (decide (dHome d ≤ 7)) (invalid 1 0 15),
    must (decide (1 ≤ dMax d) && decide (dMax d ≤ 2 ^ 36)) (invalid 1 0 16),
    must (addrOk (dProj d)) (invalid 1 0 24),
    must (addrOk (dScaffold d) && windowOf (dScaffold d) != some 3) (invalid 1 0 32),
    must (addrOk (dIdMap d) && windowOf (dIdMap d) != some 3) (invalid 1 0 40),
    must (keyOk s (dKey d)) (invalid 1 0 48)]

/-- Rows of a projection matrix, by offset from its data address. -/
def mxRowAt (h : List Byte) (i : Nat) : Nat := mxData h + i * mxStride h

/-- The checks of a projection matrix header (R221). -/
def matrixErr (d h : List Byte) : Option Err :=
  let f := mxFormat h
  firstErr [
    structErr h 64 5 0,
    must (f == 7 || isGrouped f) (invalid 5 0 4),
    must (!isGrouped f || decide (byteAt h 5 ≤ 2)) (invalid 5 0 5),
    must (mxRows h == dSketch d) (invalid 5 0 8),
    must (mxCols h == dDim d && (!isGrouped f || dDim d % mxGroup h == 0)) (invalid 5 0 12),
    must (mxStride h % 16 == 0 && decide (rowBytes f (mxGroup h) (mxCols h) ≤ mxStride h))
      (invalid 5 0 16),
    must (mxData h % 64 == 0 && rangeValid (mxData h)
      ((mxRows h - 1) * mxStride h + rowBytes f (mxGroup h) (mxCols h))) (invalid 5 0 24),
    must (!isIntG f || (mxSide h % 64 == 0 &&
      (mxSideRows h == 0 || rangeValid (mxSide h) (128 * mxSideRows h)))) (invalid 5 0 32)]

/-- The checks of one row record (R221). -/
def rowErr (s : State) (h : List Byte) (i : Nat) : Option Err :=
  let f := mxFormat h
  let n := (readByte s.mem (mxRowAt h i + 4)).toNat
  if !isGrouped f then none
  else firstErr [
    must (decide (n ≤ if isIntG f then 32 else 0)) (invalid 6 i 4),
    must (n == 0 || decide (readLE s.mem (mxRowAt h i + 8) 4 < mxSideRows h)) (invalid 6 i 8)]

/-- Bytes of a KV5 code book (R67). -/
def bookBytes (d : List Byte) : Nat := 32 + 256 * dDim d * 2

/-- The checks of a code book (R602). -/
def bookErr (s : State) (d : List Byte) : Option Err :=
  let h := readBytes s.mem (dProj d) 32
  firstErr [
    structErr h 32 5 0,
    must (getLE h 4 2 == dDim d) (invalid 5 0 4),
    must (byteAt h 6 == dSubs d) (invalid 5 0 6),
    must (decide (byteAt h 7 ≤ 1)) (invalid 5 0 7),
    must (getLE h 28 4 == crc32c (h.take 28 ++
      readBytes s.mem (dProj d + 32) (bookBytes d - 32))) (invalid 5 0 28)]

/-- An area that R39 finds too small for `n` bytes. -/
def areaShort (s : State) (a n : Nat) : Bool :=
  !rangeValid a n ||
  (match windowOf a with
   | some 1 => decide (companionBase + s.uzone.exposed < a + n)
   | some 2 => (cxlLink s.tiers.xfBytes 0 (a + n - 1 - cxlBase)).isNone
   | _ => false)

/-- Bytes of the copy of a projection matrix: header, rows, side table (R602). -/
def matrixBytes (h : List Byte) : Nat :=
  64 + mxRows h * mxStride h + (if isIntG (mxFormat h) then 128 * mxSideRows h else 0)

def copyBytesOf (s : State) (d : List Byte) : Nat :=
  if dKv5 d then bookBytes d else matrixBytes (readBytes s.mem (dProj d) 64)

/-- The areas of a new collection in the index-cache partition: snapshots and copy (R132, R602). -/
def collSizes (s : State) (d : List Byte) : List Nat := [65 * 131072, copyBytesOf s d]

/-- Bytes of the Bulk images that a create reserves (R171). -/
def collImages (s : State) (d : List Byte) : Nat :=
  dScafRecs d * dScafStride d + dIdEntries d * 16 + copyBytesOf s d

/-- The space checks of R39, R132 and R602, after every other check. -/
def spaceErr (s : State) (d : List Byte) : Option Err :=
  firstErr [
    must (allotExtents s d).isSome { status := 0x14 },
    must (!areaShort s (dScaffold d) (dScafRecs d * dScafStride d))
      { status := 0x14, a := loc 1 0 32 },
    must (!areaShort s (dIdMap d) (dIdEntries d * 16)) { status := 0x14, a := loc 1 0 40 },
    must ((allotIndex s (dHome d) (collSizes s d)).isSome && bulkRoom s (collImages s d))
      { status := 0x14 }]

/-- Every check of a create. -/
def createErr (s : State) (c : Cmd) : Option Err :=
  let d := readBytes s.mem (entDesc c) 64
  firstErr [
    collErr s d,
    (if dKv5 d then
      firstErr [must (rangeValid (dProj d) (bookBytes d)) (invalid 1 0 24), bookErr s d]
    else
      let h := readBytes s.mem (dProj d) 64
      firstErr [must (rangeValid (dProj d) 64) (invalid 1 0 24), matrixErr d h,
        firstErr ((List.range (mxRows h)).map (rowErr s h))]),
    spaceErr s d]

/-- What a create reads: its descriptor, and the matrix or code book once the descriptor passes. -/
def createRanges (s : State) (c : Cmd) : List Range :=
  let d := readBytes s.mem (entDesc c) 64
  let h := readBytes s.mem (dProj d) 64
  { addr := entDesc c, len := 64 } ::
  (if (collErr s d).isSome then []
   else if dKv5 d then
     (if rangeValid (dProj d) (bookBytes d) then [{ addr := dProj d, len := bookBytes d }] else [])
   else if !rangeValid (dProj d) 64 then []
   else { addr := dProj d, len := 64 } ::
     (if (matrixErr d h).isSome then []
      else { addr := mxData h, len := (mxRows h - 1) * mxStride h + mxStride h } ::
        (if isIntG (mxFormat h) && mxSideRows h != 0 then
          [{ addr := mxSide h, len := 128 * mxSideRows h }] else [])))

/-! ### Range locks (R173 to R175) -/

/-- Two entries overlap (R174). -/
def lockOverlap (a b : Lock) : Bool :=
  a.kv == b.kv && a.obj == b.obj && decide (a.lo ≤ b.hi) && decide (b.lo ≤ a.hi)

def lockOf (s : State) (cmd : Nat) : Option Lock := s.index.locks.find? (·.cmd == cmd)

/-- Entries taken before a command's own. -/
def locksBefore (s : State) (cmd : Nat) : List Lock := s.index.locks.takeWhile (·.cmd != cmd)

/-- A command of a sequence waits at a SWAPPED page (R237, R248). -/
def atSwapped (s : State) (cmd : Nat) : Bool :=
  s.tiers.faults.any fun f => f.cause == 3 && f.access / 2 == 2 && f.waiters.any (·.who == .cmd cmd)

/-- A KV_SWAP_IN goes past a KV_APPEND that waits for the pages that it brings back, as R237 has it
answer the fault (DEDUCED, log 131). -/
def yields (s : State) (x : Lock) (cmd : Nat) : Bool :=
  x.kv && atSwapped s x.cmd && ((findCmd s cmd).map entOpcode) == some 0x35

/-- An entry may become held: none taken earlier overlaps it. -/
def lockFree (s : State) (l : Lock) : Bool :=
  !(locksBefore s l.cmd).any fun x => lockOverlap x l && !yields s x l.cmd

/-- A wait that LIVE_INDEX_WAITS counts, once for each command (R184). -/
def waitOn (s : State) (c : Cmd) (w : Wait) : State :=
  let s1 := updCmd s c.id fun x => { x with phase := .waiting w, waited := true }
  { s1 with sched := { s1.sched with waits := (s1.sched.waits + b2n (!c.waited)) % 2 ^ 64 } }

/-- Once the command holds its entry, `act`; until then it waits (R174). -/
def locked (s : State) (c : Cmd) (l : Lock) (act : State → State) : State :=
  match lockOf s c.id with
  | some x => if x.held then act s else setPhase s c.id (.waiting .rangeLock)
  | none =>
    if s.index.locks.length < 256 && (s.index.lockQueue.head?.getD c.id) == c.id then
      let held := !(s.index.locks.any fun x => lockOverlap x l && !yields s x c.id)
      let s1 := { s with
        index := { s.index with
          locks := s.index.locks ++ [{ l with held := held }]
          lockQueue := s.index.lockQueue.drop 1 } }
      if held then act s1 else waitOn s1 c .rangeLock
    else if s.index.lockQueue.contains c.id then setPhase s c.id (.waiting .rangeLock)
    else waitOn { s with
      index := { s.index with lockQueue := s.index.lockQueue ++ [c.id] } } c .rangeLock

/-! ### Sealing (R168 to R170) -/

/-- The completion of a command of R168: at once, or once its changes are in NAND. -/
def sealed (s : State) (c : Cmd) (info32 a b : Nat) : State :=
  let forced := s.holdup.below && !entSeal c
  let x := completionOf c 0 (if forced then 4 else 0) info32 a b
  if entSeal c || forced then setPhase s c.id (.sealing x) else post s x

/-- Every key is withheld: encrypted media can be neither read nor written (R519). -/
def withheldErr (s : State) : Option Err := must (!s.lintel.withheld) { status := 0x50 }

/-! ### COLLECTION_CREATE -/

/-- The collection's own copy of its matrix or code book (R602). -/
def projCopy (s : State) (d : List Byte) : ProjCopy :=
  if dKv5 d then
    let f := (readByte s.mem (dProj d + 7)).toNat
    { kv5 := true
      cents := (unpackCodes 16 (readBytes s.mem (dProj d + 32) (bookBytes d - 32))).map
        (floatVal (if f == 0 then 8 else 7)) }
  else { kv5 := false, rows := readRows s.mem (readBytes s.mem (dProj d) 64) }

/-- The bytes of that copy. -/
def projCopyBytes (s : State) (d : List Byte) : List Byte :=
  if dKv5 d then readBytes s.mem (dProj d) (bookBytes d)
  else
    let h := readBytes s.mem (dProj d) 64
    h ++ readBytes s.mem (mxData h) (mxRows h * mxStride h) ++
      (if isIntG (mxFormat h) then readBytes s.mem (mxSide h) (128 * mxSideRows h) else [])

/-- The collection made from a descriptor and the names chosen for its areas. -/
def newColl (s : State) (d : List Byte) (names areas : List Nat) (born : Nat) : Coll :=
  { id := byteAt d 4
    desc := d
    proj := projCopy s d
    extents := names
    areas := [
      { name := areas.getD 0 0, bytes := 65 * 131072, durable := false },
      { name := areas.getD 1 0, bytes := copyBytesOf s d, durable := true },
      { name := dScaffold d, bytes := dScafRecs d * dScafStride d, durable := true },
      { name := dIdMap d, bytes := dIdEntries d * 16, durable := true }]
    born := born }

/-- The collection in place: its Wall extents, areas, empty ID map, and a key under handle 0. -/
def addColl (s : State) (cmd : Nat) (d : List Byte) (names areas : List Nat) : State :=
  let own := dKey d == 0
  { s with
    index := { s.index with colls := s.index.colls ++ [newColl s d names areas cmd] }
    mem := refill (writeBytes s.mem (areas.getD 1 0) (projCopyBytes s d))
      (.idMap (dIdMap d) (dIdEntries d * 16))
    bricks := (s.bricks.zip names).map fun p => { p.1 with
      extents := p.1.extents ++ [(byteAt d 4, p.2, roundUp (dExtent d) unitBytes)]
      tileUsed := p.1.tileUsed + roundUp (dExtent d) unitBytes }
    lintel := { s.lintel with
      coKeys := if own then
          s.lintel.coKeys ++ [(false, byteAt d 4, Config.entropy s.lintel.draws 64)]
        else s.lintel.coKeys
      draws := s.lintel.draws + b2n own } }

/-- A create under handle 0 needs a fresh key, which Lintel draws while its entropy source is sound
(R504, R521). -/
def drawingKey (s : State) (c : Cmd) (handle : Nat) (act : State → State) : State :=
  if handle == 0 && s.lintel.entropyFault then
    fail (hwError s 1 0x50 0 0 0x30 0) c { status := 0x30 }
  else act s

def actCreate (s : State) (c : Cmd) : State :=
  let d := readBytes s.mem (entDesc c) 64
  match withheldErr s, allotExtents s d, allotIndex s (dHome d) (collSizes s d) with
  | some e, _, _ => fail s c e
  | none, some names, some areas =>
    drawingKey s c (dKey d) fun s =>
      audited s c 0x40 [byteAt d 4, dKey d] d fun s => sealed (addColl s c.id d names areas) c 0 0 0
  | _, _, _ => fail s c { status := 0x14 }

def execCollectionCreate (q : QueueId) (s : State) : Host.Outcome State Fault Refusal :=
  .next (runCommand s q.toNat (opIs 0x26) (fun _ c => descErr c 64) createRanges createErr noSlots
    actCreate)

/-! ### COLLECTION_DROP (R176) -/

def noColl : Err := { status := 0x12 }

/-- The opcodes that name a collection in TARGET (R354). -/
def collOps : List Nat := [0x10, 0x11, 0x12, 0x13, 0x14, 0x20, 0x21, 0x22, 0x27]

/-- The collection a command acts on: COMPACT and REPAIR name it in their maintenance block. -/
def cmdColl (s : State) (c : Cmd) : Option Nat :=
  if collOps.contains (entOpcode c) then some (entColl c)
  else if opIs 0x24 c || opIs 0x25 c then some (readByte s.mem (entDesc c + 4)).toNat
  else none

/-- The commands already dispatched on a collection beside `own`, but for those that wait for a
range-lock entry. -/
def onColl (s : State) (id own : Nat) : List Nat :=
  (s.sched.cmds.filter fun x =>
    x.id != own && x.checked && cmdColl s x == some id && x.phase != .waiting .rangeLock).map (·.id)

/-- The commands that a drop waits for: those it found as its entry was held (R176). -/
def dropWaits (s : State) (c : Cmd) (id : Nat) : List Nat :=
  if c.after.isEmpty then onColl s id c.id
  else c.after.filter fun x => s.sched.cmds.any (·.id == x)

/-- The units that a drop leaves go back to their default homes, or become vacant where another
unit has taken that frame. -/
def releaseUnits (entries : List TierEntry) (areas : List Area) : List TierEntry :=
  let mine := fun (u : Nat) => areas.any fun a =>
    decide (a.name < stackBytes * 8) && overlaps u unitBytes a.name (roundUp a.bytes unitBytes)
  let kept := entries.filter fun e => !mine e.unit
  kept ++ (entries.filter fun e => mine e.unit &&
    kept.any fun x => x.home == ownHome e.unit).map fun e => { e with home := .vacant }

/-- The collection removed at one instant, with its space (R176, R159, R166, R521). -/
def removeColl (s : State) (k : Coll) : State :=
  let own := k.areas.filter fun a => a.name != dScaffold k.desc && a.name != dIdMap k.desc
  let inOwn := fun (a : Nat) => own.any fun r => decide (r.name ≤ a) && decide (a < r.name + r.bytes)
  { s with
    index := { s.index with
      colls := s.index.colls.filter (·.id != k.id)
      changes := s.index.changes.filter (·.coll != k.id)
      patches := s.index.patches.filter (·.coll != k.id) }
    bricks := s.bricks.map fun b =>
      let mine := (b.extents.filter (·.1 == k.id)).map (·.2)
      let moved := (s.tiers.entries.filter fun e => e.home != .tile &&
        mine.any fun r => overlaps e.unit unitBytes r.1 r.2).length * unitBytes
      { b with
        extents := b.extents.filter (·.1 != k.id)
        tileUsed := b.tileUsed + moved - (mine.map (·.2)).sum
        refresh := b.refresh.filter (·.1 != k.id) }
    tiers := { s.tiers with
      entries := releaseUnits (s.tiers.entries.filter fun e =>
        !(s.bricks.any fun b => b.extents.any fun x =>
          x.1 == k.id && overlaps e.unit unitBytes x.2.1 x.2.2)) own }
    mem := { s.mem with cells := s.mem.cells.filter fun x => always s.mem x.1 || !inOwn x.1 }
    lintel := { s.lintel with coKeys := s.lintel.coKeys.filter fun x => !(!x.1 && x.2.1 == k.id) } }

/-- COLLECTION_DROP: its entry, then the commands dispatched before, then the removal. -/
def actDrop (s : State) (c : Cmd) : State :=
  match findColl s (entColl c) with
  | none => fail s c noColl
  | some k0 =>
    let born := c.born.getD k0.born
    let c := { c with born := some born }
    let s := updCmd s c.id fun x => { x with born := some born }
    locked s c { cmd := c.id, kv := false, obj := entColl c, lo := 0, hi := 0xFFFFFFFFFFFE,
                 held := false } fun s =>
      match findColl s (entColl c) with
      | none => fail s c noColl
      | some k =>
        let left := dropWaits s c k.id
        if k.born != born then fail s c noColl
        else if left.isEmpty then
          audited s c 0x41 [k.id, dKey k.desc] [] fun s => sealed (removeColl s k) c 0 0 0
        else
          updCmd s c.id fun x => { x with phase := .waiting .drain, after := left }

def collPre (s : State) (c : Cmd) : Option Err := must (findColl s (entColl c)).isSome noColl

def execCollectionDrop (q : QueueId) (s : State) : Host.Outcome State Fault Refusal :=
  .next (runCommand s q.toNat (opIs 0x27) collPre noRanges noErr noSlots actDrop)

end Sys2Proof.Machine
end

