-- ==== Sys2Proof/Machine/Epochs.lean ====
section
/-!
DEFINITION. Epochs, visibility, patch logs and the block a walk sees (R138 to R149, R157 to R160,
R166, R132, R397 to R399, R405, R406).
-/

namespace Sys2Proof.Machine

/-! ### Pinning and the release epoch (R144, R145) -/

/-- The highest published epoch at or below a number; 0 when there is none. -/
def pubBelow (s : State) (e : Nat) : Nat :=
  (s.epochs.pubs.filter fun p => decide (p ≤ e)).foldl max 0

/-- The epoch that an EPOCH field pins (R144). -/
def pinOf (s : State) (e : Nat) : Nat := if e == 0 then s.epochs.published else pubBelow s e

/-- The refusals of R144, both located at EPOCH. -/
def pinErr (s : State) (e : Nat) : Option Err :=
  firstErr [
    must (s.epochs.published != 0 && decide (e ≤ s.epochs.published)) (invalid 0 0 16),
    must (decide (s.epochs.floor ≤ pinOf s e)) { status := 0x13, a := loc 0 0 16 }]

/-! ### Visibility (R146, R147) -/

/-- ABSENT, LIVE or DELETED. -/
inductive Vis where
  | absent | live | deleted
  deriving DecidableEq, Repr

/-- Visibility of a slot at an epoch. -/
def visible (s : State) (c : Coll) (e slot : Nat) : Vis :=
  match changeOf s c.id slot with
  | some x =>
    if e < x.ins || upTo x.rep e then .absent
    else if upTo x.del e then .deleted
    else .live
  | none =>
    match codeOf c slot with
    | 1 => .live
    | 2 => .deleted
    | _ => .absent

/-- The slots LIVE at an epoch, in ascending order. -/
def liveSlots (s : State) (c : Coll) (e : Nat) : List Slot :=
  sortBy (fun a b => decide (a.num < b.num))
    (c.slots.filter fun x => visible s c e x.num == .live)

/-- Change-table entries in a course's section, of at most 131,072 (R147). -/
def sectionUse (s : State) (course : Nat) : Nat :=
  (s.index.changes.filter fun e => brickOf e.slot / 8 == course).length

/-! ### Segment areas in memory (R61, R131, R147) -/

def segHeader (s : State) (c : Coll) (g : Segment) : State :=
  deviceWrite s none g.header (segBytes c.desc g)

/-! ### Patches (R157, R158) -/

/-- Bytes of a log in use: each entry by its own collection's size. -/
def logBytes (s : State) (b : Nat) : Nat :=
  ((s.index.patches.filter (·.brick == b)).map fun p =>
    ((findColl s p.coll).map fun c => roundUp (24 + dEntry c.desc) 32).getD 32).sum

/-- The patches of a block tagged `t`. -/
def patchesAt (s : State) (coll slot t : Nat) : List Patch :=
  s.index.patches.filter fun p => p.coll == coll && p.target == slot && p.tag == t

/-- A block's entries with the patches of one tag applied (R158). -/
def applyTag (d : List Byte) (es : List BEntry) (ps : List Patch) : List BEntry :=
  let gone := (ps.filter (!·.add)).map (·.nb.slot)
  let left := es.filter fun e => !gone.contains e.slot
  let more := (ps.filter (·.add)).foldl (fun l p =>
    if l.any (·.slot == p.nb.slot) then l else l ++ [p.nb]) left
  placeAttrs (dDirect d) ((sortBy entryLt more).take (dDegree d))

/-- The tags of a block's patches between two epochs, ascending and without repeats. -/
def tagsOf (s : State) (coll slot lo hi : Nat) : List Nat :=
  let ts := ((s.index.patches.filter fun p =>
    p.coll == coll && p.target == slot && decide (lo < p.tag) && decide (p.tag ≤ hi)).map (·.tag))
  (sortBy (fun a b => decide (a < b)) ts).foldl (fun l t => if l.getLast? == some t then l
    else l ++ [t]) []

/-- The view of a block at an epoch (R158). -/
def viewAt (s : State) (c : Coll) (b : Block) (e : Nat) : List BEntry :=
  (tagsOf s c.id b.slot b.fold e).foldl
    (fun es t => applyTag c.desc es (patchesAt s c.id b.slot t)) b.entries

/-- A block's bytes at its name in the Wall extent (R53, R54, R273). -/
def writeBlock (s : State) (c : Coll) (b : Block) : State :=
  deviceWrite s none (blockAddr c b.slot) (blockBytes c.desc b)

/-- A block stored in its collection. -/
def putBlock (s : State) (coll : Nat) (b : Block) : State :=
  match findColl s coll with
  | none => s
  | some c => writeBlock (updColl s coll fun c => { c with
      blocks := c.blocks.filter (·.slot != b.slot) ++ [b] }) c b

/-- The plane of a block, which the Brick's own media map chooses: here its index modulo 32 (DESIGN
CHOICE, log 23). -/
def planeOf (slot : Nat) : Nat := blockIndex slot % 32

/-- Programs start in their order, on planes that have no read waiting and run none (R90). -/
def startPrograms (k : Brick) : Brick :=
  { k with
    programs := k.programs.foldl (fun done p =>
      let busy := (k.programs ++ done).any fun x => x.started && x.plane == p.plane
      done ++ [{ p with
        started := p.started || ((k.planes.getD p.plane []).isEmpty && !busy) }]) [] }

/-- A program queued in a Brick (R90, R152). -/
def addProgram (s : State) (b : Nat) (p : Program) : State :=
  { s with bricks := modAt s.bricks b fun k => startPrograms { k with programs := k.programs ++ [p] } }

/-- A block folded up to an epoch (R159): rewritten, its fold epoch set, its patches removed. -/
def foldBlock (s : State) (c : Coll) (b : Block) (e : Nat) : State :=
  let b' := { b with entries := viewAt s c b e, fold := max b.fold e }
  let s1 := putBlock s c.id b'
  addProgram { s1 with
    index := { s1.index with
    patches := s1.index.patches.filter fun p =>
      !(p.coll == c.id && p.target == b.slot && decide (p.tag ≤ e)) } }
    (brickOf b.slot) { cmd := none, course := brickOf b.slot / 8, bytes := 0, plane := planeOf b.slot }

/-- A fold, or where the block fails its check, what R159 does in its place; a block whose reads have
used up their LDPC retries is handled the same way (DESIGN CHOICE, log 122). -/
def tryFold (s : State) (c : Coll) (b : Block) (e : Nat) : State :=
  if b.corrupt || b.lost then
    hwError (updColl s c.id fun c => { c with
      blocks := mapIf (·.slot == b.slot) (fun b => { b with noFold := true }) c.blocks })
      1 0x13 (brickOf b.slot) b.slot 0x30 0
  else foldBlock s c b e

/-! ### Publication (R61, R132, R142, R143) -/

/-- One more LIVE slot in a histogram, by its attribute word. -/
def bumpHist (counts : List (Nat × Nat × Nat)) (w : BitVec 64) : List (Nat × Nat × Nat) :=
  (List.range 4).foldl (fun l f =>
    let b := bits w.toNat (16 * f + 15) (16 * f + 4)
    if l.any fun x => x.1 == f && x.2.1 == b then
      mapIf (fun x => x.1 == f && x.2.1 == b) (fun x => (x.1, x.2.1, x.2.2 + 1)) l
    else l ++ [(f, b, 1)]) counts

/-- The snapshot of an epoch (R132). -/
def snapshot (s : State) (c : Coll) (e : Nat) : Hist :=
  { epoch := e, counts := (liveSlots s c e).foldl (fun l x => bumpHist l x.attr) [] }

/-- A segment's counts at an epoch (R61). -/
def countSegment (s : State) (c : Coll) (e : Nat) (g : Segment) : Segment :=
  { g with
    slotsUsed := min segSlots (c.nextSlot - g.num * segSlots)
    live := ((liveSlots s c e).filter fun x => x.num / segSlots == g.num).length }

/-- The retain count in force: where none has been set, the 8 that RETAIN 0 of R140 selects
(DEDUCED, log 111). -/
def retainCount (ep : Epochs) : Nat := if ep.retain = 0 then 8 else ep.retain

/-- The floor after the publication of an epoch (R143). -/
def nextFloor (ep : Epochs) (p : Nat) : Nat :=
  let f := if ep.manual then ep.floor else max ep.floor (p + 1 - retainCount ep)
  max f (p - 63)

/-- Snapshots and segment counts of one collection for an epoch; the snapshots below `low` are gone. -/
def publishColl (e low : Nat) (s : State) (c : Coll) : State :=
  let segs := c.segments.map (countSegment s c e)
  let s1 := updColl s c.id fun c => { c with
    hists := c.hists.filter (fun h => decide (low ≤ h.epoch)) ++ [snapshot s c e]
    segments := segs }
  segs.foldl (fun s g => segHeader s c g) s1

/-- One closed epoch published (R142): `deferred` leaves the longest delay as it was (R398, R406). -/
def publish (s : State) (e boundary : Nat) (deferred : Bool) : State :=
  let floor := nextFloor s.epochs e
  let low := release { s with epochs := { s.epochs with floor := floor } }
  let s1 := s.index.colls.foldl (publishColl e low) s
  let delay := sat 0xFFFF (now s - boundary)
  retire { s1 with
    epochs := { s1.epochs with
      published := e
      floor := floor
      closing := s1.epochs.closing.drop 1
      pubs := s1.epochs.pubs.filter (fun p => decide (floor ≤ p)) ++ [e]
      delayLast := delay
      delayMax := if deferred then s1.epochs.delayMax else max s1.epochs.delayMax delay } }

/-- The EPOCH_PUBLISH that a publication completes. -/
def published (s : State) (cmd : Option Nat) : State :=
  match cmd.bind (findCmd s) with
  | none => s
  | some c => succeed s c 0 0 0 s.epochs.published s.epochs.floor

/-- The oldest closed epoch published, and its command completed. -/
def publishNext (s : State) (deferred : Bool) : State :=
  match s.epochs.closing with
  | [] => s
  | (e, t, cmd) :: _ => published (publish s e t deferred) cmd

/-- Every closed epoch published, in order: those that `deferred` marks under R398, others at the boot
step that R138 names. -/
def publishAll (deferred : Bool) : Nat → State → State
  | 0, s => s
  | n + 1, s => publishAll deferred n (publishNext s deferred)

/-- The open epoch closed at an instant (R139, R141, R405). -/
def closeEpoch (s : State) (t : Nat) (cmd : Option Nat) : State :=
  { s with
    epochs := { s.epochs with
      closing := s.epochs.closing ++ [(s.epochs.opened, t, cmd)]
      opened := s.epochs.opened + 1
      boundaryTime := t
      schedule := s.epochs.schedule.map fun x => { x with n := x.n + 1 } } }

/-- The instant of the next scheduled boundary (R141). -/
def nextBoundary (x : Schedule) : Nat := x.base + x.n * x.period

/-- The next boundary closed if it is due. -/
def closeNext (s : State) : State :=
  match s.epochs.schedule with
  | none => s
  | some x =>
    if s.time.valid && decide (nextBoundary x ≤ now s) then closeEpoch s (nextBoundary x) none else s

def closeTimes : Nat → State → State
  | 0, s => s
  | n + 1, s => closeTimes n (closeNext s)

/-- Every boundary that is due closed: a commit, or a change of the schedule, falls behind the boundaries
at or before its instant (R139, R397, R399). -/
def closeDue (s : State) : State :=
  closeTimes (s.epochs.schedule.elim 0 fun x => (now s - nextBoundary x) / max 1 x.period + 1) s

def execEpochBoundary (s : State) : Host.Outcome State Fault Refusal := .next (closeNext s)

/-! ### EPOCH_PUBLISH (R140, R141, R143) -/

def epAction (s : State) (c : Cmd) : Nat := (readByte s.mem (entDesc c + 4)).toNat
def epCancel (s : State) (c : Cmd) : Bool := (readByte s.mem (entDesc c + 7)).toNat == 1

/-- PERIOD, with 0 taken as 1 ms (R140). -/
def epPeriod (d : List Byte) : Nat := if getLE d 16 4 == 0 then 1000000 else getLE d 16 4

/-- The checks of an epoch control block, in offset order (R140, R141, R143). -/
def epochErr (s : State) (c : Cmd) : Option Err :=
  let s := closeDue s
  let d := readBytes s.mem (entDesc c) 32
  let act := byteAt d 4
  let set := act == 0 && byteAt d 7 == 0
  let e := getLE d 24 8
  firstErr [
    structErr d 32 1 0,
    must (decide (act ≤ 2) && !(act == 1 && s.epochs.schedule.isSome) &&
      !(act == 2 && !s.epochs.manual)) (invalid 1 0 4),
    must (act != 0 || decide (byteAt d 5 ≤ 1)) (invalid 1 0 5),
    must (act != 0 || decide (byteAt d 6 ≤ 64)) (invalid 1 0 6),
    must (act != 0 || decide (byteAt d 7 ≤ 1)) (invalid 1 0 7),
    must (!set || decide (now s < getLE d 8 8)) (invalid 1 0 8),
    must (!set || (decide (100000 ≤ epPeriod d) && decide (epPeriod d ≤ 100000000)))
      (invalid 1 0 16),
    must (!set || decide (s.epochs.opened ≤ e)) (invalid 1 0 24),
    must (act != 2 || (decide (s.epochs.floor ≤ e) && decide (e ≤ s.epochs.published)))
      (invalid 1 0 24)]

def epochPre (_ : State) (c : Cmd) : Option Err := descErr c 32
def epochRange (_ : State) (c : Cmd) : List Range := [{ addr := entDesc c, len := 32 }]

def epochDone (s : State) (c : Cmd) : State :=
  succeed s c 0 0 0 s.epochs.published s.epochs.floor

/-- FLOOR_MODE and RETAIN of action 0. -/
def takeModes (ep : Epochs) (d : List Byte) : Epochs :=
  { ep with manual := byteAt d 5 == 1, retain := if byteAt d 6 == 0 then 8 else byteAt d 6 }

def isAction (s : State) (a : Nat) (c : Cmd) : Bool := opIs 0x23 c && epAction s c == a

def isCancel (s : State) (c : Cmd) : Bool := isAction s 0 c && epCancel s c
/-- Action 0 with SCHEDULE 0, and every EPOCH_PUBLISH that no other row takes. -/
def isSchedule (s : State) (c : Cmd) : Bool :=
  opIs 0x23 c && (isAction s 0 c && !epCancel s c || decide (2 < epAction s c))

def actSchedule (s : State) (c : Cmd) : State :=
  let d := readBytes s.mem (entDesc c) 32
  audited s c 0x42 [0, getLE d 24 8] d fun s =>
    let s := closeDue s
    epochDone { s with
      epochs := { takeModes s.epochs d with
        opened := getLE d 24 8
        schedule := some { base := getLE d 8 8, period := epPeriod d, epoch := getLE d 24 8 } } } c

def execEpochSetSchedule (q : QueueId) (s : State) : Host.Outcome State Fault Refusal :=
  .next (runCommand s q.toNat (isSchedule s) epochPre epochRange epochErr noSlots actSchedule)

def actCancel (s : State) (c : Cmd) : State :=
  let d := readBytes s.mem (entDesc c) 32
  audited s c 0x42 [0, getLE d 24 8] d fun s =>
    let s := closeDue s
    epochDone { s with epochs := { takeModes s.epochs d with schedule := none } } c

def execEpochCancelSchedule (q : QueueId) (s : State) : Host.Outcome State Fault Refusal :=
  .next (runCommand s q.toNat (isCancel s) epochPre epochRange epochErr noSlots actCancel)

/-- The command runs until its publication is complete (R142, R360). -/
def actPublishNow (s : State) (c : Cmd) : State := closeEpoch s (now s) (some c.id)

def execEpochPublishNow (q : QueueId) (s : State) : Host.Outcome State Fault Refusal :=
  .next (runCommand s q.toNat (isAction s 1) epochPre epochRange epochErr noSlots actPublishNow)

def actSetFloor (s : State) (c : Cmd) : State :=
  let d := readBytes s.mem (entDesc c) 32
  let f := getLE d 24 8
  audited s c 0x42 [2, f] d fun s =>
    let s0 := { s with
      epochs := { s.epochs with
        floor := f
        pubs := s.epochs.pubs.filter fun p => decide (f ≤ p) } }
    let s1 := { s0 with
      index := { s0.index with
      colls := s0.index.colls.map fun k => { k with
        hists := k.hists.filter fun h => decide (release s0 ≤ h.epoch) } } }
    epochDone (retire s1) c

def execEpochSetFloor (q : QueueId) (s : State) : Host.Outcome State Fault Refusal :=
  .next (runCommand s q.toNat (isAction s 2) epochPre epochRange epochErr noSlots actSetFloor)

/-! ### PATCH_FOLD (R159) -/

/-- The patches of a block at or below the release epoch. -/
def foldable (s : State) (coll slot : Nat) : Nat :=
  (s.index.patches.filter fun p =>
    p.coll == coll && p.target == slot && decide (p.tag ≤ release s)).length

/-- The blocks of a Brick that have patches to fold, with their counts, the fullest first. -/
def foldChoice (s : State) (brick : Nat) : List (Coll × Block × Nat) :=
  let all := s.index.colls.flatMap fun c =>
    (c.blocks.filter fun b => brickOf b.slot == brick && !b.noFold).map fun b =>
      (c, b, foldable s c.id b.slot)
  sortBy (fun a b => decide (b.2.2 < a.2.2) ||
    (a.2.2 == b.2.2 && decide (a.2.1.slot < b.2.1.slot))) (all.filter (fun x => 0 < x.2.2))

/-- The fold that is due in a Brick, if any. -/
def foldDue (s : State) (brick : Nat) : State :=
  match foldChoice s brick with
  | [] => s
  | (c, b, n) :: _ =>
    if 8 ≤ n || 3 * 2 ^ 25 / 4 < logBytes s brick then tryFold s c b (release s) else s

/-- The release epoch is looked at again, and one block folded. -/
def execPatchFold (brick : BitVec 6) (s : State) : Host.Outcome State Fault Refusal :=
  .next (foldDue (retire s) brick.toNat)

end Sys2Proof.Machine
end

