-- ==== Sys2Proof/Machine/Flags.lean ====
section
/-!
DEFINITION. Predicates and match estimates (R127 to R133), selection and the merging of partial
lists (R112 to R126), and the status and flags of a search (R16, R118, R120).
-/

namespace Sys2Proof.Machine

/-! ### Predicates (R127 to R130) -/

/-- A term without NEGATE over a field value (R128). -/
def termHolds (op a b v : Nat) : Bool :=
  if op % 16 == 1 then v &&& a == b else decide (a ≤ v) && decide (v ≤ b)

/-- Field F of an attribute word. -/
def attrField (w : BitVec 64) (f : Nat) : Nat := bits w.toNat (16 * f + 15) (16 * f)

def evalTerm (p : Pred) (w : BitVec 64) (i : Nat) : Bool :=
  let t := p.terms.getD i (2, 0, 0, 0)
  termHolds t.1 t.2.2.1 t.2.2.2 (attrField w t.2.1) != bit t.1 4

/-- A term (0 to 7) or a node (8 to 14) of R129. -/
def evalRef (p : Pred) (w : BitVec 64) : Nat → Nat → Bool
  | 0, i => evalTerm p w i
  | f + 1, i =>
    if i < 8 then evalTerm p w i
    else
      let n := p.nodes.getD (i - 8) (false, 0, 0)
      if n.1 then evalRef p w f n.2.1 || evalRef p w f n.2.2
      else evalRef p w f n.2.1 && evalRef p w f n.2.2

/-- The root of a predicate. -/
def predRoot (p : Pred) : Nat := if p.nodes.isEmpty then 0 else 8

/-- A predicate over an attribute word. -/
def holds (p : Pred) (w : BitVec 64) : Bool := evalRef p w 8 (predRoot p)

/-- With no predicate every word passes. -/
def passes (p : Option Pred) (w : BitVec 64) : Bool := p.elim true fun p => holds p w

/-- The predicate of a block; none with a TERM_COUNT of 0 (R127). -/
def parsePred (bs : List Byte) : Option Pred :=
  let t := byteAt bs 4
  if t == 0 then none
  else some {
    terms := (List.range t).map fun i =>
      (byteAt bs (8 + 8 * i), byteAt bs (9 + 8 * i) % 4, getLE bs (10 + 8 * i) 2,
        getLE bs (12 + 8 * i) 2)
    nodes := (List.range (t - 1)).map fun j =>
      let v := getLE bs (72 + 2 * j) 2
      (bit v 15, v % 16, bits v 7 4) }

/-- The check of one used term (R129). A fault that lies in how A and B stand to each other is located
at B, the later of the two (DESIGN CHOICE, log 113). -/
def termErr (bs : List Byte) (i : Nat) : Option Err :=
  let o := 8 + 8 * i
  let op := byteAt bs o % 16
  let a := getLE bs (o + 2) 2
  let b := getLE bs (o + 4) 2
  firstErr [
    must (op == 1 || op == 2) (invalid 5 0 o),
    must (if op == 1 then b &&& a == b else decide (a ≤ b)) (invalid 5 0 (o + 4))]

/-- A reference of node `j` is valid (R129). -/
def refOk (t j r : Nat) : Bool :=
  if r < 8 then decide (r < t) else decide (j < r - 8) && decide (r - 8 < t - 1)

/-- The checks of the nodes from `j` on, with the references seen before (R129). -/
def nodesErr (bs : List Byte) (t : Nat) : Nat → Nat → List Nat → Option Err
  | 0, _, _ => none
  | n + 1, j, seen =>
    let v := getLE bs (72 + 2 * j) 2
    let l := v % 16
    let r := bits v 7 4
    if refOk t j l && refOk t j r && l != r && !seen.contains l && !seen.contains r then
      nodesErr bs t n (j + 1) (l :: r :: seen)
    else some (invalid 5 0 (72 + 2 * j))

/-- The first non-zero byte of unused space. -/
def unusedErr (bs : List Byte) (lo hi : Nat) : Option Err :=
  ((List.range (hi - lo)).find? fun i => byteAt bs (lo + i) != 0).map fun i => invalid 5 0 (lo + i)

/-- The checks of a predicate block, in offset order (R129). -/
def predErr (bs : List Byte) : Option Err :=
  let t := byteAt bs 4
  let n := if t ≤ 1 then 0 else t - 1
  firstErr [
    structErr bs 96 5 0,
    must (decide (t ≤ 8)) (invalid 5 0 4),
    must (byteAt bs 5 == n) (invalid 5 0 5),
    firstErr ((List.range t).map (termErr bs)),
    unusedErr bs (8 + 8 * t) 72,
    nodesErr bs t n 0 [],
    unusedErr bs (72 + 2 * n) 86]

/-! ### Match estimates (R133) -/

/-- matching_values of R133. -/
def matching (op a b bucket : Nat) : Nat :=
  ((List.range 16).filter fun i => termHolds op a b (16 * bucket + i)).length

/-- The estimate of a term over a histogram. -/
def estTerm (counts : List (Nat × Nat × Nat)) (n : Nat) (p : Pred) (i : Nat) : F64 :=
  let t := p.terms.getD i (2, 0, 0, 0)
  let bs := sortBy (fun a b => decide (a.2.1 < b.2.1)) (counts.filter (·.1 == t.2.1))
  let m := bs.foldl (fun m x => dadd m (ddiv (dmul (natTo64 x.2.2)
    (natTo64 (matching t.1 t.2.2.1 t.2.2.2 x.2.1))) (natTo64 16))) 0
  let f := if n == 0 then (0 : F64) else ddiv m (natTo64 n)
  if bit t.1 4 then dsub (natTo64 1) f else f

/-- The estimate of a term or node. -/
def estRef (counts : List (Nat × Nat × Nat)) (n : Nat) (p : Pred) : Nat → Nat → F64
  | 0, i => estTerm counts n p i
  | f + 1, i =>
    if i < 8 then estTerm counts n p i
    else
      let x := p.nodes.getD (i - 8) (false, 0, 0)
      let l := estRef counts n p f x.2.1
      let r := estRef counts n p f x.2.2
      if x.1 then dsub (dadd l r) (dmul l r) else dmul l r

/-- The match fraction of R133 over a snapshot's counts. -/
def estimate (counts : List (Nat × Nat × Nat)) (p : Pred) : F64 :=
  let n := ((counts.filter (·.1 == 0)).map (·.2.2)).sum
  estRef counts n p 8 (predRoot p)

/-! ### Selection (R112 to R119) -/

/-- The order of R112 on (vector ID, distance). -/
def selLt (a b : Nat × F32) : Bool :=
  decide (fcmp a.2 b.2 < 0) || (fcmp a.2 b.2 == 0 && decide (a.1 < b.1))

/-- The order of a merge: R112, and among copies of one ID that R112 makes equal their bit patterns, so
that the copy kept does not depend on the order of the lists (R126; DESIGN CHOICE, log 112). -/
def mergeLt (a b : Nat × F32) : Bool :=
  selLt a b || (!selLt b a && decide (a.2.toNat < b.2.toNat))

/-- The first of every vector ID in a sorted list (R116). -/
def dedupe (l : List (Nat × F32)) : List (Nat × F32) :=
  l.foldl (fun acc x => if acc.any (·.1 == x.1) then acc else acc ++ [x]) []

def exactSum (l : List (Nat × F32)) : Int := (l.map fun x => exactTerm x.2).sum
def exactSpecials (l : List (Nat × F32)) : Nat :=
  l.foldl (fun n x => n ||| exactSpecial x.2) 0

/-- Elements equal to the last of the `k` listed (R118). -/
def tiesWith (k : Nat) (listed rest : List (Nat × F32)) : Nat :=
  match listed.getLast? with
  | none => 0
  | some x => if listed.length < k then 0
    else (rest.filter fun y => fcmp y.2 x.2 == 0).length

/-- The selection of one piece (R114 to R119). -/
def selectPiece (k : Nat) (row : List (Nat × F32)) : PList :=
  let l := dedupe (sortBy selLt row)
  let a := l.take k
  let b := l.drop k
  { k := k, entries := a, ties := sat 65535 (tiesWith k a b), truncated := false,
    fallback := false, leftOut := sat 0xFFFFFFFF b.length, selSum := exactSum a,
    selSpecial := exactSpecials a, leftSum := exactSum b, leftSpecial := exactSpecials b }

/-- The merge of partial lists of equal K (R125). -/
def mergeLists (k : Nat) (ls : List PList) : PList :=
  let pool := dedupe (sortBy mergeLt (ls.flatMap (·.entries)))
  let a := pool.take k
  let b := pool.drop k
  let kth := (if a.length < k then none else a.getLast?).map (·.2)
  let own := fun (p : PList) => if p.entries.length < k then none else p.entries.getLast?.map (·.2)
  let more := (ls.map fun p => match kth, own p with
    | some x, some y => if fcmp x y == 0 then p.ties else 0
    | _, _ => 0).sum
  { k := k, entries := a, ties := sat 65535 (tiesWith k a b + more)
    truncated := ls.any (·.truncated), fallback := ls.any (·.fallback)
    leftOut := sat 0xFFFFFFFF ((ls.map (·.leftOut)).sum + b.length)
    selSum := exactSum a, selSpecial := exactSpecials a
    leftSum := (ls.map (·.leftSum)).sum + exactSum b
    leftSpecial := (ls.map (·.leftSpecial)).foldl (· ||| ·) (exactSpecials b) }

/-- The selection of a row, in pieces of 4,096 merged where it is longer (R115). -/
def selectRow (k : Nat) (row : List (Nat × F32)) : PList :=
  if row.length ≤ 4096 then selectPiece k row
  else mergeLists k ((chunks 4096 (row.length + 1) row).map (selectPiece k))

/-! ### The search result (R120 to R122) -/

/-- Bytes of an entry. -/
def entryBytes (x : Nat × F32) : List Byte :=
  leBytes 6 x.1 ++ zeros 2 ++ leBytes 4 x.2.toNat ++ zeros 4

/-- The payload of a search result: `path`, distance kind, nodes, estimate and epoch (R121, R122). -/
def resultBytes (p : PList) (path kind nodes est epoch : Nat) : List Byte :=
  header 48 ++ leBytes 2 p.k ++ leBytes 2 p.entries.length ++ leBytes 2 p.ties ++ leBytes 1 path ++
  leBytes 1 kind ++ leBytes 4 (sat 0xFFFFFFFF nodes) ++ leBytes 4 est ++ leBytes 4 p.leftOut ++
  leBytes 8 (exactTo64 p.selSum p.selSpecial).toNat ++
  leBytes 8 (exactTo64 p.leftSum p.leftSpecial).toNat ++ leBytes 8 epoch ++
  p.entries.flatMap entryBytes ++
  (List.replicate (p.k - p.entries.length) (0xFFFFFFFFFFFF, posInf32)).flatMap entryBytes

/-- The status of a search (R120): TRUNCATED, SHORT or SUCCESS. -/
def searchStatus (p : PList) : Nat :=
  if p.truncated then 2 else if p.entries.length < p.k then 1 else 0

/-- Bits 1 to 3 of FLAGS of a search (R118, R137, R357). -/
def searchFlags (p : PList) : Nat := (if p.ties == 0 then 0 else 2) + (if p.fallback then 8 else 0)

end Sys2Proof.Machine
end

