-- ==== Sys2Proof/Machine/Query.lean ====
section
/-!
DEFINITION. A query on its way to its result: exact distances (R106 to R108), its result slot and
completion (R120, R121, R360, R363, R367), and the merging of a fan-out (R123, R124, R457 to R460).
-/

namespace Sys2Proof.Machine

/-! ### Distances (R106, R107) -/

/-- The query as the dot product uses it (R107, R210, R211). -/
def queryVec (fmt g : Nat) (q : List F32) : QVec :=
  if isGrouped fmt then quantise fmt g 32 q else quantise 7 g 0 q

/-- The distance of a query to a stored copy, by the distance kind (R106). -/
def distance (kind : Nat) (q : QVec) (x : QVec) : F32 :=
  let dot := dotVec q x
  if kind == 0 then fneg dot
  else if kind == 1 then fsub one32 dot
  else fadd (fsub (sumSquares (deq q)) (fmul (intTo32 2) dot)) (sumSquares (deq x))

/-- A query prepared for a collection: under cosine it is normalised before it is quantised. -/
def prepared (d : List Byte) (q : List F32) : QVec :=
  queryVec (dFormat d) (dGroup d) (if dKind d == 1 then normalise q else q)

/-- The row of a selection: vector IDs with their distances to the copies that memory holds (R105). -/
def distances (m : Mem) (c : Coll) (q : List F32) (cands : List (Nat × Nat)) : List (Nat × F32) :=
  let a := prepared c.desc q
  cands.filterMap fun p => (findSlot c p.1).map fun x => (p.2, distance (dKind c.desc) a (copyAt m c x))

/-! ### Results and completions -/

/-- A SEARCH_BATCH with one more READY slot completes once it has them all (R367). -/
def batchStep (s : State) (c : Cmd) : State :=
  let b := c.batch
  if b.ready < entCount c then s
  else match b.failed with
    | some (_, st, a) =>
      fail s c { status := st, info32 := b.ready, a := if ownInfo st then a else pinInfo c }
    | none => succeed s c (if b.truncated then 2 else if b.short then 1 else 0) b.flags b.ready
        (pinInfo c) 0

/-- A query's result in its slot, and its command's completion. -/
def queryDone (s : State) (c : Cmd) (slot status flags hops info32 : Nat) (payload : List Byte) :
    State :=
  let s1 := slotReady s c.id slot status payload hops
  if opIs 0x11 c then
    let s2 := updCmd s1 c.id fun c => { c with
      batch := { c.batch with
        ready := c.batch.ready + 1
        flags := c.batch.flags ||| flags
        truncated := c.batch.truncated || status == 2
        short := c.batch.short || status == 1 } }
    match findCmd s2 c.id with
    | some c => batchStep s2 c
    | none => s2
  else succeed s1 c status flags info32 (pinInfo c) 0

/-- A query that fails: its command, or in a SEARCH_BATCH its slot alone (R364, R367). -/
def queryFail (s : State) (c : Cmd) (idx slot hops : Nat) (e : Err) : State :=
  if opIs 0x11 c then
    let s1 := slotReady s c.id slot e.status [] 0xFFFFFFFF
    let s2 := updCmd s1 c.id fun c => { c with
      batch := { c.batch with
        ready := c.batch.ready + 1
        failed := match c.batch.failed with
          | some f => if f.1 < idx then some f else some (idx, e.status, e.a)
          | none => some (idx, e.status, e.a) } }
    match findCmd s2 c.id with
    | some c => batchStep s2 c
    | none => s2
  else
    fail s c { e with
      info32 := if opIs 0x10 c then hops else e.info32
      a := if ownInfo e.status then e.a else pinInfo c }

/-! ### Partial lists in bytes (R123, R124) -/

/-- A 320-bit two's-complement integer. -/
def exactBytes (v : Int) (special : Nat) : List Byte :=
  leBytes 40 ((v % 2 ^ 320).toNat) ++ leBytes 1 special ++ zeros 7

def exactOf (bs : List Byte) : Int × Nat :=
  let n := getLE bs 0 40
  (if n < 2 ^ 319 then (n : Int) else (n : Int) - 2 ^ 320, byteAt bs 40)

/-- The bytes of a partial list (R123). -/
def listBytes (p : PList) : List Byte :=
  header 112 ++ leBytes 2 p.k ++ leBytes 2 p.entries.length ++ leBytes 2 p.ties ++
  leBytes 1 (b2n p.truncated + 2 * b2n p.fallback) ++ zeros 1 ++ leBytes 4 p.leftOut ++
  exactBytes p.selSum p.selSpecial ++ exactBytes p.leftSum p.leftSpecial ++
  p.entries.flatMap entryBytes

/-- A partial list from its bytes. -/
def listOf (bs : List Byte) : PList :=
  let n := getLE bs 6 2
  let sel := exactOf ((bs.drop 16).take 48)
  let left := exactOf ((bs.drop 64).take 48)
  { k := getLE bs 4 2
    entries := (List.range n).map fun i =>
      (getLE bs (112 + 16 * i) 6, BitVec.ofNat 32 (getLE bs (120 + 16 * i) 4))
    ties := getLE bs 8 2, truncated := bit (byteAt bs 10) 0, fallback := bit (byteAt bs 10) 1
    leftOut := getLE bs 12 4, selSum := sel.1, selSpecial := sel.2, leftSum := left.1
    leftSpecial := left.2 }

/-! ### Fan-outs (R457 to R460) -/

def findFan (s : State) (id : Nat) : Option Fan := s.mortar.fans.find? (·.id == id)
def updFan (s : State) (id : Nat) (f : Fan → Fan) : State :=
  { s with mortar := { s.mortar with fans := mapIf (·.id == id) f s.mortar.fans } }
/-- A fan-out is over; the epoch that it pinned is released (R145, R148). -/
def dropFan (s : State) (id : Nat) : State :=
  retire { s with mortar := { s.mortar with fans := s.mortar.fans.filter (·.id != id) } }

/-- A member's hop record (R458): its hop count, 0xFFFF without a walk, and TRUNCATED. -/
def hopWord (walked truncated : Bool) (hops : Nat) : Nat :=
  (if walked then hops % 65536 else 0xFFFF) + (if truncated then 65536 else 0)

/-- Hop records in ascending member index (R459). -/
def hopBytes (l : List (Nat × Nat)) : List Byte :=
  (sortBy (fun a b => decide (a.1 < b.1)) l).flatMap fun r => leBytes 4 r.1 ++ leBytes 4 r.2

def hopsOf (bs : List Byte) : List (Nat × Nat) :=
  (List.range (bs.length / 8)).map fun i => (getLE bs (8 * i) 4, getLE bs (8 * i + 4) 4)

/-- The root's result (R458): the merged list, its summary and the hop table. -/
def fanDeliver (s : State) (f : Fan) (c : Cmd) : State :=
  match f.failed with
  | some (_, st, a) => queryFail s c f.idx f.slot 0xFFFFFFFF
      { status := st, a := if st == 0x20 then a else loc 0xFF 0 0 }
  | none =>
    let p := mergeLists f.k f.got
    let walking := (f.hopRecs.filter fun r => r.2 % 65536 != 0xFFFF).map fun r => r.2 % 65536
    let hops := if walking.isEmpty then 0xFFFFFFFF else walking.foldl max 0
    let table := (List.range f.members.length).flatMap fun i =>
      leBytes 4 (((f.hopRecs.find? (·.1 == i)).map (·.2)).getD 0xFFFF)
    let kind := ((findColl s (entColl c)).map fun k => dKind k.desc).getD
      (Config.freeByte f.id 0).toNat
    queryDone s c f.slot (searchStatus p) (searchFlags p) hops (if opIs 0x13 c then 0 else hops)
      (resultBytes p (if walking.isEmpty then 1 else 0) kind f.nodes f.est f.epoch ++ table)

/-- A member's answer to its parent over Mortar: its merged list with the hop records of its
subtree, or the status of the first failing member (R457, R459, R460). -/
def fanAnswer (s : State) (f : Fan) (dest tag : Nat) : State :=
  match f.failed with
  | some (_, st, _) => mortarSend s 0x11 dest tag 0 0 [BitVec.ofNat 8 st]
  | none => mortarSend s 0x12 dest tag 0 0 (listBytes (mergeLists f.k f.got) ++ hopBytes f.hopRecs)

/-- The part of a fan-out that has all its lists. -/
def fanReady (f : Fan) : Bool := f.waitFor.isEmpty && !f.mine

/-- A fan-out at its root once all its lists are in. -/
def rootCheck (s : State) (id : Nat) : State :=
  match findFan s id with
  | none => s
  | some f =>
    if fanReady f then
      match f.cmd.bind (findCmd s) with
      | some c => fanDeliver (dropFan s id) f c
      | none => dropFan s id
    else s

/-- The first failing member in member-list order (R460). -/
def firstFailed (a b : Option (Nat × Nat × Nat)) : Option (Nat × Nat × Nat) :=
  match a, b with
  | some x, some y => if y.1 < x.1 then some y else some x
  | some x, none => some x
  | none, y => y

/-- A member's merged part taken by the root of its own module. -/
def fanUp (s : State) (f : Fan) (root : Nat) : State :=
  rootCheck (updFan s root fun r => { r with
    waitFor := r.waitFor.filter fun i => some i != f.index
    got := r.got ++ [mergeLists f.k f.got]
    hopRecs := r.hopRecs ++ f.hopRecs
    est := min r.est f.est
    nodes := sat 0xFFFFFFFF (r.nodes + f.nodes)
    failed := firstFailed r.failed f.failed }) root

/-- A fan-out moves on once it has all its lists: the root delivers, a member reports. -/
def fanCheck (s : State) (id : Nat) : State :=
  match findFan s id with
  | none => s
  | some f =>
    if !fanReady f then s
    else match f.cmd, f.up, f.parent with
      | some _, _, _ => rootCheck s id
      | none, some r, _ => fanUp (dropFan s id) f r
      | none, none, some (m, tag) => fanAnswer (dropFan s id) f m tag
      | none, none, none => dropFan s id

/-- A member's own part has a list: its hop record and summary go with it. -/
def fanMine (s : State) (id : Nat) (p : PList) (q : Query) (walked : Bool) : State :=
  fanCheck (updFan s id fun f => { f with
    mine := false
    got := f.got ++ [p]
    hopRecs := f.hopRecs ++ [(f.index.getD 0, hopWord walked q.truncated q.hops)]
    est := min f.est q.est
    nodes := sat 0xFFFFFFFF (f.nodes + q.nodes) }) id

/-- A member's own part has failed, with a status and the INFO_A that goes with it. -/
def fanFail (s : State) (id status a : Nat) : State :=
  fanCheck (updFan s id fun f => { f with
    mine := false
    failed := firstFailed f.failed (some (f.index.getD 0, status, a)) }) id

/-! ### The end of a query -/

/-- A selection's list goes to its slot, or to its fan-out (R121, R457). -/
def finishQuery (s : State) (q : Query) (p0 : PList) : State :=
  let p := { p0 with truncated := q.truncated, fallback := q.fallback }
  match q.fan with
  | some f => fanMine s f p q (q.path == 0)
  | none =>
    match findCmd s q.cmd with
    | none => s
    | some c =>
      let kind := ((findColl s q.coll).map fun k => dKind k.desc).getD 0
      let hops := if q.path == 0 then q.hops else 0xFFFFFFFF
      queryDone s c q.slot (searchStatus p) (searchFlags p) hops
        (if opIs 0x10 c then hops else 0)
        (resultBytes p q.path kind q.nodes q.est q.epoch)

/-- A query fails, or the part of a fan-out that it is (R460). -/
def failQuery (s : State) (q : Query) (e : Err) : State :=
  match q.fan with
  | some f => fanFail s f e.status e.a
  | none =>
    match findCmd s q.cmd with
    | none => s
    | some c => queryFail s c q.idx q.slot
        (if q.path == 0 then q.hops else if 3 ≤ q.path then 0 else 0xFFFFFFFF) e

/-- The selection of a query over the distances of its candidates (R112 to R119), and its end. -/
def selectQuery (s : State) (q : Query) (row : List (Nat × F32)) : State :=
  if (findColl s q.coll).isNone then failQuery s q noColl else finishQuery s q (selectRow q.k row)

end Sys2Proof.Machine
end

