-- ==== Sys2Proof/Machine/Walk.lean ====
section
/-!
DEFINITION. Walks: the Scaffold walk (R71 to R73), the walk's queues and filter (R83 to R86), the
rounds and reads of the Bricks (R74 to R100), and the re-rank requests they end in (R105, R109).
-/

namespace Sys2Proof.Machine

/-! ### Scores (R42, R98, R99) -/

/-- The score of a Wall entry's sketch or code. -/
def score (sc : Scorer) (code : Nat) : Nat :=
  match sc with
  | .sketch q => popcount ((q ^^^ code).log2 + 1) (q ^^^ code)
  | .table u => (u.zipIdx.map fun p => p.1.getD (code / 256 ^ p.2 % 256) 0).sum

/-- The least and greatest of a row of R98, a NaN last. -/
def rowMin (l : List F32) : F32 := l.foldl (fun m x => if fltb x m then x else m) (l.headD 0)
def rowMax (l : List F32) : F32 := l.foldl (fun m x => if fgt x m then x else m) (l.headD 0)

/-- A scaled table value as UINT16 (R98); free where it is NaN or out of range. -/
def tableCode (x : F32) : Nat :=
  if isFin32 x && decide (roundAway x ≤ 65535) then (roundAway x).toNat
  else (Config.tableEntry x).toNat

/-- The table of a query on a KV5 collection (R98), each product and each squared distance summed in
ascending element index from +0 (DESIGN CHOICE, log 114). -/
def kv5Table (kind : Nat) (cents : List F32) (M d : Nat) (q : List F32) : List (List Nat) :=
  let t := ((chunks (d / M) M q).zip (centroids cents M d)).map fun p =>
    p.2.map fun c => if kind == 0 then fneg (dotPlain p.1 c) else subDist p.1 c
  let lo := t.map rowMin
  let spans := (t.zip lo).map fun p => fsub (rowMax p.1) p.2
  let span := rowMax spans
  let s := if fgt span 0 then fdiv (intTo32 65535) span else 0
  (t.zip lo).map fun p => p.1.map fun x => tableCode (fmul (fsub x p.2) s)

/-! ### The Scaffold walk (R72) -/

/-- A member of the beam: score, slot, expanded. -/
abbrev BeamEntry := Nat × Nat × Bool

def beamInsert (d slot : Nat) (l : List BeamEntry) : List BeamEntry :=
  if l.any (fun x => x.1 == d && x.2.1 == slot) then l
  else (insertBy (fun a b => decide (a.1 < b.1) || (a.1 == b.1 && decide (a.2.1 < b.2.1)))
    (d, slot, false) l).take 4

def recOf (c : Coll) (slot : Nat) : Option ScafRec := c.scaffold.find? (·.slot == slot)
def recAt (c : Coll) (i : Nat) : Option ScafRec := c.scaffold.find? (·.idx == i)

/-- A Scaffold member inserted at or before the epoch. -/
def seen (s : State) (c : Coll) (e slot : Nat) : Bool := visible s c e slot != .absent

/-- The neighbours of one record taken into the beam. -/
def expandRec (s : State) (c : Coll) (e : Nat) (sc : Scorer) (r : ScafRec) (l : List BeamEntry) :
    List BeamEntry :=
  r.nbrs.foldl (fun l i =>
    match recAt c i with
    | none => l
    | some y => if seen s c e y.slot then beamInsert (score sc y.sketch) y.slot l else l) l

/-- Up to `n` expansions; the records read go with the beam. -/
def beamSteps (s : State) (c : Coll) (e : Nat) (sc : Scorer) :
    Nat → List BeamEntry → List Nat → List BeamEntry × List Nat
  | 0, l, reads => (l, reads)
  | n + 1, l, reads =>
    match l.find? (fun x => !x.2.2) with
    | none => (l, reads)
    | some x =>
      match recOf c x.2.1 with
      | none => (l, reads)
      | some r =>
        let l' := expandRec s c e sc r l
        beamSteps s c e sc n
          (mapIf (fun y => y.1 == x.1 && y.2.1 == x.2.1) (fun y => (y.1, y.2.1, true)) l')
          (reads ++ r.idx :: r.nbrs)

/-- The visible member of lowest Scaffold index. -/
def firstRec (s : State) (c : Coll) (e : Nat) : Option ScafRec :=
  (sortBy (fun a b => decide (a.idx < b.idx)) c.scaffold).find? fun r => seen s c e r.slot

/-- The entry points (score, slot) in beam order, and the records read; none under R73. -/
def scaffoldWalk (s : State) (c : Coll) (e : Nat) (sc : Scorer) :
    Option (List (Nat × Nat) × List Nat) :=
  match firstRec s c e with
  | none => none
  | some r =>
    let x := beamSteps s c e sc 64 [(score sc r.sketch, r.slot, false)] [r.idx]
    some (x.1.map fun y => (y.1, y.2.1), x.2)

/-- The ranges of the records that a Scaffold walk reads. -/
def scafRanges (c : Coll) (reads : List Nat) : List Range :=
  (reads.foldl (fun l i => if l.contains i then l else l ++ [i]) []).map fun i =>
    { addr := dScaffold c.desc + i * dScafStride c.desc, len := dScafStride c.desc }

/-- The course of the Scaffold walk (R71). -/
def scafCourse (s : State) (c : Coll) : Nat :=
  match homeOf s (unitOf (dScaffold c.desc)) with
  | .stack a => a / stackBytes
  | _ => dHome c.desc

/-! ### A walk's queues (R84 to R86) -/

/-- Bits h1 and h2 of the visited filter (R86). -/
def visitedBits (L slot : Nat) : Nat × Nat :=
  let x := mix (slot + 2 ^ 48)
  (x % 2 ^ 32 % (128 * L), x / 2 ^ 32 % (128 * L))

def visitedTest (L v slot : Nat) : Bool :=
  bit v (visitedBits L slot).1 && bit v (visitedBits L slot).2

def visitedMark (L v slot : Nat) : Nat :=
  v ||| 2 ^ (visitedBits L slot).1 ||| 2 ^ (visitedBits L slot).2

/-- The key order of R84. -/
def keyLt (a b : Nat × Nat) : Bool := decide (a.1 < b.1) || (a.1 == b.1 && decide (a.2 < b.2))

/-- Insertion into the candidate queue (R84): none when nothing was added. -/
def cqInsert (L : Nat) (x : Cand) (l : List Cand) : Option (List Cand) :=
  let key := fun (y : Cand) => (y.d, y.slot)
  if l.any (fun y => key y == key x) then none
  else if l.length < L || (l.getLast?.elim false fun y => keyLt (key x) (key y)) then
    some ((insertBy (fun a b => keyLt (key a) (key b)) x l).take L)
  else none

/-- Insertion into the result queue (R85). -/
def rqInsert (R : Nat) (x : Nat × Nat) (l : List (Nat × Nat)) : Option (List (Nat × Nat)) :=
  if l.contains x then none
  else if l.length < R || (l.getLast?.elim false fun y => keyLt x y) then
    some ((insertBy keyLt x l).take R)
  else none

/-- The core at admission: entry points in both queues (R74). -/
def startCore (p : WalkParams) (filtered : Bool) (live : Nat → Bool) (points : List (Nat × Nat)) :
    WalkCore :=
  points.foldl (fun k x =>
    { k with
      cq := (cqInsert p.L { d := x.1, slot := x.2, live := live x.2, know := false, pass := false }
        k.cq).getD k.cq
      rq := if !filtered && live x.2 then (rqInsert p.R x k.rq).getD k.rq else k.rq
      visited := visitedMark p.L k.visited x.2 }) {}

/-- One entry of a block offered to the queues (R83). -/
def offer (p : WalkParams) (pred : Option Pred) (vis : Nat → Vis) (sc : Scorer) (k : WalkCore)
    (e : BEntry) : WalkCore :=
  if vis e.slot == .absent || visitedTest p.L k.visited e.slot then k
  else
    let d := score sc e.sketch
    let live := vis e.slot == .live
    let pass := pred.isNone || e.attr.elim false (passes pred)
    let cq := cqInsert p.L { d := d, slot := e.slot, live := live, know := e.attr.isSome,
                             pass := pass } k.cq
    let rq := if live && pass then rqInsert p.R (d, e.slot) k.rq else none
    { k with
      cq := cq.getD k.cq
      rq := rq.getD k.rq
      visited := if cq.isSome || rq.isSome then visitedMark p.L k.visited e.slot else k.visited
      nodes := k.nodes + 1 }

/-- The block of a candidate processed (R83). -/
def processBlock (p : WalkParams) (pred : Option Pred) (vis : Nat → Vis) (sc : Scorer) (x : Cand)
    (es : List BEntry) (own : BitVec 64) (k : WalkCore) : WalkCore :=
  let k1 := es.foldl (offer p pred vis sc) k
  let pass := if x.know then x.pass else passes pred own
  { k1 with
    cq := mapIf (fun y => y.d == x.d && y.slot == x.slot) (fun y => { y with expanded := true }) k1.cq
    rq := if x.live && pass then (rqInsert p.R (x.d, x.slot) k1.rq).getD k1.rq else k1.rq
    hops := k1.hops + 1 }

/-- The unexpanded candidates that a round takes (R81). -/
def roundOf (p : WalkParams) (k : WalkCore) : List Cand := (k.cq.filter (!·.expanded)).take p.W

/-! ### The build search, run to its end (R154) -/

/-- The range of a slot's Wall block. -/
def blockRange (c : Coll) (slot : Nat) : Range :=
  { addr := blockAddr c slot, len := dBlock c.desc, kind := 0 }

/-- The bytes of a block no longer check (R48, R51). -/
def checkFails (m : Mem) (x : Range) : Bool :=
  let bs := readBytes m x.addr x.len
  getLE bs (x.len - 4) 4 != crc32c (bs.take (x.len - 4))

/-- The status of a block read from a stack (R89, R51, R553), 0 for a good one. -/
def stackStatus (s : State) (c : Coll) (slot : Nat) : Nat :=
  let x := blockRange c slot
  if poisonedIn s x then 0x32
  else match findBlock c slot with
    | none => 0x30
    | some b => if b.lost then 0x32 else if b.corrupt || checkFails s.mem x then 0x30 else 0

/-- The status of a block as a build search or a REPAIR reads it (R51, R87, R89, R555). -/
def blockStatus (s : State) (c : Coll) (slot : Nat) : Nat :=
  if homeOf s (unitOf (blockAddr c slot)) == .tile then
    match findBlock c slot with
    | none => 0x30
    | some b =>
      if (s.bricks.getD (brickOf slot) {}).deadDies.contains (planeOf slot / 4) || b.lost then 0x32
      else if b.corrupt then 0x30 else 0
  else stackStatus s c slot

/-- The BLOCK_INTEGRITY record of a block, and the record of a read that failed (R558, R559); which page
of its die the media map gave the read is free. -/
def blockRecord (s : State) (slot plane st : Nat) : State :=
  let page := plane / 4 * 2 ^ 61 + Config.freePage s.drawn % 2 ^ 36
  if st == 0x30 then hwError s 1 0x13 (brickOf slot) slot 0x30 0
  else if st == 0x32 then
    hwError { s with drawn := s.drawn + 1 } 1 0x10 (brickOf slot) page 0x32 0
  else s

/-- A build search as it goes: its core, the slots whose blocks it has processed, the block that could
not be used with its status (R87), and what stands in the way of a read (R282). -/
structure BuildWalk where
  core : WalkCore
  read : List Nat := []
  err : Option (Nat × Nat) := none
  stop : Option (Nat × Range × Reach) := none
  deriving DecidableEq, Repr

/-- The blocks of a round processed in order, up to the hop budget. -/
def roundBlocks (s : State) (got : List Nat) (c : Coll) (e : Nat) (p : WalkParams) (sc : Scorer) :
    List Cand → BuildWalk → BuildWalk
  | [], w => w
  | x :: xs, w =>
    if p.budget ≤ w.core.hops then w
    else match reachRanges s got [{ blockRange c x.slot with kind := 0 }] with
      | some (u, r, .ends st) =>
        if st == 0x32 then { w with err := some (x.slot, 0x32) } else { w with stop := some (u, r, .ends st) }
      | some y => { w with stop := some y }
      | none =>
        match findBlock c x.slot with
        | none => { w with err := some (x.slot, 0x30) }
        | some b =>
          if blockStatus s c x.slot != 0 then { w with err := some (x.slot, blockStatus s c x.slot) }
          else roundBlocks s got c e p sc xs { w with
            core := processBlock p none (visible s c e) sc x (viewAt s c b e) b.own w.core
            read := x.slot :: w.read }

/-- Rounds until the walk stops. -/
def walkRounds (s : State) (got : List Nat) (c : Coll) (e : Nat) (p : WalkParams) (sc : Scorer) :
    Nat → BuildWalk → BuildWalk
  | 0, w => w
  | f + 1, w =>
    if w.err.isSome || w.stop.isSome || decide (p.budget ≤ w.core.hops) ||
        (roundOf p w.core).isEmpty then w
    else walkRounds s got c e p sc f (roundBlocks s got c e p sc (roundOf p w.core) w)

/-! ### Walks in the Bricks -/

/-- Walker slots of a Brick (R33, R96). -/
def slotTotal (s : State) : Nat := if kv5Mode s then 128 else 1024

/-- Slots that a walk occupies (R76, R97). -/
def slotsNeeded (s : State) (d : List Byte) (p : WalkParams) : Nat :=
  let F := 512 + 24 * p.L + 8 * p.R
  if kv5Mode s then ceilDiv (F + if dKv5 d then 512 * dSubs d else 0) 24576 else ceilDiv F 3072

/-- Slots of a Brick in use: by admitted walks, and by Scaffold walks that wait or hold a hand-off
(R71, R75, R283). -/
def slotsHeld (s : State) (b : Nat) : Nat :=
  (s.bricks.getD b {}).slotsInUse +
    (s.walks.filter fun w => w.stage == .handoff && w.sender == some b).length +
    (s.slab.gathers.filter fun r => r.slot == some b).length

/-- The Brick of a course with the most free slots, the lowest among equals (R71); none where no Brick of
the course has a free slot, and the Scaffold walk then runs at once without one (DESIGN CHOICE,
log 120). -/
def scafBrick (s : State) (course : Nat) : Option Nat :=
  let b := ((List.range 8).map (fun i => 8 * course + i)).foldl
    (fun m b => if slotsHeld s b < slotsHeld s m then b else m) (8 * course)
  if slotsHeld s b < slotTotal s then some b else none

def findWalk (s : State) (id : Nat) : Option Walk := s.walks.find? (·.id == id)
def updWalk (s : State) (id : Nat) (f : Walk → Walk) : State :=
  { s with walks := mapIf (·.id == id) f s.walks }
def updBrick (s : State) (b : Nat) (f : Brick → Brick) : State :=
  { s with bricks := modAt s.bricks b f }

/-- Walks waiting in a Brick's admission queue. -/
def admissionDepth (k : Brick) : Nat := k.urgentQ.length + k.normalQ.length

/-- A walk put in its Brick's admission queue (R75). -/
def enqueueWalk (s : State) (w : Walk) : State :=
  updBrick (updWalk s w.id fun w => { w with stage := .queued }) w.brick fun k =>
    if w.urgent then { k with urgentQ := k.urgentQ ++ [w.id] }
    else { k with normalQ := k.normalQ ++ [w.id] }

/-- A walk handed off from the Scaffold walk, or held by its sender (R74, R75). -/
def handOff (s : State) (w : Walk) : State :=
  let s1 := { s with walks := s.walks ++ [w], nextWalk := s.nextWalk + 1 }
  if admissionDepth (s.bricks.getD w.brick {}) < 2048 then enqueueWalk s1 w else s1

/-! ### Re-rank requests (R105, R109, R111) -/

/-- The re-rank copy and side row of a slot, as ranges of a record gather (R58 to R60, R281). -/
def copyRanges (c : Coll) (slot : Nat) : List Range :=
  match findSeg c (slot / segSlots), findSlot c slot with
  | some g, some x =>
    { addr := g.rerank + slot % segSlots * dStride c.desc, len := dStride c.desc, kind := 1 } ::
      (match x.sideRow with
       | some r => [{ addr := g.side + 32 * r, len := 32, kind := 1 }]
       | none => [])
  | _, _ => []

/-- A range that touches a unit whose home is Bulk. -/
def bulkHomed (s : State) (r : Range) : Bool := (unitsOf r).any fun u => homeOf s u == .bulk

/-- The flash pages of 16 KiB that ranges touch in Bulk, each once, in ascending order (R281). -/
def flashPages (s : State) (rs : List Range) : List Nat :=
  sortBy (fun a b => decide (a < b)) ((rs.flatMap fun r => if bulkHomed s r then
    ((List.range ((r.addr + r.len - 1) / 16384 - r.addr / 16384 + 1)).map fun i =>
      r.addr / 16384 * 16384 + 16384 * i).filter fun p => homeOf s (unitOf p) == .bulk
    else []).foldl (fun l p => if l.contains p then l else p :: l) [])

/-- The distinct slots of candidates, in ascending order: the columns of a tile (R109). -/
def distinctSlots (cands : List (Nat × Nat)) : List Nat :=
  sortBy (fun a b => decide (a < b))
    (cands.foldl (fun l x => if l.contains x.1 then l else x.1 :: l) [])

/-- The columns of a tile: the union of its candidates (R109). -/
def tileCols (t : Tile) : List Nat := distinctSlots (t.reqs.flatMap (·.cands))

/-- The tile has room for a request: one more row, at most 512 columns (R109). -/
def tileFits (t : Tile) (r : RerankReq) : Bool :=
  decide ((tileCols { t with reqs := r :: t.reqs }).length ≤ 512) && decide (t.reqs.length < 512)

/-- Work put in the scoreboard queue, or held while it is full (R191). -/
def slabEnqueue (s : State) (op : SlabOp) : State :=
  let op := { op with id := s.slab.nextOp }
  let full := !s.slab.heldWork.isEmpty || decide (4096 ≤ s.slab.queue.length)
  { s with
    slab := { s.slab with
      nextOp := s.slab.nextOp + 1
      queue := if full then s.slab.queue else s.slab.queue ++ [op]
      heldWork := if full then s.slab.heldWork ++ [op] else s.slab.heldWork } }

/-- The Slab operation of a closed tile (R109, R187); the results of pairs that no request asked for do
not leave it (R110). -/
def tileOp (s : State) (t : Tile) : SlabOp :=
  let d := ((findColl s t.coll).map (·.desc)).getD []
  let n := (tileCols t).length
  { id := 0, urgent := t.reqs.any (·.urgent), work := .tile t.reqs, M := t.reqs.length, N := n,
    K := dDim d, arith := dFormat d, outBytes := 4 * (t.reqs.map fun r => r.cands.length).sum
    mayPack := packRerank s && decide (t.reqs.length ≤ 256) && decide (n ≤ 256)
    pack := [dDim d, dFormat d, dFormat d, 10] }

/-- A tile closed and queued (R109). -/
def closeTile (s : State) (t : Tile) : State :=
  slabEnqueue { s with slab := { s.slab with tiles := s.slab.tiles.filter (·.id != t.id) } }
    (tileOp s t)

/-- A request in operations of its own, one for each `cols` of its distinct candidates (R109, R135). -/
def partOps (s : State) (r : RerankReq) (cols : Nat) : State :=
  let op := tileOp s { id := 0, coll := r.query.coll, reqs := [r], since := 0 }
  let n := (distinctSlots r.cands).length
  let k := ceilDiv n cols
  (List.range k).foldl (fun s i =>
    let w := min cols (n - cols * i)
    slabEnqueue s { op with
      work := .rows r i k, N := w, mayPack := false, outBytes := 4 * w }) s

/-- The candidates of part `part` of a request that is cut by `cols` columns. -/
def partCands (r : RerankReq) (cols part : Nat) : List (Nat × Nat) :=
  let slots := ((distinctSlots r.cands).drop (cols * part)).take cols
  r.cands.filter fun x => slots.contains x.1

/-- The columns by which a request's operations are cut: those of a tile, or of a SCAN (R109, R135). -/
def partCols (r : RerankReq) : Nat := if r.query.path == 1 then 4096 else 512

/-- A new tile with its first request. -/
def openTile (s : State) (r : RerankReq) : State :=
  { s with
    slab := { s.slab with
      tiles := s.slab.tiles ++ [{ id := s.slab.nextTile, coll := r.query.coll, reqs := [r],
                                  since := now s }]
      nextTile := s.slab.nextTile + 1 } }

/-- A request joins the open tile of its collection, which closes when it is full or urgent, or
opens the next (R109). -/
def joinTile (s : State) (r : RerankReq) : State :=
  if 512 < (distinctSlots r.cands).length then partOps s r 512
  else
    let s1 := match s.slab.tiles.find? (·.coll == r.query.coll) with
      | some t =>
        if tileFits t r then
          { s with
            slab := { s.slab with
              tiles := mapIf (·.id == t.id) (fun t => { t with reqs := t.reqs ++ [r] })
                s.slab.tiles } }
        else openTile (closeTile s t) r
      | none => openTile s r
    match s1.slab.tiles.find? (·.coll == r.query.coll) with
    | some t => if r.urgent || 512 ≤ t.reqs.length then closeTile s1 t else s1
    | none => s1

def updGather (s : State) (id : Nat) (f : RerankReq → RerankReq) : State :=
  { s with slab := { s.slab with gathers := mapIf (·.id == id) f s.slab.gathers } }
/-- A request is no longer among those that wait; its stream ends, and its walker slot is free. -/
def dropGather (s : State) (id : Nat) : State :=
  dropOwn { s with
    slab := { s.slab with gathers := s.slab.gathers.filter (·.id != id) }
    tiers := { s.tiers with
      faults := s.tiers.faults.map fun f =>
        { f with waiters := f.waiters.filter fun w => w.who != .gather id } } } (.gather id)

/-- The read of a Bulk page queued at the Brick that holds it: the manual gives no place, and unit and page
numbers choose one (DESIGN CHOICE, log 23). -/
def bulkRead (s : State) (owner : ReadFor) (page : Nat) : State :=
  let b := page / unitBytes % 64
  updBrick s b fun k => { k with
  planes := modAt k.planes (page / 16384 % 32)
    (· ++ [{ owner := owner, origin := b, coll := 0, slot := 0 }]) }

/-- What stands in the way of a gather: of its copies (R282), or of media that need a key (R519). -/
def gatherBlock (s : State) (got : List Nat) (rs : List Range) : Option (Nat × Range × Reach) :=
  match reachRanges s got rs with
  | some x => some x
  | none => if s.lintel.withheld && rs.any (bulkHomed s) then
      (rs.find? (bulkHomed s)).map fun r => (unitOf r.addr, r, .ends 0x50) else none

/-- The command whose entry a query shares; the part of a fan-out has none. -/
def queryCmd (s : State) (q : Query) : Option Cmd := if q.fan.isSome then none else findCmd s q.cmd

/-- A request that something stands in the way of: its query ends, or it waits where it stands (R105,
R281 to R283, R367). -/
def holdGather (s : State) (r : RerankReq) (stop u : Nat) (x : Range) (y : Reach) : State :=
  let wait := fun (w : Wait) => askPart (updGather s r.id fun r => { r with
    waits := some w, got := r.got ++ [partKey x u] }) (.req r.id) x u y
  match y with
  | .ends st => failQuery (dropGather s r.id) r.query { status := st }
  | .fault cause =>
    if s.tiers.enable then
      openFault (haltOwn (updGather s r.id fun r => { r with unit := some u }) (.gather r.id))
        (some (.gather r.id)) u cause x stop
    else failQuery (dropGather s r.id) r.query { status := 0x20, a := u }
  | .host => wait .host
  | .far l => wait (.far l)
  | .peer _ => wait (.peer s.mortar.nextTag)
  | .off => updGather (holdWork s) r.id fun r => { r with waits := some .domain }
  | _ => s

/-- The slices that a predicate reads: all 16 of a RANGE term's field, those of A for a MASK. -/
def predSlices (p : Option Pred) : List Nat :=
  match p with
  | none => []
  | some p => (List.range 64).filter fun i => p.terms.any fun t =>
      t.2.1 == i / 16 && (t.1 % 16 != 1 || bit t.2.2.1 (i % 16))

/-- The slices that a SCAN reads, over every segment (R131, R135). -/
def sliceRanges (c : Coll) (p : Option Pred) : List Range :=
  c.segments.flatMap fun g => (predSlices p).map fun i =>
    { addr := g.side + 64 * 2 ^ 20 + i * 2 ^ 21, len := 2 ^ 21 }

/-- A gather that is whole goes to the Slab: into a tile, or for a SCAN in rows of at most 4,096 in
ascending slot order (R109, R135). -/
def sendGather (s : State) (r : RerankReq) : State :=
  if r.query.path == 1 then partOps s r 4096 else joinTile s r

/-- What a gather reads. -/
def gatherRanges (c : Coll) (r : RerankReq) : List Range := r.cands.flatMap fun x => copyRanges c x.1

/-- The gather of a request goes on: its copies are read, in Bulk through their Bricks (R105, R281), once
its tile is in flight (R307). -/
def readCopies (s : State) (r : RerankReq) (c : Coll) : State :=
  let rs := gatherRanges c r
  match gatherBlock s r.got rs with
  | some (u, x, w) => holdGather s r (courseStop (dHome c.desc)) u x w
  | none =>
    let bulk := flashPages s rs
    bulk.foldl (fun s x => bulkRead s (.gather r.id) x)
      (updGather s r.id fun r => { r with loaded := true, reads := bulk.length, unit := none })

/-- A gather tried: it binds its stream, and once that has a place in its engine it reads. -/
def tryGather (s : State) (r : RerankReq) : State :=
  match findColl s r.query.coll with
  | none => failQuery (dropGather s r.id) r.query noColl
  | some c =>
    if r.loaded then s else
    let o := Own.gather r.id
    let s1 := if (findOwn s o).isSome then s
      else bindOwn s o r.query.cmd r.urgent ((gatherRanges c r).head?.map (·.addr))
    let s2 := startOwn s1 o
    if ownInFlight s2 o then readCopies s2 r c else s2

/-- A query's request put with those that wait. -/
def addGather (s : State) (q : Query) (cands : List (Nat × Nat)) (urgent : Bool) :
    State × RerankReq :=
  let r : RerankReq := { id := s.slab.nextReq, query := q, cands := cands, urgent := urgent }
  ({ s with
    slab := { s.slab with
      gathers := s.slab.gathers ++ [r], nextReq := s.slab.nextReq + 1 } }, r)

/-- A re-rank request of a stopped walk or a list; with no candidates it is selected at once. -/
def startRerank (s : State) (q : Query) (cands : List (Nat × Nat)) (urgent : Bool) : State :=
  if cands.isEmpty then selectQuery s q []
  else
    let x := addGather s q cands urgent
    tryGather x.1 x.2

/-- The tile of a gather is delivered once all it reads has come (R312). -/
def deliverGather (s : State) (id : Nat) : State :=
  match s.slab.gathers.find? (·.id == id) with
  | none => s
  | some r =>
    if r.loaded && r.reads == 0 && r.waits.isNone then
      sendGather (dropGather (endOwn s (.gather id)) id) r
    else s

/-! ### The streams' rows (R307, R312) -/

/-- The place given to a stream of the module's own: a gather begins to read. -/
def issueOwn (s : State) (t : Stream) (o : Own) : State :=
  match o with
  | .gather id =>
    match s.slab.gathers.find? (·.id == id) with
    | some r => tryGather s r
    | none => dropOwn s o
  | .load _ => issueTile s t

def execHodTileIssue (engine : BitVec 4) (s : State) : Host.Outcome State Fault Refusal :=
  let e := engine.toNat
  .next (if !engineOn s e then (if (nextToIssue s e).isSome then holdWork s else s)
    else if 8 ≤ tilesInFlight s e then s
    else
      match nextToIssue s e with
      | none => s
      | some t =>
        match t.own, findCmd s t.cmd with
        | some o, _ => issueOwn s t o
        | none, some c => tryIssue s c t
        | none, none => s)

def execHodTileDelivered (stream : Nat) (s : State) : Host.Outcome State Fault Refusal :=
  .next (match findStream s stream with
    | none => s
    | some t =>
      if !engineOn s t.engine then holdWork s
      else match t.own, t.inFlight, findCmd s t.cmd with
        | some (.gather id), _ :: _, _ => deliverGather s id
        | none, i :: _, some c => tryDeliver s c t i
        | _, _, _ => s)

/-! ### Stopping (R91, R92) -/

/-- The read was asked for by a walk. -/
def readOf (w : Nat) (r : ReadReq) : Bool :=
  match r.owner with
  | .walk x _ => x == w
  | _ => false

/-- The buffers that reads hold. -/
def readBuffers (l : List ReadReq) : List Nat := l.filterMap (·.buffer)

/-- The reads of a walk that are not yet at a die are withdrawn and their buffers freed, as are those of
landed blocks; a read at a die goes on, and its buffer stays until its block lands (R92). -/
def withdraw (s : State) (w : Walk) : State :=
  let mine := readOf w.id
  let dead := fun (l : List ReadReq) => mapIf mine (fun r => { r with dead := true }) l
  let cut := fun (l : List ReadReq) => dead (l.take 1) ++ (l.drop 1).filter fun r => !mine r
  let waiting := fun (f : TierFault) => f.waiters.filterMap fun x => match x.who with
    | .read r => if mine r then some r else none
    | _ => none
  let gone := s.bricks.flatMap (fun k => k.remote.filter mine ++ k.planes.flatMap fun l =>
    (l.drop 1).filter mine) ++ s.tiers.faults.flatMap waiting
  let landed := (w.round.filter fun e => e.st == .landed).filterMap (·.buffer)
  updBrick { s with
    bricks := s.bricks.map fun k => { k with
      asks := k.asks.filter fun r => !mine r
      remote := k.remote.filter fun r => !mine r
      planes := k.planes.map cut
      bus := dead k.bus
      incoming := dead k.incoming }
    tiers := { s.tiers with
      faults := s.tiers.faults.map fun f => { f with
        waiters := f.waiters.filter fun x => match x.who with
          | .read r => !mine r
          | _ => true } } }
    w.brick fun k => { k with
      buffers := k.buffers.filter fun i => !(readBuffers gone ++ landed).contains i }

/-- A running walk leaves its Brick: reads withdrawn, slots free (R76, R92). -/
def leaveBrick (s : State) (w : Walk) : State :=
  let s1 := withdraw s w
  updBrick { s1 with walks := s1.walks.filter (·.id != w.id) } w.brick
    fun k => { k with slotsInUse := k.slotsInUse - w.slots }

/-- A walk stops, by event 3 when `late`, and hands its result queue to re-rank (R91 to R94). -/
def stopWalk (s : State) (w : Walk) (late : Bool) : State :=
  let s1 := leaveBrick s w
  let q := { w.query with hops := w.core.hops, nodes := w.core.nodes, truncated := late }
  let cands := match findColl s w.query.coll with
    | some c => w.core.rq.filterMap fun x => (findSlot c x.2).map fun y => (x.2, y.vid)
    | none => []
  startRerank { s1 with
    sched := { s1.sched with
      truncations := if late then (s1.sched.truncations + 1) % 2 ^ 64 else s1.sched.truncations } }
    q cands w.urgent

/-- A walk ends with an error and hands nothing to re-rank (R87). -/
def failWalk (s : State) (w : Walk) (e : Err) : State :=
  failQuery (leaveBrick s w) { w.query with hops := w.core.hops } e

/-- The deadline has passed (R390). -/
def pastDeadline (s : State) (p : WalkParams) : Bool := p.deadline != 0 && decide (p.deadline ≤ now s)

/-! ### Rounds and reads (R77, R81, R88 to R90) -/

/-- A round starts: its candidates in the reorder buffer, their blocks asked for in order (R81). -/
def startRound (s : State) (w : Walk) : State :=
  let cs := roundOf w.params w.core
  let asks := cs.zipIdx.map fun x => ({
    owner := .walk w.id x.2, origin := w.brick, coll := w.query.coll, slot := x.1.slot } : ReadReq)
  let s1 := updWalk s w.id fun w => { w with round := cs.map fun x => { cand := x } }
  updBrick s1 w.brick fun k =>
    let free := 256 - k.buffers.length - k.asks.length
    { k with asks := k.asks ++ asks, stalls := (k.stalls + (asks.length - free)) % 2 ^ 64 }

/-- Admission and the end of a round: the deadline, the hop budget, and the next round (R91, R93). -/
def nextRound (s : State) (w : Walk) : State :=
  if w.core.hops == 0 && pastDeadline s w.params then stopWalk s w true
  else if w.params.budget ≤ w.core.hops || (roundOf w.params w.core).isEmpty then stopWalk s w false
  else if pastDeadline s w.params then stopWalk s w true
  else startRound s w

/-- The block a read asks for. -/
def blockOf (s : State) (r : ReadReq) : Option Block := (findColl s r.coll).bind (findBlock · r.slot)

/-- The name of a read's block. -/
def readRange (s : State) (r : ReadReq) : Range :=
  match findColl s r.coll with
  | some c => blockRange c r.slot
  | none => { addr := 0, len := 0, kind := 0 }

/-- The walk and the entry that a read serves. -/
def walkOf (s : State) (r : ReadReq) : Option Walk :=
  match r.owner with
  | .walk w _ => if r.dead then none else findWalk s w
  | _ => none

/-- The entry of a read's walk changed. -/
def updEntry (s : State) (r : ReadReq) (f : REntry → REntry) : State :=
  match r.owner with
  | .walk w e => if r.dead then s else updWalk s w fun w => { w with round := modAt w.round e f }
  | _ => s

/-- A read has its result and is on its way back. -/
def returnRead (s : State) (r : ReadReq) (result : Nat) : State :=
  updEntry s r fun e => { e with st := .returned, result := result }

/-- A read reaches the owning Brick: the plane queue of its block, the stack that is its home
(R88 to R90), or a tier fault (R282). One whose stack is without power is held (R32). -/
def sendRead (s : State) (r : ReadReq) : State :=
  let x := readRange s r
  let u := unitOf x.addr
  match reachUnit s true 0 false u with
  | .fault cause =>
    match walkOf s r with
    | none => s
    | some w =>
      if s.tiers.enable then openFault s (some (.read r)) u cause x (courseStop (brickOf r.slot / 8))
      else failWalk s w { status := 0x20, a := u }
  | .off => updBrick (holdWork s) (brickOf r.slot) fun k => { k with remote := k.remote ++ [r] }
  | _ =>
    match homeOf s u with
    | .tile => updBrick s (brickOf r.slot) fun k => { k with
        planes := modAt k.planes (planeOf r.slot) (· ++ [r]) }
    | _ =>
      let st := ((findColl s r.coll).map fun c => stackStatus s c r.slot).getD 0x30
      updBrick (returnRead (if st == 0x30 then blockRecord s r.slot 0 st else s) r st) r.origin
        fun k => { k with incoming := k.incoming ++ [{ r with result := st }] }

/-- The lowest landing buffer that is free (R77; DESIGN CHOICE, log 123). -/
def freeBuffer (k : Brick) : Option Nat := (List.range 256).find? fun i => !k.buffers.contains i

/-- A read that has its buffer is sent towards its die: to this Brick's controller, or to the owning
Brick's (R77, R88). -/
def sendGranted (s : State) (b : Nat) (r : ReadReq) : State :=
  let s1 := updEntry s r fun e => { e with st := .issued, buffer := r.buffer }
  if brickOf r.slot == b then sendRead s1 r
  else updBrick s1 (brickOf r.slot) fun k => { k with remote := k.remote ++ [r] }

def execLandingBufferGrant (brick : BitVec 6) (s : State) : Host.Outcome State Fault Refusal :=
  let b := brick.toNat
  let k := s.bricks.getD b {}
  .next (match k.asks, freeBuffer k with
    | r :: rest, some i =>
      if brickOn s b then
        sendGranted (updBrick s b fun k => { k with asks := rest, buffers := k.buffers ++ [i] }) b
          { r with buffer := some i }
      else holdWork s
    | _, _ => s)

def execRemoteBlockReadRequest (brick : BitVec 6) (s : State) : Host.Outcome State Fault Refusal :=
  .next (match (s.bricks.getD brick.toNat {}).remote with
    | [] => s
    | r :: rest =>
      if brickOn s brick.toNat then
        sendRead (updBrick s brick.toNat fun k => { k with remote := rest }) r
      else holdWork s)

/-! ### Admission (R75) -/

/-- The walk at the head of the class that is admitted now. -/
def admissionHead (k : Brick) : Option Nat := (k.urgentQ ++ k.normalQ).head?

def execWalkAdmission (brick : BitVec 6) (s : State) : Host.Outcome State Fault Refusal :=
  let b := brick.toNat
  .next (match (admissionHead (s.bricks.getD b {})).bind (findWalk s) with
    | none => s
    | some w =>
      if !brickOn s b then holdWork s
      else if slotTotal s < slotsHeld s b + w.slots then s
      else
        let s1 := updBrick s b fun k => { k with
          urgentQ := k.urgentQ.filter (· != w.id)
          normalQ := k.normalQ.filter (· != w.id)
          slotsInUse := k.slotsInUse + w.slots }
        nextRound (updWalk s1 w.id fun w => { w with stage := .running })
          { w with stage := .running })

/-- A held hand-off enters the queue: the oldest of those held, whatever its class (DESIGN CHOICE,
log 124). -/
def execAdmissionQueueRoom (brick : BitVec 6) (s : State) : Host.Outcome State Fault Refusal :=
  let b := brick.toNat
  .next (if admissionDepth (s.bricks.getD b {}) < 2048 then
      match s.walks.find? (fun w => w.brick == b && w.stage == .handoff) with
      | some w => enqueueWalk s w
      | none => s
    else s)

/-! ### Reads that end (R51, R87, R554) -/

/-- The hardware error of a read that fails, or that needed a refresh (R554, R558, R559). -/
def readError (s : State) (b : Nat) (r : ReadReq) (plane st retries : Nat) : State :=
  let page := plane / 4 * 2 ^ 61 + Config.freePage s.drawn % 2 ^ 36
  let t := { s with drawn := s.drawn + 1 }
  if st == 0x30 then hwError s 1 0x13 b r.slot 0x30 0
  else if st == 0x32 then hwError t 1 0x10 b page 0x32 0
  else if 3 ≤ retries then hwError t 0 0x10 b page 0 1
  else s

/-- The read is for a Wall block. -/
def forBlock (r : ReadReq) : Bool := match r.owner with | .walk _ _ => true | _ => false

/-- The status of an array read (R87, R554, R555, R519). -/
def readResult (s : State) (b plane retries : Nat) (mismatch : Bool) (r : ReadReq) : Nat :=
  if s.lintel.withheld then 0x50
  else if (s.bricks.getD b {}).deadDies.contains (plane / 4) || 7 < retries then 0x32
  else if !forBlock r then 0
  else match blockOf s r with
    | none => 0x30
    | some x => if x.lost then 0x32 else if mismatch || x.corrupt then 0x30 else 0

/-- A page of a gather is in; the gather fails with one that is lost (R105). -/
def gatherPage (s : State) (req st : Nat) : State :=
  match s.slab.gathers.find? (·.id == req) with
  | none => s
  | some r =>
    if st != 0 then failQuery (dropGather s req) r.query { status := st }
    else updGather s req fun r => { r with reads := r.reads - 1 }

/-- A read that a command as a whole waits for is still queued. -/
def pagesLeft (s : State) (cmd : Nat) : Bool :=
  s.bricks.any fun k => k.planes.any fun l => l.any fun r => r.owner == .cmd cmd

/-- A page that a command as a whole waited for is in: the command goes on with the last of them, or
fails (R105, R248). -/
def cmdPage (s : State) (cmd st : Nat) : State :=
  match findCmd s cmd with
  | none => s
  | some c =>
    if st != 0 then endCmd s c { status := st }
    else if pagesLeft s cmd then s
    else updCmd s cmd fun c => if c.phase == .waiting .host then { c with phase := .ready } else c

/-- A block found bad, or whose retries ran out, stays so until it is written again (R87, R159), and a
block that needed a refresh is put down for it. -/
def noteBlock (s : State) (b : Nat) (r : ReadReq) (st retries : Nat) : State :=
  let s1 := if !forBlock r then s else updColl s r.coll fun c => { c with
    blocks := mapIf (·.slot == r.slot) (fun x => { x with
      corrupt := x.corrupt || st == 0x30
      lost := x.lost || st == 0x32 }) c.blocks }
  updBrick s1 b fun k =>
    if st == 0 && 3 ≤ retries && forBlock r && !k.refresh.contains (r.coll, r.slot) then
      { k with refresh := k.refresh ++ [(r.coll, r.slot)] } else k

/-- The first `n` reads that wait for a channel bus have crossed it (R90): their blocks are on their way
to the landing buffers. -/
def crossBus (s : State) (b n : Nat) : State :=
  (((s.bricks.getD b {}).bus.take n).filter forBlock).foldl
    (fun s r => updBrick s r.origin fun k => { k with incoming := k.incoming ++ [r] })
    (updBrick s b fun k => { k with bus := k.bus.drop n })

/-- A read of an array has its status: a Wall block waits for the bus; a Bulk page crosses it behind
those that completed before it, and what waits for the page goes on (R88, R90, R103). -/
def arrayDone (s : State) (b : Nat) (r : ReadReq) (st : Nat) : State :=
  let s1 := updBrick s b fun k => { k with
    bus := k.bus ++ [{ r with result := st }]
    remoteReads := (k.remoteReads + b2n (forBlock r && r.origin != b)) % 2 ^ 64 }
  match r.owner with
  | .walk _ _ => returnRead s1 r st
  | .gather req => gatherPage (crossBus s1 b (s1.bricks.getD b {}).bus.length) req st
  | .cmd cmd => cmdPage (crossBus s1 b (s1.bricks.getD b {}).bus.length) cmd st

/-- A program or erase runs on a plane, so that its reads wait (R90). -/
def planeBusy (k : Brick) (p : Nat) : Bool := k.programs.any fun x => x.started && x.plane == p

def execFlashReadComplete (brick : BitVec 6) (plane : BitVec 5) (retries : Nat) (mismatch : Bool)
    (s : State) : Host.Outcome State Fault Refusal :=
  let b := brick.toNat
  let p := plane.toNat
  .next (if planeBusy (s.bricks.getD b {}) p then s
    else if !brickOn s b then holdWork s
    else match (s.bricks.getD b {}).planes.getD p [] with
    | [] => s
    | r :: rest =>
      let st := readResult s b p retries mismatch r
      let s1 := updBrick s b fun k => startPrograms { k with planes := modAt k.planes p fun _ => rest }
      arrayDone (noteBlock (readError s1 b r p st retries) b r st retries) b r st)

/-! ### Landing and processing (R79, R82, R83, R87) -/

/-- The first entry of a round that is not processed. -/
def nextEntry (w : Walk) : Option (Nat × REntry) :=
  (w.round.zipIdx.find? fun x => x.1.st != .processed).map fun x => (x.2, x.1)

/-- Landing buffers of a Brick freed. -/
def freeBuffers (l : List Nat) (k : Brick) : Brick :=
  { k with buffers := k.buffers.filter fun i => !l.contains i }

/-- One landed block processed; its buffer is free. -/
def processEntry (s : State) (w : Walk) (i : Nat) (x : REntry) : State :=
  match findColl s w.query.coll with
  | none => failWalk s w noColl
  | some c =>
    match findBlock c x.cand.slot with
    | none => failWalk s w { status := 0x30 }
    | some b =>
      let k := processBlock w.params w.query.pred (visible s c w.query.epoch) w.scorer x.cand
        (viewAt s c b w.query.epoch) b.own w.core
      updBrick (updWalk s w.id fun w => { w with
        core := k
        round := modAt w.round i fun e => { e with st := .processed, buffer := none } }) w.brick
        fun q => freeBuffers x.buffer.toList { q with hops := (q.hops + 1) % 2 ^ 64 }

/-- The ready slot's blocks in reorder order, each after its comparison with the deadline, and then
the next round (R82, R91, R93). -/
def walkOn : Nat → State → Nat → State
  | 0, s, _ => s
  | n + 1, s, id =>
    match findWalk s id with
    | none => s
    | some w =>
      match nextEntry w with
      | none => nextRound s w
      | some (i, x) =>
        if w.params.budget ≤ w.core.hops then stopWalk s w false
        else if x.st != .landed then s
        else if pastDeadline s w.params then stopWalk s w true
        else walkOn n (processEntry s w i x) id

/-- The read of an entry, on a channel bus or past it. -/
def isRead (walk entry : Nat) (r : ReadReq) : Bool := r.owner == .walk walk entry

/-- The block of an entry has come: those before it on its bus have crossed too (R90). The read is no
longer on its way, and with `free` its buffer is free. -/
def takeLanded (s : State) (walk entry : Nat) (free : Bool) : State :=
  let s1 := match s.bricks.findIdx? fun k => k.bus.any (isRead walk entry) with
    | some b => crossBus s b
        (((s.bricks.getD b {}).bus.takeWhile fun r => !isRead walk entry r).length + 1)
    | none => s
  { s1 with
    bricks := s1.bricks.map fun k =>
      let gone := readBuffers (k.incoming.filter (isRead walk entry))
      freeBuffers (if free then gone else []) { k with
        incoming := k.incoming.filter fun r => !isRead walk entry r } }

def execBlockLanded (walk entry : Nat) (s : State) : Host.Outcome State Fault Refusal :=
  .next (match findWalk s walk with
    | none => takeLanded s walk entry true
    | some w =>
      match w.round[entry]? with
      | none => s
      | some x =>
        if x.st != .returned then s
        else if !brickOn s w.brick then holdWork s
        else
          let s1 := takeLanded s walk entry false
          if x.result != 0 then failWalk (updBrick s1 w.brick (freeBuffers x.buffer.toList)) w
            { status := x.result }
          else walkOn 18 (updWalk s1 walk fun w => { w with
            round := modAt w.round entry fun e => { e with st := .landed } }) walk)

def execWalkDeadline (walk : Nat) (s : State) : Host.Outcome State Fault Refusal :=
  .next (match findWalk s walk with
    | none => s
    | some w => if w.stage == .running && pastDeadline s w.params then stopWalk s w true else s)

def execRerankTileClose (tile : Nat) (s : State) : Host.Outcome State Fault Refusal :=
  .next (match s.slab.tiles.find? (·.id == tile) with
    | none => s
    | some t => if t.since + 2000 ≤ now s then closeTile s t else s)

end Sys2Proof.Machine
end

