-- ==== Sys2Proof/Machine/Slab.lean ====
section
/-!
DEFINITION. The Slab's scoreboard (R186 to R192, R194), the rescale memory (R213 to R216), MATMUL
(R217 to R220), RESCALE_LOAD (R214, R215) and PROJECT (R221).
-/

namespace Sys2Proof.Machine

/-! ### Arithmetic formats and cycles (R193, R194, R210) -/

def kcOf (f : Nat) : Nat := [512, 1024, 512, 1024, 512, 512, 512, 512, 512, 16384].getD f 512
def rowCycles (f : Nat) : Nat := if f == 7 || f == 8 then 4 else 1

/-- The compute cycles of one problem (R194), without the bound of its output. -/
def opCycles (pane : Bool) (op : SlabOp) : Nat :=
  ceilDiv op.K (kcOf op.arith) * ceilDiv op.N (if pane then 256 else 512) *
    (rowCycles op.arith * op.M + 512)

/-- The cycles for which a list of packed problems holds the array (R194). -/
def holdCycles (ops : List SlabOp) : Nat :=
  let c := (ops.map (opCycles (decide (1 < ops.length)))).foldl max 0
  max c (ceilDiv (ops.map (·.outBytes)).sum 512)

/-- The operand pairs of R210. -/
def pairOk (fa fb : Nat) (w : Bool) : Bool :=
  if w then (fa == 7 || fa == 4) && [2, 3, 4, 5, 6].contains fb
  else
    (fa == fb && fb ≤ 9) || (fa == 4 && fb == 5) || (fa == 5 && fb == 4) ||
    ((fa == 10 || fa == 7 || fa == 8) && isGrouped fb) || ((fa == 10 || fa == 8) && fb == 7)

/-- The arithmetic format of a pair (R210, R212). -/
def arithOf (fb : Nat) (w : Bool) : Nat := if w then 7 else fb

/-! ### Admission to a pair (R187, R190, R191) -/

/-- The queue in the order of admission: the urgent class, then the others, each in its own order. -/
def admitOrder (q : List SlabOp) : List SlabOp := q.filter (·.urgent) ++ q.filter (!·.urgent)

/-- Rescale entries after a load (R213, R215): a channel at its reset contents is not listed. -/
def loadRescale (mem : List (Nat × F32 × BitVec 32)) (base : Nat) (es : List (F32 × BitVec 32)) :
    List (Nat × F32 × BitVec 32) :=
  let new := (es.zipIdx.map fun e => (base + e.2, e.1.1, e.1.2)).filter fun e =>
    !(e.2.1 == one32 && e.2.2 == 0)
  sortBy (fun a b => decide (a.1 < b.1))
    (mem.filter (fun e => e.1 < base || base + es.length ≤ e.1) ++ new)

/-- A RESCALE_LOAD's entries in memory. -/
def rescaleEntries (s : State) (d : List Byte) : List (F32 × BitVec 32) :=
  (List.range (getLE d 8 4)).map fun i =>
    (BitVec.ofNat 32 (readLE s.mem (getLE d 16 8 + 8 * i) 4),
     BitVec.ofNat 32 (readLE s.mem (getLE d 16 8 + 8 * i + 4) 4))

/-- The ranges of an operand's rows and side table. -/
def mxRanges (h : List Byte) : List Range :=
  { addr := mxData h, len := (mxRows h - 1) * mxStride h +
      rowBytes (mxFormat h) (mxGroup h) (mxCols h) } ::
  (if isIntG (mxFormat h) && mxSideRows h != 0 then
    [{ addr := mxSide h, len := 128 * mxSideRows h }] else [])

/-- What the prologue of an operation reads of rows `lo` to `hi - 1` of an operand: the rows, and the rows
of the side table that they name. -/
def rowRanges (m : Mem) (h : List Byte) (lo hi : Nat) : List Range :=
  let n := rowBytes (mxFormat h) (mxGroup h) (mxCols h)
  (List.range (hi - lo)).flatMap fun i =>
    let a := mxData h + (lo + i) * mxStride h
    { addr := a, len := n } ::
      (if isIntG (mxFormat h) && readLE m (a + 4) 1 != 0 && readLE m (a + 8) 4 < mxSideRows h then
        [{ addr := mxSide h + 128 * readLE m (a + 8) 4, len := 128 }] else [])

/-- Bytes of an output element (R193, R217). -/
def outWidth (f : Nat) : Nat := fmtWidth f / 8

/-- Bytes of an output row: its elements, or the row record of R218. -/
def outRow (d : List Byte) (n : Nat) : Nat :=
  if byteAt d 4 == 6 then 16 + n + n / groupOf (byteAt d 7) else n * outWidth (byteAt d 4)

/-- The output area of a MATMUL. -/
def outRange (d ha hb : List Byte) : Range :=
  { addr := getLE d 24 8, len := (mxRows ha - 1) * getLE d 32 4 + outRow d (mxRows hb), write := true }

/-- The collection's copy of its projection matrix (R602), as a range. -/
def projRange (s : State) (coll : Nat) : List Range :=
  match (findColl s coll).bind (·.areas[1]?) with
  | some a => [{ addr := a.name, len := a.bytes }]
  | none => []

/-- The copies of candidates. -/
def candRanges (s : State) (coll : Nat) (cands : List (Nat × Nat)) : List Range :=
  match findColl s coll with
  | some c => (distinctSlots cands).flatMap (copyRanges c)
  | none => []

/-- The vectors of a PROJECT. -/
def projectData (s : State) (cmd coll : Nat) : List Range :=
  match findCmd s cmd, findColl s coll with
  | some c, some k =>
    let one := dDim k.desc * inputWidth (inFormat c)
    [{ addr := entData c, len := (entCount c - 1) * inStride c + one }]
  | _, _ => []

/-- What an operation's prologue touches (R192). The frames of a KV_ATTEND are touched before its item
reaches the Slab. -/
def opRanges (s : State) (op : SlabOp) : List Range :=
  match op.work with
  | .matmul _ m0 m1 n0 n1 _ ha hb _ => rowRanges s.mem ha m0 m1 ++ rowRanges s.mem hb n0 n1
  | .rescale cmd _ _ => match findCmd s cmd with
    | some c =>
      let d := readBytes s.mem (entDesc c) 32
      [{ addr := getLE d 16 8, len := 8 * getLE d 8 4 }]
    | none => []
  | .tile reqs => (reqs.head?.map fun r =>
      candRanges s r.query.coll (reqs.flatMap (·.cands))).getD []
  | .rows r part _ => candRanges s r.query.coll (partCands r (partCols r) part)
  | .project cmd coll _ => projectData s cmd coll ++ projRange s coll
  | .sketch _ coll _ => projRange s coll
  | .sketches _ coll _ => projRange s coll
  | .attend _ _ => []

/-- The command of an operation, where it has one of its own. -/
def opCmd (op : SlabOp) : Option Nat :=
  match op.work with
  | .matmul c _ _ _ _ _ _ _ _ => some c
  | .rescale c _ _ => some c
  | .project c _ _ => some c
  | .sketches c _ _ => some c
  | .attend c _ => some c
  | .tile _ => none
  | .rows _ _ _ => none
  | .sketch _ _ _ => none

/-- Whom the reads of an operation's prologue serve; the copies of candidates have been read by their
gathers. -/
def opOwner (op : SlabOp) : Option Owner :=
  match op.work with
  | .sketch r _ _ => some (.req r)
  | _ => (opCmd op).map Owner.cmd

/-- The reads outside the module that have been made for an operation. -/
def opGot (s : State) (op : SlabOp) : List Nat :=
  match opOwner op with
  | some (.cmd c) => ((findCmd s c).map (·.loaded)).getD []
  | some (.req r) => ((s.slab.gathers.find? (·.id == r)).map (·.got)).getD []
  | _ => (opRanges s op).flatMap partKeys

/-- What stands in the way of an operation's prologue. -/
def opBlocked (s : State) (op : SlabOp) : Option (Nat × Range × Reach) :=
  reachRanges s (opGot s op) (opRanges s op)

/-- It faults, or ends: the operation cannot be admitted (R192). -/
def opRefused (s : State) (op : SlabOp) : Bool :=
  match opBlocked s op with
  | some (_, _, .fault _) => true
  | some (_, _, .ends _) => true
  | _ => false

/-- One more read made for an operation. -/
def noteGot (s : State) (op : SlabOp) (key : Nat) : State :=
  match opOwner op with
  | some (.cmd c) => updCmd s c fun c => { c with loaded := c.loaded ++ [key] }
  | some (.req r) => updGather s r fun r => { r with got := r.got ++ [key] }
  | _ => s

/-- The part of a range asked for, where its home lies outside the module. -/
def askOpPart (op : SlabOp) (r : Range) (s : State) (u : Nat) : State :=
  let x := reachPart s (opGot s op) r u
  let s1 := noteGot s op (partKey r u)
  match x, opOwner op with
  | .far l, some _ => { s1 with slab := { s1.slab with fars := s1.slab.fars ++ [(op.id, l)] } }
  | .host, some o => askPart s1 o r u x
  | .peer _, some o => askPart s1 o r u x
  | _, _ => s

/-- Everything that a prologue reads outside the module is asked for. -/
def askOp (s : State) (op : SlabOp) : State :=
  (opRanges s op).foldl (fun s r => (unitsOf r).foldl (askOpPart op r) s) s

/-- Data that a prologue has asked for have still to come. -/
def opAwaits (s : State) (op : SlabOp) : Bool :=
  s.slab.fars.any (·.1 == op.id) || (opOwner op).elim false fun o => accessOut s o false

/-- The operations that pack with the first (R187): those next in the order of admission, of its key. -/
def packMates (s : State) (op : SlabOp) (rest : List SlabOp) : List SlabOp :=
  if op.mayPack then
    (rest.takeWhile fun x => x.mayPack && x.pack == op.pack && !opRefused s x).take 3
  else []

def isLoad (op : SlabOp) : Bool := match op.work with | .rescale _ _ _ => true | _ => false

/-- The load stream of an operation bound (R306, R314). -/
def bindLoad (s : State) (op : SlabOp) : State :=
  startOwn (bindOwn s (.load op.id) ((opCmd op).getD 0) op.urgent
    ((opRanges s op).head?.map (·.addr))) (.load op.id)

/-- The load streams of operations end without a delivery. -/
def dropLoads (s : State) (ops : List SlabOp) : State :=
  ops.foldl (fun s op => dropOwn s (.load op.id)) s

/-- Operations admitted to a pair, whose prologue starts (R190). -/
def admitOps (s : State) (pair0 : Bool) (ops : List SlabOp) : State :=
  let ids := ops.map (·.id)
  let s1 := { s with
    slab := { s.slab with
      queue := s.slab.queue.filter fun x => !ids.contains x.id
      pair0 := if pair0 then .prologue ops else s.slab.pair0
      pair1 := if pair0 then s.slab.pair1 else .prologue ops
      pair0First := if pair0 then s.slab.pair1 == .free else s.slab.pair0 != .free
      rescaleLoading := s.slab.rescaleLoading || ops.any isLoad } }
  ops.foldl (fun s op => askOp (bindLoad s op) op) s1

/-- One part of a request has ended, with the distances of its candidates, or with the failure that its
query then has come to. Once all have, a request none of whose parts failed is selected (R109, R135). -/
def endPart (s : State) (r : RerankReq) (part n : Nat) (e : Option Err) : State :=
  let mine := s.slab.parts.filter (·.1 == r.id)
  let all := mine ++ [(r.id, if e.isSome then n + part else part, r.dists)]
  let failed := all.any fun p => decide (n ≤ p.2.1)
  let rest := s.slab.parts.filter (·.1 != r.id)
  let s1 := { s with
    slab := { s.slab with parts := if all.length < n then rest ++ all else rest } }
  match e with
  | some e => if mine.any fun p => decide (n ≤ p.2.1) then s1 else failQuery s1 r.query e
  | none =>
    if failed || all.length < n then s1
    else
      let ds := all.flatMap (·.2.2)
      selectQuery s1 r.query (r.cands.filterMap fun x => ds.find? (·.1 == x.2))

/-- An operation's command or queries end. -/
def failOp (s : State) (op : SlabOp) (e : Err) : State :=
  match op.work with
  | .tile reqs => reqs.foldl (fun s r => failQuery s r.query e) s
  | .rows r part n => endPart s r part n (some e)
  | .sketch id _ _ => match s.slab.gathers.find? (·.id == id) with
    | some r => failQuery (dropGather s id) r.query e
    | none => s
  | _ => match (opCmd op).bind (findCmd s) with
    | some c => endCmd s c e
    | none => s

/-- Parked operations of commands that have ended are gone. -/
def dropOrphans (s : State) : State :=
  let alive := fun (op : SlabOp) => (opCmd op).elim true fun c => (findCmd s c).isSome
  { s with
    slab := { s.slab with
      parked := (s.slab.parked.map fun g => (g.1, g.2.filter alive)).filter fun g => !g.2.isEmpty } }

/-- Operations leave the queue, their pair or the epilogue for a tier fault (R192), or end where the fault
queue is disabled (R288). `late` marks a group whose epilogue waits. -/
def parkOps (s : State) (late : Bool) (ops : List SlabOp) (u cause : Nat) (r : Range) : State :=
  let ids := ops.map (·.id)
  let s1 := dropLoads { s with
    slab := { s.slab with queue := s.slab.queue.filter fun x => !ids.contains x.id } } ops
  if s.tiers.enable then
    openFault { s1 with slab := { s1.slab with parked := s1.slab.parked ++ [(late, ops)] } }
      (ops.head?.map fun op => .op op.id) u cause r 5
  else ops.foldl (fun s op => failOp s op { status := 0x20, a := u }) s1

def execSlabPairAdmit (s : State) : Host.Outcome State Fault Refusal :=
  .next (if s.slab.pair0 != .free && s.slab.pair1 != .free then s
    else match admitOrder s.slab.queue with
      | [] => s
      | op :: rest =>
        if !slabOn s then holdWork s
        else match opBlocked s op with
          | some (u, r, .fault cause) => parkOps s false [op] u cause r
          | some (_, _, .ends st) => failOp { s with
              slab := { s.slab with queue := s.slab.queue.filter (·.id != op.id) } } op { status := st }
          | _ => admitOps s (s.slab.pair0 == .free) (op :: packMates s op rest))

/-- Held work enters the queue while it has room (R191). -/
def slabRoom (s : State) : State :=
  let n := 4096 - s.slab.queue.length
  { s with
    slab := { s.slab with
      queue := s.slab.queue ++ s.slab.heldWork.take n
      heldWork := s.slab.heldWork.drop n } }

def execSlabQueueRoom (s : State) : Host.Outcome State Fault Refusal := .next (slabRoom s)

/-! ### Values (R206 to R212) -/

/-- One element of C (R206 to R209, R211, R212), and the free value where the group sizes of one
format differ. -/
def element (w : Bool) (a b : QVec) : Int :=
  if w then ((dotVec a (widen b)).toNat : Int)
  else if isIntPlain b.fmt then dotInt a b
  else if isGrouped b.fmt && a.g != b.g then ((Config.mixedDot (rowKey a) (rowKey b)).toNat : Int)
  else ((dotVec a b).toNat : Int)

/-- The elements of a block of a MATMUL (R188). -/
def blockValues (s : State) (d ha hb : List Byte) (m0 m1 n0 n1 : Nat) : List (List Int) :=
  let w := bit (byteAt d 5) 2
  let bs := (List.range (n1 - n0)).map fun i => readRow s.mem hb (n0 + i)
  (List.range (m1 - m0)).map fun i =>
    let a := convertA w (readRow s.mem ha (m0 + i)) (mxFormat hb) (mxGroup hb)
    bs.map (element w a)

/-- The distances of candidates, from the copies in the pallet. -/
def fillReq (s : State) (r : RerankReq) (cands : List (Nat × Nat)) : RerankReq :=
  { r with dists := match findColl s r.query.coll with
      | some c => distances s.mem c r.query.vec cands
      | none => [] }

/-- The vectors of a PROJECT. -/
def projectVecs (s : State) (cmd coll : Nat) : List (List F32) :=
  match findCmd s cmd, findColl s coll with
  | some c, some k => (List.range (entCount c)).map fun i =>
      inputVec (inFormat c) (readBytes s.mem (entData c + i * inStride c)
        (dDim k.desc * inputWidth (inFormat c)))
  | _, _ => []

/-- An operation with its operands in the pair: what it computes is fixed (R188). -/
def fillOp (s : State) (op : SlabOp) : SlabOp :=
  match op.work with
  | .matmul cmd m0 m1 n0 n1 d ha hb _ =>
    { op with work := .matmul cmd m0 m1 n0 n1 d ha hb (blockValues s d ha hb m0 m1 n0 n1) }
  | .rescale cmd base _ => match findCmd s cmd with
    | some c => { op with work := .rescale cmd base
                            (rescaleEntries s (readBytes s.mem (entDesc c) 32)) }
    | none => op
  | .tile reqs => { op with work := .tile (reqs.map fun r => fillReq s r r.cands) }
  | .rows r part n =>
    { op with work := .rows (fillReq s r (partCands r (partCols r) part)) part n }
  | .project cmd coll _ => { op with work := .project cmd coll (projectVecs s cmd coll) }
  | _ => op

def isCompute (p : PairState) : Bool := match p with | .compute _ => true | _ => false

/-- Pair 0 is the one whose operation was admitted first of those in use. -/
def olderIs0 (b : Slab) : Bool :=
  if b.pair0 == .free then false else if b.pair1 == .free then true else b.pair0First

/-- Operations as they enter compute, with the rescale entries as they then stand; a load changes those for
the operations admitted after it (R215). Compute follows the order of admission (R190). -/
def takeRescale (mem : List (Nat × F32 × BitVec 32)) (ops : List SlabOp) :
    List (Nat × F32 × BitVec 32) × List SlabOp :=
  ops.foldl (fun x op => match op.work with
    | .rescale _ base es => (loadRescale x.1 base es, x.2 ++ [op])
    | _ => (x.1, x.2 ++ [{ op with rescale := x.1 }])) (mem, [])

/-- A loaded pair goes into compute. -/
def computePair (b : Slab) (pair0 : Bool) : Slab :=
  match if pair0 then b.pair0 else b.pair1 with
  | .loaded ops =>
    let x := takeRescale b.rescale ops
    { b with
      rescale := x.1
      pair0 := if pair0 then .compute x.2 else b.pair0
      pair1 := if pair0 then b.pair1 else .compute x.2 }
  | _ => b

/-- The array takes up the older pair once it is loaded and no pair is in compute (R190). -/
def startCompute (b : Slab) : Slab :=
  if isCompute b.pair0 || isCompute b.pair1 then b else computePair b (olderIs0 b)

/-- The state of a pair set. -/
def setPair (b : Slab) (pair0 : Bool) (p : PairState) : Slab :=
  if pair0 then { b with pair0 := p } else { b with pair1 := p }

/-- The operands of a pair are in: its load streams end. -/
def pairLoaded (s : State) (pair0 : Bool) (ops : List SlabOp) : State :=
  let s1 := ops.foldl (fun s op => endOwn s (.load op.id)) s
  { s1 with slab := startCompute (setPair s1.slab pair0 (.loaded (ops.map (fillOp s)))) }

/-- One operation of a prologue ends; the others of its pair stay. -/
def endInPair (s : State) (pair0 : Bool) (ops : List SlabOp) (op : SlabOp) (e : Err) : State :=
  let rest := ops.filter (·.id != op.id)
  failOp (dropLoads { s with
    slab := setPair s.slab pair0 (if rest.isEmpty then .free else .prologue rest) } [op]) op e

/-- The end of a prologue: its units are still to be resident (R192), and what it has asked for in. -/
def endPrologue (s : State) (pair0 : Bool) (ops : List SlabOp) : State :=
  let free := fun s => { s with slab := setPair s.slab pair0 .free }
  match ops.findSome? fun op => (opBlocked s op).map fun x => (op, x) with
  | some (_, u, r, .fault cause) => parkOps (free s) false ops u cause r
  | some (op, _, _, .ends st) => endInPair s pair0 ops op { status := st }
  | some (_, _, _, .off) => holdWork s
  | some (op, _, _, _) => askOp s op
  | none => pairLoaded s pair0 ops

def execSlabPrologueEnd (pair : BitVec 1) (s : State) : Host.Outcome State Fault Refusal :=
  .next (match if pair == 0 then s.slab.pair0 else s.slab.pair1 with
    | .prologue ops =>
      if !slabOn s then holdWork s
      else if ops.all fun op => ownInFlight s (.load op.id) && !opAwaits s op then
        endPrologue s (pair == 0) ops
      else s
    | _ => s)

/-- Compute ends: the pair is free, the epilogue begins, and the other pair's compute may start. -/
def endCompute (s : State) (pair0 : Bool) (ops : List SlabOp) : State :=
  { s with
    slab := startCompute { s.slab with
      pair0 := if pair0 then .free else s.slab.pair0
      pair1 := if pair0 then s.slab.pair1 else .free
      epilogue := s.slab.epilogue ++ [ops]
      busyCycles := (s.slab.busyCycles + holdCycles ops) % 2 ^ 64 } }

def execSlabComputeEnd (s : State) : Host.Outcome State Fault Refusal :=
  .next (if !slabOn s then holdWork s else match s.slab.pair0, s.slab.pair1 with
    | .compute ops, _ => endCompute s true ops
    | _, .compute ops => endCompute s false ops
    | _, _ => s)

/-! ### Epilogues (R190, R215 to R218) -/

/-- The rescale entry of a channel (R213). -/
def channel (mem : List (Nat × F32 × BitVec 32)) (i : Nat) : F32 × BitVec 32 :=
  match mem.find? (·.1 == i) with
  | some e => e.2
  | none => (one32, 0)

/-- One output in FP32 (R216): `x` is an exact integer, or an FP32 pattern. -/
def outValue (op : SlabOp) (d : List Byte) (n : Nat) (x : Int) : F32 :=
  let int := isIntPlain op.arith
  let raw : F32 := BitVec.ofInt 32 x
  if bit (byteAt d 5) 0 then
    let c := channel op.rescale (getLE d 36 4 + n)
    if int then fmul (intTo32 (x + c.2.toInt)) c.1
    else fadd (fmul raw c.1) (intTo32 c.2.toInt)
  else if int then intTo32 x
  else raw

/-- The bytes of one output element (R204, R217). -/
def outBytesOf (op : SlabOp) (d : List Byte) (n : Nat) (x : Int) : List Byte :=
  let f := byteAt d 4
  if f == 11 then leBytes 4 (BitVec.ofInt 32 x).toNat
  else leBytes (outWidth f) (floatCode f (outValue op d n x))

/-- An E4M3G row record (R197, R218). -/
def rowRecord (g : Nat) (xs : List F32) : List Byte :=
  let v := quantise 6 g 0 xs
  leBytes 4 v.scale.toNat ++ zeros 4 ++ leBytes 4 0xFFFFFFFF ++ zeros 4 ++
    v.codes.map (BitVec.ofNat 8) ++ v.gs.map (BitVec.ofNat 8)

/-- A finished part of a row of an OUT_FORMAT 6 MATMUL; the row is written once it is whole. -/
def putRow (s : State) (cmd : Nat) (d : List Byte) (N m n0 : Nat) (xs : List F32) : State :=
  let all := s.slab.rows ++ [(cmd, m, n0, xs)]
  let mine := sortBy (fun a b => decide (a.2.2.1 < b.2.2.1))
    (all.filter fun r => r.1 == cmd && r.2.1 == m)
  let row := mine.flatMap (·.2.2.2)
  if row.length < N then { s with slab := { s.slab with rows := all } }
  else deviceWrite { s with
    slab := { s.slab with rows := all.filter fun r => !(r.1 == cmd && r.2.1 == m) } }
    (some (.cmd cmd)) (getLE d 24 8 + m * getLE d 32 4) (rowRecord (groupOf (byteAt d 7)) row)

/-- The rows of a block of a MATMUL written out. -/
def putBlockRows (s : State) (op : SlabOp) (cmd m0 n0 : Nat) (d hb : List Byte)
    (values : List (List Int)) : State :=
  values.zipIdx.foldl (fun s r =>
    if byteAt d 4 == 6 then
      putRow s cmd d (mxRows hb) (m0 + r.2) n0 (r.1.zipIdx.map fun x => outValue op d (n0 + x.2) x.1)
    else
      deviceWrite s (some (.cmd cmd))
        (getLE d 24 8 + (m0 + r.2) * getLE d 32 4 + n0 * outWidth (byteAt d 4))
        (r.1.zipIdx.flatMap fun x => outBytesOf op d (n0 + x.2) x.1)) s

/-- The parts of a MATMUL's output that an operation writes (R281). -/
def opOut (op : SlabOp) : List Range :=
  match op.work with
  | .matmul _ m0 m1 n0 n1 d _ hb _ =>
    (List.range (m1 - m0)).map fun i =>
      let a := getLE d 24 8 + (m0 + i) * getLE d 32 4
      if byteAt d 4 == 6 then { addr := a, len := outRow d (mxRows hb), write := true }
      else { addr := a + n0 * outWidth (byteAt d 4), len := (n1 - n0) * outWidth (byteAt d 4)
             write := true }
  | _ => []

/-- An operation's output is still wanted. -/
def opWanted (s : State) (op : SlabOp) : Bool := (opCmd op).elim true fun c => (findCmd s c).isSome

/-- A load is under way among the operations of the Slab. -/
def loadsLeft (b : Slab) : Bool :=
  let inPair := fun (p : PairState) => match p with
    | .free => false
    | .prologue l => l.any isLoad
    | .loaded l => l.any isLoad
    | .compute l => l.any isLoad
  inPair b.pair0 || inPair b.pair1 || b.epilogue.any (·.any isLoad)

/-- The parked group of a fault's waiter: it rejoins the queue at the tail of its class (R191, R192), or
its epilogue goes on. -/
def unpark (s : State) (id : Nat) : State :=
  let mine := fun (g : Bool × List SlabOp) => (g.2.head?.map (·.id)) == some id
  match s.slab.parked.find? mine with
  | none => s
  | some g =>
    let b := { s.slab with parked := s.slab.parked.filter fun g => !mine g }
    if g.1 then { s with slab := { b with epilogue := b.epilogue ++ [g.2] } }
    else g.2.foldl slabEnqueue { s with slab := b }

/-! ### MATMUL (R217 to R220) -/

def mmHeaders (s : State) (c : Cmd) : List Byte × List Byte × List Byte :=
  let d := readBytes s.mem (entDesc c) 64
  (d, readBytes s.mem (getLE d 8 8) 64, readBytes s.mem (getLE d 16 8) 64)

/-- The checks of the descriptor alone (R217). -/
def mmDescErr (d : List Byte) : Option Err :=
  firstErr [
    structErr d 64 1 0,
    must ([4, 5, 6, 7, 8, 10, 11].contains (byteAt d 4)) (invalid 1 0 4),
    must (decide (byteAt d 6 ≤ 7)) (invalid 1 0 6),
    must (byteAt d 4 != 6 || decide (byteAt d 7 ≤ 2)) (invalid 1 0 7),
    must (rangeNamed (getLE d 8 8) 64) (invalid 1 0 8),
    must (rangeNamed (getLE d 16 8) 64) (invalid 1 0 16),
    must (addrOk (getLE d 24 8)) (invalid 1 0 24),
    must (getLE d 32 4 % 64 == 0) (invalid 1 0 32),
    must (!bit (byteAt d 5) 0 || decide (getLE d 36 4 ≤ 65535)) (invalid 1 0 36)]

/-- The checks of an operand's header (R196, R219). -/
def mmHeadErr (h : List Byte) : Option Err :=
  let f := mxFormat h
  firstErr [
    structErr h 64 5 0,
    must (decide (f ≤ 10)) (invalid 5 0 4),
    must (!isGrouped f || decide (byteAt h 5 ≤ 2)) (invalid 5 0 5),
    must (decide (1 ≤ mxRows h) && decide (mxRows h ≤ 1048576)) (invalid 5 0 8),
    must (decide (1 ≤ mxCols h) && decide (mxCols h ≤ 32768) &&
      (!isGrouped f || mxCols h % mxGroup h == 0) && (f != 1 || mxCols h % 2 == 0) &&
      (f != 9 || mxCols h % 64 == 0)) (invalid 5 0 12),
    must (mxStride h % 16 == 0 && decide (rowBytes f (mxGroup h) (mxCols h) ≤ mxStride h))
      (invalid 5 0 16),
    must (mxData h % 64 == 0 && rangeValid (mxData h)
      ((mxRows h - 1) * mxStride h + rowBytes f (mxGroup h) (mxCols h))) (invalid 5 0 24),
    must (!isIntG f || (mxSide h % 64 == 0 &&
      (mxSideRows h == 0 || rangeValid (mxSide h) (128 * mxSideRows h)))) (invalid 5 0 32)]

/-- The output overlaps the rows or side table of an operand (R219). -/
def outOverlaps (d ha hb : List Byte) : Bool :=
  let o := outRange d ha hb
  (mxRanges ha ++ mxRanges hb).any fun r => overlaps o.addr o.len r.addr r.len

/-- The checks over descriptor and headers together (R219, R210, R216). -/
def mmPairErr (d ha hb : List Byte) : Option Err :=
  let w := bit (byteAt d 5) 2
  let n := mxRows hb
  let o := outRange d ha hb
  firstErr [
    must (byteAt d 4 != 11 || (isIntPlain (mxFormat hb) && !w && !bit (byteAt d 5) 0))
      (invalid 1 0 4),
    must (byteAt d 4 != 6 || n % groupOf (byteAt d 7) == 0) (invalid 1 0 7),
    must (rangeValid o.addr o.len && !outOverlaps d ha hb) (invalid 1 0 24),
    must (decide (outRow d n ≤ getLE d 32 4)) (invalid 1 0 32),
    must (!bit (byteAt d 5) 0 || decide (getLE d 36 4 + n ≤ 65536)) (invalid 1 0 36),
    must (pairOk (mxFormat ha) (mxFormat hb) w) (invalid 5 0 4),
    must (decide (n ≤ 65536)) (invalid 5 0 8),
    must (mxCols ha == mxCols hb) (invalid 5 0 12)]

def mmErr (s : State) (c : Cmd) : Option Err :=
  let x := mmHeaders s c
  firstErr [mmDescErr x.1, mmHeadErr x.2.1, mmHeadErr x.2.2, mmPairErr x.1 x.2.1 x.2.2]

def mmRanges (s : State) (c : Cmd) : List Range :=
  let d := (mmHeaders s c).1
  { addr := entDesc c, len := 64 } ::
  (if (mmDescErr d).isSome then []
   else [{ addr := getLE d 8 8, len := 64 }, { addr := getLE d 16 8, len := 64 }])

/-- Rows of an operand that one pallet of 24 MiB holds (R189). -/
def palletRows (h : List Byte) : Nat :=
  max 1 (24 * 2 ^ 20 / max 1 (rowBytes (mxFormat h) (mxGroup h) (mxCols h)))

/-- The pieces of `n` rows, `k` at a time. -/
def splits (n k : Nat) : List (Nat × Nat) :=
  (List.range (ceilDiv n k)).map fun i => (i * k, min n (i * k + k))

/-- The operations of a MATMUL (R189, R220): A and B are each cut into the largest pieces whose stored rows
fit one pallet, side tables uncounted, and the pieces are queued with those of N outermost (DESIGN
CHOICE, log 125). -/
def mmOps (s : State) (c : Cmd) (d ha hb : List Byte) : List SlabOp :=
  let w := bit (byteAt d 5) 2
  let f := arithOf (mxFormat hb) w
  (splits (mxRows hb) (palletRows hb)).flatMap fun n =>
    (splits (mxRows ha) (palletRows ha)).map fun m =>
      { id := 0, urgent := c.urgent, work := .matmul c.id m.1 m.2 n.1 n.2 d ha hb []
        M := m.2 - m.1, N := n.2 - n.1, K := mxCols ha, arith := f
        mayPack := packMatmul s && bit (byteAt d 5) 1 && decide (n.2 - n.1 ≤ 256)
        pack := [mxCols ha, mxFormat ha, mxFormat hb, byteAt d 4, b2n w]
        outBytes := (m.2 - m.1) * outRow d (n.2 - n.1) }

def actMatmul (s : State) (c : Cmd) : State :=
  if c.count != 0 then s
  else
    let x := mmHeaders s c
    let ops := mmOps s c x.1 x.2.1 x.2.2
    ops.foldl slabEnqueue (updCmd s c.id fun c => { c with count := ops.length })

def execMatmul (q : QueueId) (s : State) : Host.Outcome State Fault Refusal :=
  .next (runCommand s q.toNat (opIs 0x40) (fun _ c => descErr c 64) mmRanges mmErr noSlots actMatmul)

/-! ### RESCALE_LOAD (R214, R215) -/

def rescaleErr (s : State) (c : Cmd) : Option Err :=
  let d := readBytes s.mem (entDesc c) 32
  firstErr [
    structErr d 32 1 0,
    must (decide (getLE d 4 4 ≤ 65535)) (invalid 1 0 4),
    must (decide (1 ≤ getLE d 8 4) && decide (getLE d 4 4 + getLE d 8 4 ≤ 65536)) (invalid 1 0 8),
    must (getLE d 16 8 % 64 == 0 && rangeValid (getLE d 16 8) (8 * getLE d 8 4)) (invalid 1 0 16)]

def actRescale (s : State) (c : Cmd) : State :=
  if c.count != 0 then s
  else
    let d := readBytes s.mem (entDesc c) 32
    slabEnqueue (updCmd s c.id fun c => { c with count := 1 }) {
      id := 0, urgent := c.urgent, work := .rescale c.id (getLE d 4 4) [], M := 0, N := 0, K := 0
      arith := 7, mayPack := false }

def execRescaleLoad (q : QueueId) (s : State) : Host.Outcome State Fault Refusal :=
  .next (runCommand s q.toNat (opIs 0x41) (fun _ c => descErr c 32)
    (fun _ c => [{ addr := entDesc c, len := 32 }]) rescaleErr noSlots actRescale)

/-! ### PROJECT (R221) -/

def collDim (s : State) (c : Cmd) : Nat := ((findColl s (entColl c)).map fun k => dDim k.desc).getD 0
def collCos (s : State) (c : Cmd) : Bool :=
  (findColl s (entColl c)).elim false fun k => dKind k.desc == 1

/-- Bytes of one input vector (R355). -/
def vecBytes (s : State) (c : Cmd) : Nat := collDim s c * inputWidth (inFormat c)

/-- The whole of `n` vectors from DATA_ADDRESS at a stride. -/
def vecRange (s : State) (c : Cmd) (n stride : Nat) : Range :=
  { addr := entData c, len := (n - 1) * stride + vecBytes s c }

def vecAt (s : State) (c : Cmd) (i : Nat) : List F32 :=
  inputVec (inFormat c) (readBytes s.mem (entData c + i * inStride c) (vecBytes s c))

def projectPre (s : State) (c : Cmd) : Option Err :=
  let n := entCount c
  firstErr [
    collPre s c,
    must (decide (1 ≤ n) && decide (n ≤ 4096)) (invalid 0 0 12),
    resultErr c,
    must (rangeValid (entData c) (vecRange s c n (inStride c)).len) (invalid 0 0 56),
    must (decide (inFormat c ≤ 2)) (invalid 0 0 74),
    must (inStride c % 64 == 0 && decide (vecBytes s c ≤ inStride c)) (invalid 0 0 76)]

/-- A cosine vector of zeros (R221), by its index. -/
def projectErr (s : State) (c : Cmd) : Option Err :=
  if collCos s c then
    ((List.range (entCount c)).find? fun i => allZero (vecAt s c i)).map fun i => invalid 3 i 0
  else none

def projectSlot (s : State) (c : Cmd) : List (Nat × Nat) :=
  oneSlot (entCount c * (((findColl s (entColl c)).map fun k => dSketch k.desc / 8).getD 0)) c

/-- A PROJECT is one operation, even where its rows or the matrix exceed one pallet: R189 splits a MATMUL
alone (DESIGN CHOICE, log 126). -/
def actProject (s : State) (c : Cmd) : State :=
  match findColl s (entColl c) with
  | none => fail s c noColl
  | some k =>
    let f := (k.proj.rows.head?.map (·.fmt)).getD 7
    slabEnqueue s {
      id := 0, urgent := c.urgent
      work := .project c.id k.id []
      M := entCount c, N := dSketch k.desc, K := dDim k.desc, arith := f, mayPack := false
      outBytes := entCount c * dSketch k.desc / 8 }

def execProject (q : QueueId) (s : State) : Host.Outcome State Fault Refusal :=
  .next (runCommand s q.toNat (opIs 0x14) projectPre
    (fun s c => [vecRange s c (entCount c) (inStride c)]) projectErr projectSlot actProject)

end Sys2Proof.Machine
end

