-- ==== Sys2Proof/Machine/Index.lean ====
section
/-!
DEFINITION. The live index: INSERT, UPDATE and DELETE (R150 to R162), REPAIR and slot reuse (R163 to
R167), COMPACT (R177, R178), the waits of R148, R160, R174, R178 and R179, the completion of sealed
commands (R169), and the programs and dies of the NAND behind them (R554, R555).
-/

namespace Sys2Proof.Machine

/-! ### Insert records (R150, R151) -/

/-- An insert record. -/
structure InsRec where
  addr : Nat
  vid : Nat
  alive : Nat
  attr : BitVec 64
  x : List F32
  deriving DecidableEq, Repr

/-- SIZE of a record, for the collection's dimension and a format (R150). -/
def recNeed (d : List Byte) (f : Nat) : Nat := roundUp (32 + dDim d * inputWidth f) 32

/-- The version, ELEMENT_FORMAT and SIZE of record `i`, as it is located (R151). -/
def recErr (d h : List Byte) (i : Nat) : Option Err :=
  let f := byteAt h 5
  let size := getLE h 2 2
  firstErr [
    must (byteAt h 1 == 1) (badVersion 2 i 1),
    must (decide (f ≤ 2)) (invalid 2 i 5),
    must (decide (recNeed d f ≤ size) && (size == recNeed d f || byteAt h 0 != 0))
      (badVersion 2 i 2)]

/-- The records located one after another: address and size of each, and the first that fails. -/
def locateRecs (m : Mem) (d : List Byte) : Nat → Nat → Nat → List (Nat × Nat) × Option Err
  | 0, _, _ => ([], none)
  | n + 1, i, a =>
    let h := readBytes m a 8
    if !rangeValid a 32 then ([], some (invalid 0 0 48))
    else match recErr d h i with
      | some e => ([(a, 32)], some e)
      | none =>
        if !rangeValid a (getLE h 2 2) then ([], some (invalid 0 0 48))
        else
          let r := locateRecs m d n (i + 1) (a + getLE h 2 2)
          ((a, getLE h 2 2) :: r.1, r.2)

/-- The descriptor of the collection that TARGET names. -/
def entCollDesc (s : State) (c : Cmd) : List Byte :=
  ((findColl s (entColl c)).map (·.desc)).getD []

def insLocate (s : State) (c : Cmd) : List (Nat × Nat) × Option Err :=
  locateRecs s.mem (entCollDesc s c) (min (entCount c) 1024) 0 (entDesc c)

/-- A located record. -/
def parseRec (m : Mem) (d : List Byte) (a : Nat) : InsRec :=
  let h := readBytes m a 32
  { addr := a, vid := getLE h 8 6, alive := byteAt h 4, attr := BitVec.ofNat 64 (getLE h 16 8)
    x := inputVec (byteAt h 5) (readBytes m (a + 32) (dDim d * inputWidth (byteAt h 5))) }

def insRecs (s : State) (c : Cmd) : List InsRec :=
  (insLocate s c).1.map fun r => parseRec s.mem (entCollDesc s c) r.1

def insPre (s : State) (c : Cmd) : Option Err :=
  firstErr [collPre s c,
    must (decide (1 ≤ entCount c) && decide (entCount c ≤ 1024)) (invalid 0 0 12)]

def insRanges (s : State) (c : Cmd) : List Range :=
  (insLocate s c).1.map fun r => { addr := r.1, len := r.2 }

/-- The alive values of a command's records against a tracked value (R332): the new tracked value,
or the index of the first record that fails. -/
def aliveRun : Option Nat → Nat → List InsRec → Except Nat (Option Nat)
  | t, _, [] => .ok t
  | t, i, r :: rs =>
    if t.isNone || t == some ((r.alive + 255) % 256) then aliveRun (some r.alive) (i + 1) rs
    else .error i

/-- The checks of IDs and elements that the records alone decide (R151, R108). -/
def idsErr (cosine : Bool) : Nat → List Nat → List InsRec → Option Err
  | _, _, [] => none
  | i, seen, r :: rs =>
    if r.vid == 0xFFFFFFFFFFFF || seen.contains r.vid then some (invalid 2 i 8)
    else if cosine && allZero r.x then some (invalid 2 i 32)
    else idsErr cosine (i + 1) (r.vid :: seen) rs

/-- An ID that is LIVE at commit fails an INSERT (R151). -/
def liveErr (k : Coll) (recs : List InsRec) : Option Err :=
  (recs.findIdx? fun r => (idLookup k r.vid).isSome).map fun i => invalid 2 i 8

/-! ### Slots (R57, R60, R62, R166) -/

/-- What a record is given: its slot, its Scaffold index and its side-list row. -/
structure Place where
  slot : Nat
  scaf : Option Nat
  row : Option Nat
  deriving DecidableEq, Repr

/-- The lowest number from `n` on that is not in a list. -/
def lowestFree (used : List Nat) : Nat → Nat → Nat
  | 0, n => n
  | f + 1, n => if used.contains n then lowestFree used f (n + 1) else n

def lowestUnused (used : List Nat) : Nat := lowestFree used used.length 0

/-- The areas of a segment: re-rank copies; side lists, attribute slices and state map; header. -/
def segSizes (d : List Byte) : List Nat := [segSlots * dStride d, 196 * 2 ^ 20, 64]

/-- A new segment of a collection in the areas given (R60). -/
def addSegment (s : State) (k : Coll) (n : Nat) (names : List Nat) : State :=
  let g : Segment := {
    num := n, slotsUsed := 0, live := 0, creation := s.epochs.opened, rerank := names.getD 0 0,
    side := names.getD 1 0, header := names.getD 2 0 }
  let areas := ((names.zip (segSizes k.desc)).zipIdx).map fun x =>
    ({ name := x.1.1, bytes := x.1.2, durable := decide (x.2 < 2) } : Area)
  segHeader (updColl s k.id fun k => { k with
    segments := k.segments ++ [g], areas := k.areas ++ areas }) k g

/-- The segment of a slot allocated; none where there is no room (R60, R171). -/
def ensureSeg (s : State) (coll n : Nat) : Option State :=
  match findColl s coll with
  | none => none
  | some k =>
    if (findSeg k n).isSome then some s
    else if !bulkRoom s (segSlots * dStride k.desc + 196 * 2 ^ 20) then none
    else (allotIndex s (dHome k.desc) (segSizes k.desc)).map (addSegment s k n)

/-- Slots for records in order (`sides`: whether each needs a side-list row). The state keeps the
segments and the highest slot assigned even where the command then fails. -/
def assignSlots (coll : Nat) : State → List Bool → List Place → State × Option (List Place)
  | s, [], acc => (s, some acc)
  | s, side :: rest, acc =>
    match findColl s coll with
    | none => (s, none)
    | some k =>
      let slot := lowestUnused (k.slots.map (·.num) ++ acc.map (·.slot))
      if dMax k.desc ≤ slot then (s, none)
      else match ensureSeg s coll (slot / segSlots) with
        | none => (s, none)
        | some s1 =>
          let s2 := updColl s1 coll fun k => { k with nextSlot := max k.nextSlot (slot + 1) }
          let idx := lowestUnused (k.scaffold.map (·.idx) ++ acc.filterMap (·.scaf))
          let rows := (((findColl s2 coll).bind (findSeg · (slot / segSlots))).map (·.sideRows)).getD 0
          let row := rows + (acc.filter fun p => p.slot / segSlots == slot / segSlots &&
            p.row.isSome).length
          if (scafMember slot && decide (dScafRecs k.desc ≤ idx)) || (side && decide (2 ^ 21 ≤ row))
          then (s2, none)
          else assignSlots coll s2 rest (acc ++ [{
            slot := slot
            scaf := if scafMember slot then some idx else none
            row := if side then some row else none }])

/-! ### Vectors, the build search and pruning (R152 to R155) -/

/-- A record on its way to its slot. -/
structure NewNode where
  place : Place
  vid : Nat
  attr : BitVec 64
  code : Nat
  copy : QVec
  kept : List Slot := []
  cands : List Slot := []
  points : List Nat := []
  read : List Nat := []
  err : Option (Nat × Nat) := none
  stop : Option (Nat × Range × Reach) := none
  deriving DecidableEq, Repr

/-- The vector as it is stored and scored: normalised under cosine (R152). -/
def recVec (d : List Byte) (r : InsRec) : List F32 := if dKind d == 1 then normalise r.x else r.x

/-- The stored copy, with at most eight escapes (R58, R199). -/
def recCopy (d : List Byte) (r : InsRec) : QVec := quantise (dFormat d) (dGroup d) 8 (recVec d r)

/-- The sketch or code of a record (R40, R153). -/
def recCode (k : Coll) (r : InsRec) : Nat :=
  if k.proj.kv5 then kv5Code k.proj.cents (dSubs k.desc) (dDim k.desc) (recVec k.desc r)
  else sketchBits k.proj.rows (recVec k.desc r)

/-- The parameters of the build search (R154). -/
def buildParams (d : List Byte) : WalkParams :=
  let L := min 256 (16 * ceilDiv (3 * dDegree d) 32)
  { W := 8, L := L, R := L, budget := 56, deadline := 0 }

/-- How the build search of a vector scores. -/
def buildScorer (k : Coll) (x : List F32) (code : Nat) : Scorer :=
  if k.proj.kv5 then .table (kv5Table (dKind k.desc) k.proj.cents (dSubs k.desc) (dDim k.desc) x)
  else .sketch code

/-- Order by distance, NaN last, then by slot (R155). -/
def distLt (a b : F32 × Slot) : Bool :=
  decide (fcmp a.1 b.1 < 0) || (fcmp a.1 b.1 == 0 && decide (a.2.num < b.2.num))

/-- Slots by their distance to a vector, each with its dequantised copy as it stands in memory. -/
def byDist (m : Mem) (k : Coll) (x : List F32) (l : List Slot) : List (F32 × Slot × List F32) :=
  (sortBy (fun a b => distLt (a.1, a.2.1) (b.1, b.2.1)) (l.map fun y =>
    let v := deq (copyAt m k y)
    (subDist x v, y, v)))

/-- What a build search gives: candidates, entry points, the blocks it has processed, the block that it
could not use with its status, and what stands in the way of a read. -/
structure Built where
  cands : List Slot := []
  points : List Nat := []
  read : List Nat := []
  err : Option (Nat × Nat) := none
  stop : Option (Nat × Range × Reach) := none
  deriving DecidableEq, Repr

/-- The candidates of a build search, whose copies can be read (R155, R281). -/
def withCopies (s : State) (got : List Nat) (k : Coll) (w : Built) : Built :=
  if w.err.isSome || w.stop.isSome then w
  else { w with stop := reachRanges s got (w.cands.flatMap fun y => copyRanges k y.num) }

/-- The build search of a record at P, to its end or to a read that cannot be made (R154, R73). -/
def buildSearch (s : State) (got : List Nat) (k : Coll) (x : List F32) (copy : QVec) (code : Nat) :
    Built :=
  let e := s.epochs.published
  let p := buildParams k.desc
  let sc := buildScorer k x code
  match scaffoldWalk s k e sc with
  | none =>
    let all := withCopies s got k { cands := liveSlots s k e }
    { all with cands := ((byDist s.mem k (deq copy) all.cands).take p.L).map (·.2.1) }
  | some w =>
    match reachRanges s got (scafRanges k w.2) with
    | some y => { stop := some y }
    | none =>
      let live := fun y => visible s k e y == .live
      let r := walkRounds s got k e p sc 57 { core := startCore p false live w.1 }
      withCopies s got k {
        cands := r.core.rq.filterMap (fun y => findSlot k y.2), points := w.1.map (·.2)
        read := r.read, err := r.err, stop := r.stop }

/-- The neighbours kept (R155), from candidates in order. -/
def keepNeighbours (n : Nat) : List (F32 × Slot × List F32) → List (F32 × Slot × List F32) →
    List (F32 × Slot × List F32)
  | [], kept => kept
  | y :: ys, kept =>
    if n ≤ kept.length then kept
    else if kept.all fun z => fge (subDist z.2.2 y.2.2) y.1 then
      keepNeighbours n ys (kept ++ [y])
    else keepNeighbours n ys kept

/-- One record built: its neighbours, as far as its build search came. -/
def buildNode (s : State) (got : List Nat) (k : Coll) (r : InsRec) (p : Place) : NewNode :=
  let copy := recCopy k.desc r
  let code := recCode k r
  let w := buildSearch s got k (recVec k.desc r) copy code
  { place := p, vid := r.vid, attr := r.attr, code := code, copy := copy
    kept := if w.err.isSome || w.stop.isSome then [] else
      (keepNeighbours (dDegree k.desc) (byDist s.mem k (deq copy) w.cands) []).map (·.2.1)
    cands := w.cands, points := w.points, read := w.read, err := w.err, stop := w.stop }

/-- Records built in order, up to one whose build search cannot go on. -/
def buildNodes (s : State) (got : List Nat) (k : Coll) : List (InsRec × Place) → List NewNode
  | [] => []
  | x :: xs =>
    let n := buildNode s got k x.1 x.2
    if n.err.isSome || n.stop.isSome then [n] else n :: buildNodes s got k xs

/-- The stop of a read that a build search or REPAIR makes (R19): of the block's Brick, of the Grout that
gathers copies, or of the course of the Scaffold walk. -/
def readStop (s : State) (k : Coll) (r : Range) : Nat :=
  courseStop (if r.kind == 0 then brickOfName r.addr / 8 else if r.kind == 1 then dHome k.desc
    else scafCourse s k)

/-- The number under which a command remembers that it has read a Bulk page. -/
def pageKey (p : Nat) : Nat := 2 ^ 81 + p

/-- The Bulk pages of ranges that a command has still to read are queued at their Bricks (R105, R281), and
it waits for them. -/
def readPages (s : State) (c : Cmd) (rs : List Range) (act : State → State) : State :=
  let left := (flashPages s rs).filter fun p => !c.loaded.contains (pageKey p)
  if left.isEmpty then act s
  else left.foldl (fun s p => bulkRead s (.cmd c.id) p) (updCmd s c.id fun c => { c with
    phase := .waiting .host
    loaded := c.loaded ++ left.map pageKey })

/-- The blocks that a build search has processed, counted in the Brick of its walk (R74, R102) and,
where another Brick read them for it, there (R103). -/
def countBuild (s : State) (n : NewNode) : State :=
  let b := brickOf (n.points.headD 0)
  let far := n.read.filter fun x => brickOf x != b
  { s with
    bricks := far.foldl (fun l x => modAt l (brickOf x) fun k => { k with
        remoteReads := (k.remoteReads + 1) % 2 ^ 64 })
      (modAt s.bricks b fun k => { k with hops := (k.hops + n.read.length) % 2 ^ 64 }) }

/-! ### What a commit needs and writes (R156) -/

/-- A slot whose delete has not committed. -/
def undeleted (s : State) (k : Coll) (slot : Nat) : Bool :=
  (findSlot k slot).isSome &&
  (match changeOf s k.id slot with
   | some x => x.del.isNone
   | none => codeOf k slot == 1)

/-- EDGE_DISTANCE, which is reserved in KV5 compatibility mode (R46, R68). -/
def edgeDist (d : List Byte) (a b : Nat) : Nat := if dKv5 d then 0 else hamming (dSketch d) a b

/-- The entries of a new node's block. -/
def nodeEntries (d : List Byte) (n : NewNode) : List BEntry :=
  placeAttrs (dDirect d) (sortBy entryLt (n.kept.map fun y => {
    sketch := y.sketch, slot := y.num, attr := some y.attr, back := false,
    dist := edgeDist d n.code y.sketch }))

/-- The back-edges of a new node (R155), tagged with an epoch. -/
def nodePatches (k : Coll) (e : Nat) (n : NewNode) : List Patch :=
  n.kept.map fun y => {
    brick := brickOf y.num, coll := k.id, target := y.num, add := true, tag := e
    nb := { sketch := n.code, slot := n.place.slot, attr := some n.attr, back := true,
            dist := edgeDist k.desc n.code y.sketch } }

/-- The patch logs have room (R157, R160). -/
def patchRoom (s : State) (d : List Byte) (ps : List Patch) : Bool :=
  ps.all fun p => decide (logBytes s p.brick +
    (ps.filter (·.brick == p.brick)).length * roundUp (24 + dEntry d) 32 ≤ 2 ^ 25)

/-- The change table has room for entries of these slots (R147, R148). -/
def changeRoom (s : State) (slots : List Nat) : Bool :=
  slots.all fun x => decide (sectionUse s (brickOf x / 8) +
    (slots.filter fun y => brickOf y / 8 == brickOf x / 8).length ≤ 131072)

/-- The bytes that a new node holds in insert staging until they are in NAND: its re-rank copy, side
row, block and ID-map entry (R179). -/
def nodeBytes (d : List Byte) : Nat := dStride d + 32 + dBlock d + 16

/-- Insert staging has room for `n` records (R179). -/
def stagingRoom (s : State) (d : List Byte) (n : Nat) : Bool :=
  decide (s.index.staging.getD (dHome d) 0 + n * nodeBytes d ≤ 2 ^ 27)

/-- A delete or repair epoch set for a slot, in the entry it has or in a new one (R147). The epochs of a
slot that the state map alone records lie at or below the release epoch and are not kept: a new entry has
0 for its I, and for the D of a slot that is DELETED (DESIGN CHOICE, log 128). -/
def setEpochs (s : State) (coll slot vid : Nat) (f : Change → Change) : State :=
  let code := ((findColl s coll).map (codeOf · slot)).getD 0
  let new : Change := { coll := coll, slot := slot, vid := vid, ins := 0
                        del := if code == 2 then some 0 else none }
  { s with
    index := { s.index with
      changes := if (changeOf s coll slot).isSome then
          mapIf (fun x => x.coll == coll && x.slot == slot) f s.index.changes
        else s.index.changes ++ [f new] } }

/-- The byte of slice `i` that holds a slot (R131). -/
def sliceByte (g : Segment) (slot i : Nat) : Nat :=
  g.side + 64 * 2 ^ 20 + i * 2 ^ 21 + slot % segSlots / 8

/-- The bits of a slot in the attribute slices (R131). -/
def writeSlices (s : State) (owner : Option Owner) (g : Segment) (slot : Nat) (w : BitVec 64) : State :=
  (List.range 64).foldl (fun s i =>
    deviceWrite s owner (sliceByte g slot i)
      [withBit (readByte s.mem (sliceByte g slot i)) (slot % 8) (w.getLsbD i)]) s

/-- The re-rank copy and side row of a slot in memory (R58, R59). -/
def writeCopy (s : State) (owner : Option Owner) (d : List Byte) (g : Segment) (x : Slot) : State :=
  let s1 := deviceWrite s owner (g.rerank + x.num % segSlots * dStride d)
    (copyBytes x.vid (byteAt d 10) (dGroup d) (dDim d) x.copy x.sideRow)
  match x.sideRow with
  | some r => deviceWrite s1 owner (g.side + 32 * r) (sideRowBytes x.copy)
  | none => s1

/-- Members of the Scaffold near a new member, nearest first (R167); in KV5 compatibility mode the
distance is that over the bits of the codes (DESIGN CHOICE, log 129). -/
def scafNear (k : Coll) (n : NewNode) : List ScafRec :=
  let slots := (n.points ++ n.kept.map (·.num)).foldl
    (fun l x => if l.contains x then l else l ++ [x]) []
  let recs := slots.filterMap (recOf k)
  let key := fun (r : ScafRec) => hamming (8 * dCode k.desc) n.code r.sketch
  (sortBy (fun a b => decide (key a < key b) || (key a == key b && decide (a.slot < b.slot)))
    recs).take 16

/-- The bytes of a Scaffold record, by name. -/
def scafRange (d : List Byte) (i : Nat) : Range :=
  { addr := dScaffold d + i * dScafStride d, len := dScafStride d, kind := 3, write := true }

/-- A Scaffold record in memory. -/
def writeScaf (s : State) (owner : Option Owner) (d : List Byte) (r : ScafRec) : State :=
  deviceWrite s owner (scafRange d r.idx).addr (scafBytes d r)

/-- A new member's record, and its index in the lists of its neighbours that have room (R167). -/
def addScaf (s : State) (owner : Option Owner) (k : Coll) (n : NewNode) (i : Nat) : State :=
  let near := scafNear k n
  let new : ScafRec := { idx := i, slot := n.place.slot, sketch := n.code, nbrs := near.map (·.idx) }
  let more := (near.filter fun r => r.nbrs.length < 16).map fun r => { r with nbrs := r.nbrs ++ [i] }
  let s1 := updColl s k.id fun k => { k with
    scaffold := (k.scaffold.map fun r => (more.find? (·.idx == r.idx)).getD r) ++ [new] }
  (new :: more).foldl (fun s r => writeScaf s owner k.desc r) s1

/-- Objects of one new node: its slot, copy, slices, block, Scaffold record, state-map code and
staging (R152). -/
def putNode (s : State) (k : Coll) (cmd : Nat) (e : Nat) (n : NewNode) : State :=
  let o := some (Owner.cmd cmd)
  let x : Slot := { num := n.place.slot, vid := n.vid, attr := n.attr, sketch := n.code,
                    copy := n.copy, sideRow := n.place.row }
  let s1 := updColl s k.id fun k => { k with
    slots := k.slots ++ [x]
    segments := mapIf (·.num == x.num / segSlots)
      (fun g => { g with sideRows := g.sideRows + b2n x.sideRow.isSome }) k.segments }
  let s2 := match findSeg k (x.num / segSlots) with
    | some g => segHeader (writeSlices (writeCopy s1 o k.desc g x) o g x.num x.attr) k
        { g with sideRows := max g.sideRows ((x.sideRow.map (· + 1)).getD 0) }
    | none => s1
  let s3 := putBlock s2 k.id { slot := x.num, own := x.attr, entries := nodeEntries k.desc n,
                               fold := e - 1 }
  let s4 := match n.place.scaf, findColl s3 k.id with
    | some i, some k => addScaf s3 o k n i
    | _, _ => s3
  let s5 := addProgram (putCode s4 k.id x.num 3) (brickOf x.num)
    { cmd := some cmd, course := dHome k.desc, bytes := nodeBytes k.desc, plane := planeOf x.num }
  { s5 with
    index := { s5.index with
      staging := modAt s5.index.staging (dHome k.desc) (· + nodeBytes k.desc) } }

/-- Commit of one node: its patches, its ID-map entry, its insert epoch, and for an UPDATE the delete
epoch of the slot it replaces (R156, R162). -/
def commitNode (e cmd coll : Nat) (s : State) (n : NewNode) : State :=
  match findColl s coll with
  | none => s
  | some k =>
    let old := idLookup k n.vid
    let s1 := putNode s k cmd e n
    let s2 := match old with
      | some o => setEpochs s1 coll o n.vid fun x => { x with del := some e }
      | none => s1
    let map := if old.isSome then idChange k.idMap n.vid n.place.slot
      else idAdd (dIdEntries k.desc) k.idMap n.vid n.place.slot
    let s3 := writeIdMap (updColl s2 coll fun k => { k with idMap := map }) (some (.cmd cmd)) k.desc
      k.idMap map
    { s3 with
      index := { s3.index with
        patches := s3.index.patches ++ nodePatches k e n
        changes := s3.index.changes ++ [{
          coll := coll, slot := n.place.slot, vid := n.vid, ins := e }] } }

/-- A durable write of bytes (R281). -/
def durable (a n : Nat) : Range := { addr := a, len := n, kind := 3, write := true }

/-- The ID map after these records' entries. -/
def mapAfter (k : Coll) (ns : List NewNode) : List (Nat × Nat × Nat) :=
  ns.foldl (fun m n =>
    if m.any (·.2.1 == n.vid) then idChange m n.vid n.place.slot
    else idAdd (dIdEntries k.desc) m n.vid n.place.slot) k.idMap

/-- What the objects of one new node take in memory: its copy, side row, slices, state-map code, block and
Scaffold records. -/
def nodeObjects (k : Coll) (n : NewNode) : List Range :=
  let x := n.place.slot
  (match findSeg k (x / segSlots) with
   | some g => durable (g.rerank + x % segSlots * dStride k.desc) (dStride k.desc) ::
      n.place.row.toList.map (fun r => durable (g.side + 32 * r) 32) ++
      (List.range 64).map (fun i => durable (sliceByte g x i) 1) ++
      [durable (g.side + 192 * 2 ^ 20 + x % segSlots / 4) 1, durable g.header 64]
   | none => []) ++
  [durable (blockAddr k x) (dBlock k.desc)] ++
  (match n.place.scaf with
   | some i => scafRange k.desc i :: ((scafNear k n).filter fun r => r.nbrs.length < 16).map
      fun r => scafRange k.desc r.idx
   | none => [])

/-- The ranges that an INSERT reads and writes at its commit (R281). -/
def nodeRanges (m : Mem) (k : Coll) (ns : List NewNode) : List Range :=
  idReadRanges m k.desc k.idMap.length (ns.map (·.vid)) ++ ns.flatMap (nodeObjects k) ++
    idWriteRanges k.desc k.idMap (mapAfter k ns)

/-! ### INSERT and UPDATE -/

/-- The slots that an UPDATE of these records deletes. -/
def replaced (k : Coll) (recs : List InsRec) : List Nat := recs.filterMap fun r => idLookup k r.vid

/-- A segment of a slot is being compacted (R178). -/
def compactingSlot (k : Coll) (slot : Nat) : Bool :=
  ((findSeg k (slot / segSlots)).map fun g => g.compacting.isSome).getD false

/-- The commit, once nothing stands in the way: the boundaries that are due come first (R139). -/
def commitInsert (s : State) (c : Cmd) (k : Coll) (recs : List InsRec) (ns : List NewNode) : State :=
  let e := s.epochs.opened
  let old := (replaced k recs).length
  let s1 := ns.foldl (commitNode e c.id k.id) (ns.foldl countBuild s)
  if opIs 0x22 c then sealed s1 c old e (recs.length - old) else sealed s1 c recs.length e 0

/-- The nodes of a command without the neighbours whose delete has committed (R156). -/
def pruned (s : State) (k : Coll) (ns : List NewNode) : List NewNode :=
  ns.map fun n => { n with kept := n.kept.filter fun y => undeleted s k y.num }

/-- The waits of an INSERT that has its slots and neighbours, and its commit (R148, R160). The segments
allocated for its slots stay (R60). -/
def insCommit (s : State) (c : Cmd) (k : Coll) (recs : List InsRec) (ns : List NewNode) : State :=
  let fresh := (replaced k recs).filter fun x => (changeOf s k.id x).isNone
  let ns := pruned s k ns
  let ps := ns.flatMap (nodePatches k s.epochs.opened)
  let rs := nodeRanges s.mem k ns
  if !changeRoom s (fresh ++ ns.map (·.place.slot)) then waitOn s c .change
  else if !patchRoom s k.desc ps then waitOn s c .patchLog
  else touching s c (courseStop (dHome k.desc)) rs fun s =>
    readPages s c (rs.filter fun r => !r.write) fun s => commitInsert s c k recs ns

/-- The Slab operation that computes the sketches of a command's vectors (R221, R222). -/
def sketchOp (k : Coll) (c : Cmd) (n : Nat) : SlabOp :=
  { id := 0, urgent := c.urgent, work := .sketches c.id k.id n, M := n, N := dSketch k.desc
    K := dDim k.desc, arith := (k.proj.rows.head?.map (·.fmt)).getD 7, mayPack := false
    outBytes := n * dSketch k.desc / 8 }

/-- The build searches of an INSERT that has its slots, and what ends or stops them. -/
def insBuild (s : State) (c : Cmd) (k : Coll) (recs : List InsRec) (places : List Place) : State :=
  let ns := buildNodes s c.loaded k (recs.zip places)
  match ns.findSome? (·.err), ns.findSome? (·.stop) with
  | some (slot, st), _ => fail (blockRecord (ns.foldl countBuild s) slot (planeOf slot) st) c
      { status := st }
  | none, some (u, r, x) => blockOn s c u r (readStop s k r) x
  | none, none => readPages s c (ns.flatMap fun n => n.cands.flatMap fun y => copyRanges k y.num)
      fun s => insCommit s c k recs ns

/-- The work of an INSERT or UPDATE that holds its range (R151 to R156, R178, R179). -/
def insRun (s : State) (c : Cmd) (k : Coll) (recs : List InsRec) : State :=
  match if opIs 0x22 c then none else liveErr k recs with
  | some e => fail s c e
  | none =>
    match withheldErr s with
    | some e => fail s c e
    | none =>
      if !stagingRoom s k.desc recs.length then waitOn s c .staging
      else if !c.projected && !k.proj.kv5 then slabEnqueue s (sketchOp k c recs.length)
      else
        let s := closeDue (retire s)
        let a := assignSlots k.id s (recs.map fun r => !(recCopy k.desc r).side.isEmpty) []
        match a.2, findColl a.1 k.id with
        | some places, some k1 =>
          let touched := places.map (·.slot) ++ (if opIs 0x22 c then replaced k1 recs else [])
          if touched.any (compactingSlot k1) then setPhase a.1 c.id (.waiting .compact)
          else insBuild a.1 c k1 recs places
        | _, _ => fail a.1 c { status := 0x14 }

/-- The lowest and highest of some IDs. -/
def idSpan (ids : List Nat) : Nat × Nat := (ids.foldl min (ids.headD 0), ids.foldl max 0)

/-- A command's range-lock entry over IDs of its collection (R173), the collection as it was when
the command was dispatched (R176), and then `act`. -/
def onIds (s : State) (c : Cmd) (ids : List Nat) (act : State → Cmd → Coll → State) : State :=
  match findColl s (entColl c) with
  | none => fail s c noColl
  | some k0 =>
    let born := c.born.getD k0.born
    let c := { c with born := some born }
    let sp := idSpan ids
    locked (updCmd s c.id fun x => { x with born := some born }) c
      { cmd := c.id, kv := false, obj := entColl c, lo := sp.1, hi := sp.2, held := false } fun s =>
      match findColl s (entColl c) with
      | none => fail s c noColl
      | some k => if k.born == born then act s c k else fail s c noColl

/-- The alive check and the checks that the records decide, at dispatch (R151, R331, R333). -/
def insDispatch (s : State) (c : Cmd) (recs : List InsRec) : State × Option Err :=
  let cosine := collCos s c
  let tracked := (findSq s c.sq).bind (·.alive)
  match if c.retry then .ok tracked else aliveRun tracked 0 recs with
  | .error i =>
    ({ s with plumb := { s.plumb with insertFails := sat 0xFFFF (s.plumb.insertFails + 1) } },
      some { status := 0x31, a := loc 2 i 4 })
  | .ok t => (updSq s c.sq fun q => { q with alive := t }, idsErr cosine 0 [] recs)

def actInsert (s : State) (c : Cmd) : State :=
  let recs := insRecs s c
  let x := if c.born.isSome then (s, none) else insDispatch s c recs
  match x.2 with
  | some e => fail x.1 c e
  | none => onIds x.1 c (recs.map (·.vid)) fun s c k => insRun s c k recs

def execInsert (q : QueueId) (s : State) : Host.Outcome State Fault Refusal :=
  .next (runCommand s q.toNat (opIs 0x20) insPre insRanges (fun s c => (insLocate s c).2) noSlots
    actInsert)

def actUpdate (s : State) (c : Cmd) : State := actInsert s c

def execUpdate (q : QueueId) (s : State) : Host.Outcome State Fault Refusal :=
  .next (runCommand s q.toNat (opIs 0x22) insPre insRanges (fun s c => (insLocate s c).2) noSlots
    actUpdate)

/-! ### DELETE (R161) -/

def delIds (s : State) (c : Cmd) : List Nat :=
  (List.range (min (entCount c) 4096)).map fun i => readLE s.mem (entDesc c + 8 * i) 6

def delPre (s : State) (c : Cmd) : Option Err :=
  firstErr [collPre s c,
    must (decide (1 ≤ entCount c) && decide (entCount c ≤ 4096)) (invalid 0 0 12),
    descErr c (8 * entCount c)]

/-- An ID that no vector has, or that appeared before. -/
def delErr : Nat → List Nat → List Nat → Option Err
  | _, _, [] => none
  | i, seen, v :: vs =>
    if v == 0xFFFFFFFFFFFF || seen.contains v then some (invalid 2 i 0)
    else delErr (i + 1) (v :: seen) vs

/-- One LIVE ID deleted. -/
def deleteId (e cmd coll : Nat) (s : State) (v : Nat) : State :=
  match findColl s coll with
  | none => s
  | some k =>
    match idLookup k v with
    | none => s
    | some slot =>
      let map := idRemove (dIdEntries k.desc) k.idMap v
      writeIdMap (setEpochs (updColl s coll fun k => { k with idMap := map }) coll slot v
        fun x => { x with del := some e }) (some (.cmd cmd)) k.desc k.idMap map

/-- The commit of a DELETE that holds its range, after the wait of R148. -/
def delRun (s : State) (c : Cmd) (k : Coll) (ids : List Nat) : State :=
  let s := closeDue (retire s)
  let live := ids.filterMap (idLookup k)
  let fresh := live.filter fun x => (changeOf s k.id x).isNone
  let rs := idReadRanges s.mem k.desc k.idMap.length ids
  let map := ids.foldl (fun m v => idRemove (dIdEntries k.desc) m v) k.idMap
  if !changeRoom s fresh then waitOn s c .change
  else touching s c (courseStop (dHome k.desc)) (rs ++ idWriteRanges k.desc k.idMap map) fun s =>
    readPages s c rs fun s =>
      sealed (ids.foldl (deleteId s.epochs.opened c.id k.id) s) c live.length s.epochs.opened
        (ids.length - live.length)

def actDelete (s : State) (c : Cmd) : State :=
  let ids := delIds s c
  onIds s c ids fun s c k => delRun s c k ids

def execDelete (q : QueueId) (s : State) : Host.Outcome State Fault Refusal :=
  .next (runCommand s q.toNat (opIs 0x21) delPre
    (fun _ c => [{ addr := entDesc c, len := 8 * entCount c }])
    (fun s c => delErr 0 [] (delIds s c)) noSlots actDelete)

/-! ### REPAIR (R163 to R165) -/

def maintBlock (s : State) (c : Cmd) : List Byte := readBytes s.mem (entDesc c) 32
def maintPre (_ : State) (c : Cmd) : Option Err := descErr c 32
def maintRange (_ : State) (c : Cmd) : List Range := [{ addr := entDesc c, len := 32 }]

/-- The checks that REPAIR and COMPACT share (R163). -/
def maintErr (s : State) (c : Cmd) (seg : Option Err) : Option Err :=
  let d := maintBlock s c
  firstErr [structErr d 32 1 0, must (findColl s (byteAt d 4)).isSome noColl, seg,
    must (decide (getLE d 8 4 ≤ 2000)) (invalid 1 0 8)]

/-- The node to which a REMOVE patch of X gives up to eight others (R164); in KV5 compatibility mode the
distance is that over the bits of the codes (DESIGN CHOICE, log 129). -/
def repairAdds (s : State) (k : Coll) (pr e : Nat) (y : Slot) (view : List BEntry) (x : Block) :
    List Patch :=
  let cands := (viewAt s k x pr).filterMap fun n =>
    if visible s k pr n.slot == .live && n.slot != y.num && !(view.any (·.slot == n.slot)) then
      findSlot k n.slot else none
  let key := fun (z : Slot) => hamming (8 * dCode k.desc) z.sketch y.sketch
  let near := (sortBy (fun a b => decide (key a < key b) ||
    (key a == key b && decide (a.num < b.num))) cands).take 8
  (near.filter fun z => undeleted s k z.num).map fun z => {
    brick := brickOf y.num, coll := k.id, target := y.num, add := true, tag := e
    nb := { sketch := z.sketch, slot := z.num, attr := some z.attr, back := false,
            dist := edgeDist k.desc z.sketch y.sketch } }

/-- The patches of one block: a REMOVE for each entry that names a freed slot, and its ADDs. -/
def repairBlock (s : State) (k : Coll) (pr e : Nat) (b : Block) (y : Slot) : List Patch :=
  let view := viewAt s k b pr
  (view.filter fun n => visible s k pr n.slot == .deleted).flatMap fun n =>
    { brick := brickOf y.num, coll := k.id, target := y.num, add := false, tag := e
      nb := { sketch := 0, slot := n.slot, attr := none, back := false, dist := 0 } } ::
    (match findBlock k n.slot with
     | some x => repairAdds s k pr e y view x
     | none => [])

/-- The slots that a REPAIR at `pr` frees. -/
def repairDead (s : State) (k : Coll) (pr : Nat) : List Slot :=
  k.slots.filter fun x => visible s k pr x.num == .deleted

/-- The blocks that a REPAIR reads, with their nodes. -/
def repairReads (s : State) (k : Coll) (pr : Nat) : List (Slot × Option Block) :=
  (liveSlots s k pr).map fun y => (y, findBlock k y.num)

/-- The slots whose blocks a REPAIR reads: those of its views, and those of the freed slots. -/
def repairSlots (s : State) (k : Coll) (pr : Nat) : List Nat :=
  ((liveSlots s k pr) ++ repairDead s k pr).map (·.num)

/-- The first block of a REPAIR that cannot be used, with its status (R51, R87). -/
def repairBad (s : State) (k : Coll) (pr : Nat) : Option (Nat × Nat) :=
  ((repairSlots s k pr).find? fun x => blockStatus s k x != 0).map fun x => (x, blockStatus s k x)

/-- The REPAIR of a collection is over. -/
def endRepair (s : State) (coll commit : Nat) : State :=
  updColl s coll fun k => { k with repairing := none, repairCommit := max k.repairCommit commit }

/-- The reads and the commit of a REPAIR pinned to `pr`. -/
def repairRun (s : State) (c : Cmd) (k : Coll) (pr : Nat) : State :=
  let s := closeDue (retire s)
  let e := s.epochs.opened
  let dead := repairDead s k pr
  let ps := (repairReads s k pr).flatMap fun x => match x.2 with
    | some b => repairBlock s k pr e b x.1
    | none => []
  let fresh := (dead.filter fun x => (changeOf s k.id x.num).isNone).map (·.num)
  if (withheldErr s).isSome then fail (endRepair s k.id 0) c { status := 0x50 }
  else if let some (u, r, x) := reachRanges s c.loaded ((repairSlots s k pr).map (blockRange k)) then
    blockOn s c u r (readStop s k r) x
  else if let some (slot, st) := repairBad s k pr then
    fail (blockRecord (endRepair s k.id 0) slot (planeOf slot) st) c { status := st }
  else if !changeRoom s fresh then waitOn s c .change
  else if !patchRoom s k.desc ps then waitOn s c .patchLog
  else
    let s1 := dead.foldl (fun s x => setEpochs s k.id x.num x.vid fun y => { y with rep := some e }) s
    sealed (endRepair { s1 with
      index := { s1.index with patches := s1.index.patches ++ ps } } k.id e) c 0 e dead.length

/-- A REPAIR starts: it pins P and runs on in its next step; or it waits for the REPAIR before. -/
def repairStart (s : State) (c : Cmd) (k : Coll) : State :=
  let born := c.born.getD k.born
  if k.born != born then fail s c noColl
  else if k.repairing.isSome || decide (release s < k.repairCommit) then
    updCmd s c.id fun x => { x with phase := .waiting .repair, born := some born }
  else if s.epochs.published == 0 then fail s c (invalid 0xFF 0 0)
  else updCmd (updColl s k.id fun k => { k with repairing := some c.id }) c.id fun x => { x with
      phase := .ready, born := some born, pin := some s.epochs.published }

def actRepair (s : State) (c : Cmd) : State :=
  match findColl s (byteAt (maintBlock s c) 4) with
  | none => fail s c noColl
  | some k =>
    match c.pin with
    | none => repairStart s c k
    | some pr => repairRun s c k pr

def execRepair (q : QueueId) (s : State) : Host.Outcome State Fault Refusal :=
  .next (runCommand s q.toNat (opIs 0x25) maintPre maintRange (fun s c => maintErr s c none) noSlots
    actRepair)

/-! ### COMPACT (R177, R178) -/

def compactSeg (s : State) (c : Cmd) : Option (Coll × Segment) :=
  let d := maintBlock s c
  (findColl s (byteAt d 4)).bind fun k => (findSeg k (getLE d 6 2)).map fun g => (k, g)

/-- Bytes of the objects that move: re-rank area, and side lists, slices and state map. -/
def compactBytes (d : List Byte) : Nat := roundUp (segSlots * dStride d) unitBytes + 196 * 2 ^ 20

/-- A unit is free for COMPACT: a vacant unit of a free frame, or a backed unit that no object, queue
or move has taken. -/
def freeUnitName (s : State) (u : Nat) : Bool :=
  if homeOf s u == .vacant then windowOf u == some 0 && frameFree s u
  else homeOf s u == ownHome u && windowOf u != some 3 && !exported s u && !pinned s u &&
    (windowOf u != some 0 || regionOf s u == 3) &&
    (match backing s (ownHome u) with | .fault _ => false | _ => true) &&
    !((indexTaken s).any fun r => overlaps u unitBytes r.1 r.2) &&
    !(s.index.colls.any fun k =>
      k.areas.any fun a => overlaps u unitBytes a.name (roundUp a.bytes unitBytes))

/-- DESTINATION names free units of one tier, enough for the objects (R177). -/
def compactDestOk (s : State) (a n : Nat) : Bool :=
  a % unitBytes == 0 && rangeValid a n &&
  (unitsOf { addr := a, len := n }).all (freeUnitName s)

def compactErr (s : State) (c : Cmd) : Option Err :=
  let d := maintBlock s c
  let g := compactSeg s c
  firstErr [
    maintErr s c (must g.isSome (invalid 1 0 6)),
    (match g with
     | some x => must (compactDestOk s (getLE d 16 8) (compactBytes x.1.desc)) (invalid 1 0 16)
     | none => none)]

/-- The used side rows of a segment's slots in ascending order of slot (R177). -/
def packRows (k : Coll) (n : Nat) : List (Nat × Nat) :=
  let l := sortBy (fun a b => decide (a.num < b.num))
    (k.slots.filter fun x => x.num / segSlots == n && x.sideRow.isSome)
  l.zipIdx.map fun x => (x.1.num, x.2)

/-- The listed bytes of a range put at another place, and the old ones taken out. -/
def moveCells (m : Mem) (a b n : Nat) : Mem :=
  let mine := m.cells.filter fun x => decide (a ≤ x.1) && decide (x.1 < a + n)
  mine.foldl (fun m x => writeByte m (b + (x.1 - a)) x.2) m

/-- Units of a segment's old areas back at their default homes, units of its new ones placed. -/
def switchUnits (s : State) (old : List Area) (units : List Nat) : State :=
  let s1 := { s with tiers := { s.tiers with entries := releaseUnits s.tiers.entries old } }
  units.foldl (fun s u => setHome s u (ownHome u) false false) s1

/-- CHECK of a segment's header fails (R61). -/
def headerFails (m : Mem) (g : Segment) : Bool :=
  crc32c (readBytes m g.header 60) != readLE m (g.header + 60) 4

/-- What a COMPACT reads: the header that it will switch (DESIGN CHOICE, log 134), the copies and side rows
of assigned slots, and the slices and state map. -/
def compactReads (k : Coll) (g : Segment) : List Range :=
  { addr := g.header, len := 64 } ::
  ((k.slots.filter fun x => x.num / segSlots == g.num).flatMap fun x => copyRanges k x.num) ++
    [{ addr := g.side + 64 * 2 ^ 20, len := 132 * 2 ^ 20 }]

/-- The units of its destination that it writes in place. -/
def compactWrites (s : State) (d : List Byte) (a : Nat) : List Range :=
  ((unitsOf { addr := a, len := compactBytes d }).filter fun u => homeOf s u != .vacant).map fun u =>
    durable u unitBytes

/-- A copy and its side row as they stand in memory, written where the segment has them now; SIDE_INDEX
names the new row (R177). -/
def moveCopy (m : Mem) (k : Coll) (old new : Segment) (x : Slot) (row : Option Nat) (s : State) : State :=
  let o := x.num % segSlots * dStride k.desc
  let bs := readBytes m (old.rerank + o) (dStride k.desc)
  let s1 := { s with
    mem := writeBytes s.mem (new.rerank + o) (bs.take 12 ++ (match x.sideRow, row with
      | some _, some r => leBytes 4 r
      | _, _ => (bs.drop 12).take 4) ++ bs.drop 16) }
  match x.sideRow, row with
  | some r0, some r => { s1 with
      mem := writeBytes s1.mem (new.side + 32 * r) (readBytes m (old.side + 32 * r0) 32) }
  | _, _ => s1

/-- The contents of units sent to homes outside the module. -/
def sendUnits (owner : Option Owner) (s : State) (us : List Nat) : State :=
  us.foldl (fun s u => homeWrite owner s (homeOf s u) u (readBytes s.mem u unitBytes)) s

/-- The objects of a segment written at `a` and the header switched (R177). -/
def compactSwitch (s : State) (cmd : Nat) (k : Coll) (g : Segment) (a : Nat) : State :=
  let side := a + roundUp (segSlots * dStride k.desc) unitBytes
  let rows := packRows k g.num
  let row := fun (x : Slot) => (rows.find? (·.1 == x.num)).map (·.2)
  let slots := k.slots.map fun x => if x.num / segSlots == g.num then { x with sideRow := row x } else x
  let mine := fun (r : Area) => r.name == g.rerank || r.name == g.side
  let old := k.areas.filter mine
  let new : Segment := { g with
    rerank := a, side := side, sideRows := rows.length, compacting := none }
  let units := unitsOf { addr := a, len := compactBytes k.desc }
  let s1 := { s with mem := units.foldl zeroUnit s.mem }
  let s2 := { s1 with
    mem := moveCells s1.mem (g.side + 64 * 2 ^ 20) (side + 64 * 2 ^ 20) (132 * 2 ^ 20) }
  let s3 := switchUnits (updColl s2 k.id fun k => { k with
    slots := slots
    segments := mapIf (·.num == g.num) (fun _ => new) k.segments
    areas := k.areas.map fun r =>
      if r.name == g.rerank then { r with name := a }
      else if r.name == g.side then { r with name := side } else r }) old units
  let s4 := sendUnits (some (.cmd cmd)) ((k.slots.filter fun x => x.num / segSlots == g.num).foldl
    (fun s' x => moveCopy s.mem k g new x (row x) s') s3) units
  let s5 := { s4 with
    mem := { s4.mem with
    cells := s4.mem.cells.filter fun x =>
      always s4.mem x.1 || !(old.any fun r => decide (r.name ≤ x.1) && decide (x.1 < r.name + r.bytes)) }
    tiers := { s4.tiers with
      migrations := s4.tiers.migrations.filter fun m => m.dest != a || m.source != a } }
  segHeader s5 k new

/-- The blocks of a segment's assigned slots folded up to the release epoch (R177). -/
def foldSegment (s : State) (k : Coll) (n : Nat) : State :=
  (k.blocks.filter fun b => b.slot / segSlots == n).foldl (fun s b =>
    if foldable s k.id b.slot == 0 then s else tryFold s k b (release s)) s

/-- The end of a COMPACT: its reads and its destination, the folds, the switch, and its completion; a header
whose CHECK fails ends it (R51, R61). -/
def compactEnd (s : State) (c : Cmd) (k : Coll) (g : Segment) : State :=
  let a := getLE (maintBlock s c) 16 8
  touching s c (courseStop (dHome k.desc)) (compactReads k g ++ compactWrites s k.desc a) fun s =>
    readPages s c (compactReads k g) fun s =>
      if headerFails s.mem g then
        fail (hwError s 1 0x13 (dHome k.desc) g.num 0x30 0) c { status := 0x30 }
      else
        let s1 := foldSegment s k g.num
        match findColl s1 k.id with
        | some k1 => sealed (compactSwitch s1 c.id k1 g a) c 0 0 0
        | none => s

/-- COMPACT claims its destination and its segment, and ends in a later step. One that names a segment on
which another runs waits for that one's switch (DESIGN CHOICE, log 130). -/
def actCompact (s : State) (c : Cmd) : State :=
  let a := getLE (maintBlock s c) 16 8
  match compactSeg s c with
  | none => fail s c noColl
  | some x =>
    if x.2.compacting == some c.id then compactEnd s c x.1 x.2
    else if c.born.getD x.1.born != x.1.born then fail s c noColl
    else if x.2.compacting.isSome then
      updCmd s c.id fun y => { y with phase := .waiting .compact, born := some x.1.born }
    else match firstErr [withheldErr s, compactErr s c] with
      | some e => fail s c e
      | none =>
        let s1 := updCmd (updColl s x.1.id fun k => { k with
          segments := mapIf (·.num == x.2.num) (fun g => { g with compacting := some c.id })
            k.segments }) c.id fun y => { y with phase := .ready, born := some x.1.born }
        { s1 with
          tiers := { s1.tiers with
            migrations := s1.tiers.migrations ++ [{
              cmd := c.id, tier := 0, source := a, dest := a,
              units := compactBytes x.1.desc / unitBytes }] } }

def execCompact (q : QueueId) (s : State) : Host.Outcome State Fault Refusal :=
  .next (runCommand s q.toNat (opIs 0x24) maintPre maintRange compactErr noSlots actCompact)

/-! ### Sealed completions (R169) and the waits that end -/

/-- The programs of a command are done, and their staging free. -/
def freePrograms (s : State) (mine : Program → Bool) : State :=
  let gone := s.bricks.flatMap fun b => b.programs.filter mine
  { s with
    bricks := s.bricks.map fun b => startPrograms { b with programs := b.programs.filter fun p => !mine p }
    index := { s.index with
      staging := gone.foldl (fun l p => modAt l p.course (· - p.bytes)) s.index.staging } }

def execSealDurable (cmd : Nat) (s : State) : Host.Outcome State Fault Refusal :=
  .next (match findCmd s cmd with
    | none => s
    | some c =>
      match c.phase with
      | .sealing x => post (freePrograms s fun p => p.cmd == some cmd) x
      | _ => s)

/-- A waiting command may go on. -/
def wakeFrom (s : State) (cmd : Nat) (ok : Wait → Bool) : State :=
  match findCmd s cmd with
  | none => s
  | some c =>
    match c.phase with
    | .waiting w => if ok w then setPhase s cmd .ready else s
    | _ => s

def execChangeEntryWaitEnd (cmd : Nat) (s : State) : Host.Outcome State Fault Refusal :=
  .next (wakeFrom (retire s) cmd fun w => w == .change)

def execPatchLogWaitEnd (cmd : Nat) (s : State) : Host.Outcome State Fault Refusal :=
  .next (wakeFrom s cmd fun w => w == .patchLog)

def execInsertStagingWaitEnd (cmd : Nat) (s : State) : Host.Outcome State Fault Refusal :=
  .next (wakeFrom s cmd fun w => w == .staging)

def execCompactSwitchWaitEnd (cmd : Nat) (s : State) : Host.Outcome State Fault Refusal :=
  .next (wakeFrom s cmd fun w => w == .compact)

/-- The waits that R353 places at dispatch. -/
def dispatchWait (w : Wait) : Bool :=
  match w with
  | .repair => true
  | .migrate => true
  | .kvBusy => true
  | .linkPool => true
  | .drain => true
  | .power => true
  | _ => false

/-- The command looks again at what it waits for, and waits on where it still stands. -/
def execDispatchWaitEnd (cmd : Nat) (s : State) : Host.Outcome State Fault Refusal :=
  .next (wakeFrom s cmd dispatchWait)

/-- A command's entry becomes held once no entry taken earlier overlaps it; a command without one is
given the next free entry, in dispatch order, when it looks again (R174). -/
def grantLock (s : State) (cmd : Nat) : State :=
  match lockOf s cmd with
  | some l =>
    if !l.held && lockFree s l then
      wakeFrom { s with
        index := { s.index with
          locks := mapIf (·.cmd == cmd) (fun x => { x with held := true }) s.index.locks } }
        cmd fun w => w == .rangeLock
    else s
  | none =>
    if s.index.locks.length < 256 && s.index.lockQueue.head? == some cmd then
      wakeFrom s cmd fun w => w == .rangeLock
    else s

def execRangeLockGrant (cmd : Nat) (s : State) : Host.Outcome State Fault Refusal :=
  .next (grantLock s cmd)

/-! ### NAND programs, refreshes and dies (R554, R555, R559) -/

/-- A program or erase that failed retires its erase block (R555); its die and page are the media map's,
so free (R559). -/
def retireBlock (s : State) (b : Nat) : State :=
  let page := Config.freePage s.drawn % 8 * 2 ^ 61 + Config.freePage (s.drawn + 1) % 2 ^ 36
  hwError { s with
    bricks := modAt s.bricks b fun k => { k with retired := k.retired + 1 }
    drawn := s.drawn + 2 } 0 0x11 b page 0 2

/-- The oldest program that runs in a Brick ends: its staging is free; or it failed, its erase block is
retired, and it goes back to be programmed elsewhere. The programs behind it may start (R90). -/
def programEnd (s : State) (b : Nat) (ok : Bool) : State :=
  let ps := (s.bricks.getD b {}).programs
  match ps.find? (·.started) with
  | none => s
  | some p =>
    if ok then
      let s1 := { s with
        bricks := modAt s.bricks b fun k => startPrograms { k with programs := ps.erase p }
        index := { s.index with staging := modAt s.index.staging p.course (· - p.bytes) } }
      p.cmd.elim s1 (settleWriting s1)
    else retireBlock { s with
        bricks := modAt s.bricks b fun k => startPrograms { k with
          programs := ps.erase p ++ [{ p with started := false }] } } b

def execNandProgramComplete (brick : BitVec 6) (erase ok : Bool) (s : State) :
    Host.Outcome State Fault Refusal :=
  let b := brick.toNat
  .next (if !erase then programEnd s b ok else if ok then s else retireBlock s b)

def execNandDieFailure (brick : BitVec 6) (die : BitVec 3) (s : State) :
    Host.Outcome State Fault Refusal :=
  let b := brick.toNat
  let d := die.toNat
  .next (if (s.bricks.getD b {}).deadDies.contains d then s
    else hwError { s with
        bricks := modAt s.bricks b fun k => { k with deadDies := k.deadDies ++ [d] } }
      1 0x12 b (d * 2 ^ 61) 0x32 3)

/-- The oldest block due for refresh is rewritten as it stands (R52, R554). -/
def refreshBlock (s : State) (coll slot : Nat) : State :=
  match findColl s coll with
  | none => s
  | some k =>
    match findBlock k slot with
    | none => s
    | some b => addProgram (writeBlock s k b) (brickOf slot)
        { cmd := none, course := brickOf slot / 8, bytes := 0, plane := planeOf slot }

def execBlockRefresh (brick : BitVec 6) (s : State) : Host.Outcome State Fault Refusal :=
  let b := brick.toNat
  .next (match (s.bricks.getD b {}).refresh with
    | [] => s
    | (coll, slot) :: rest =>
      refreshBlock { s with bricks := modAt s.bricks b fun k => { k with refresh := rest } } coll slot)

end Sys2Proof.Machine
end

