-- ==== Sys2Proof/Machine/Search.lean ====
section
/-!
DEFINITION. The search commands: SEARCH, SEARCH_BATCH, RERANK and SCAN (R69 to R74, R100, R111, R134
to R137, R367), and the fan-outs that the first, second and fourth become (R455 to R460).
-/

namespace Sys2Proof.Machine

/-! ### Shard entries (R455, R456, R472) -/

def shardAddr (s : State) (coll : Nat) : Nat := bits s.mortar.shardBase.toNat 51 13 * 8192 + 32 * coll
def shardEntry (s : State) (c : Cmd) : List Byte := readBytes s.mem (shardAddr s (entColl c)) 32

/-- The command fans out: the table is enabled, and so is its collection's entry. -/
def fansOut (s : State) (c : Cmd) : Bool :=
  (opIs 0x10 c || opIs 0x11 c || opIs 0x13 c) && s.mortar.shardBase.getLsbD 0 &&
    bit (byteAt (shardEntry s c) 0) 0

def shMembers (e : List Byte) : Nat := getLE e 2 2
def shFanIn (e : List Byte) : Nat := if byteAt e 1 == 0 then 8 else byteAt e 1
def shList (e : List Byte) : Nat := getLE e 8 8

/-- Members of a list in bytes: fabric number and HOP_OVERRIDE. -/
def memberList (bs : List Byte) (m : Nat) : List (Nat × Nat) :=
  (List.range m).map fun i => (getLE bs (4 * i) 2 % 8192, getLE bs (4 * i + 2) 2)

def shardMembers (s : State) (e : List Byte) : List (Nat × Nat) :=
  memberList (readBytes s.mem (shList e) (4 * shMembers e)) (shMembers e)

/-- Fields of an entry outside their ranges; the refusals of a fan-out are not located (R456). -/
def shardErr (e : List Byte) : Option Err :=
  must (decide (1 ≤ shMembers e) && decide (shMembers e ≤ 8192) && decide (2 ≤ shFanIn e) &&
    decide (shFanIn e ≤ 16) && shList e % 64 == 0 && rangeValid (shList e) (4 * shMembers e))
    (invalid 0xFF 0 0)

/-- The checks of the members (R456). -/
def membersErr (s : State) (ms : List (Nat × Nat)) : Option Err :=
  let ns := ms.map (·.1)
  firstErr [
    must (ns.all (fun n => decide (n < fabricSize s)) && decide ns.Nodup) (invalid 0xFF 0 0),
    must (ns.all fun n => n == fabNum s || reachable s n) { status := 0x41 }]

/-! ### The fields of a search (R69, R70, R355) -/

def hasWalk (c : Cmd) : Bool := opIs 0x10 c || opIs 0x11 c
def isBatch (c : Cmd) : Bool := opIs 0x11 c

/-- SKETCH_SUPPLIED (R69). -/
def supplied (entry : List Byte) : Bool := bit (byteAt entry 70) 0
def walkR (entry : List Byte) : Nat := if getLE entry 66 2 == 0 then 64 else getLE entry 66 2

/-- The parameters of a walk (R69); without a budget it stops at 65,534 hops (R91). -/
def walkParams (entry : List Byte) (override : Nat) : WalkParams :=
  let b := min (getLE entry 68 2) override
  { W := if byteAt entry 64 == 0 then 8 else byteAt entry 64
    L := if byteAt entry 65 == 0 then 64 else 16 * byteAt entry 65
    R := walkR entry
    budget := min b 65534
    deadline := getLE entry 24 8 }

/-- The checks of the walk parameter block (R70, R100). -/
def walkErr (s : State) (c : Cmd) : Option Err :=
  if !hasWalk c then none
  else firstErr [
    must (decide (byteAt c.entry 64 ≤ 16)) (invalid 0 0 64),
    must (decide (byteAt c.entry 65 ≤ 16)) (invalid 0 0 65),
    must (decide (walkR c.entry ≤ 1024) && decide (inK c ≤ walkR c.entry)) (invalid 0 0 66),
    must (!(supplied c.entry && dKv5 (entCollDesc s c))) (invalid 0 0 70)]

/-- Bytes of one query vector; a root without the collection sends as much as any could take, but no more
of a batch than its stride (R355, R456). -/
def queryBytes (s : State) (c : Cmd) : Nat :=
  if (findColl s (entColl c)).isSome then vecBytes s c
  else
    let n := 4096 * inputWidth (inFormat c)
    if isBatch c then min n (inStride c) else n

/-- Queries of a command. -/
def queries (c : Cmd) : Nat := if isBatch c then entCount c else 1

/-- The stride of supplied sketches (R355). -/
def sketchStride (s : State) (c : Cmd) : Nat :=
  ((findColl s (entColl c)).map fun k => dSketch k.desc / 8).getD 128

def dataRange (s : State) (c : Cmd) (i : Nat) : Range :=
  { addr := entData c + i * inStride c, len := queryBytes s c }

/-- Bytes from the first to the end of the last of a command's vectors. -/
def dataSpan (s : State) (c : Cmd) : Nat := (queries c - 1) * inStride c + queryBytes s c

/-- The checks of the entry and of the inline block, in offset order (R353). -/
def searchPre (s : State) (c : Cmd) : Option Err :=
  let n := entCount c
  firstErr [
    (if fansOut s c then none else collPre s c),
    (if isBatch c then must (decide (1 ≤ n) && decide (n ≤ 4096)) (invalid 0 0 12)
     else if opIs 0x12 c then
       firstErr [must (decide (n ≤ 2 ^ 20)) { status := 0x15, a := loc 0 0 12 },
         must (n != 0) (invalid 0 0 12)]
     else none),
    pinErr s (entEpoch c),
    resultErr c,
    must (!isBatch c || (entStride c % 64 == 0 && (n ≤ 1 || decide (entRoom c ≤ entStride c))))
      (invalid 0 0 44),
    (if opIs 0x12 c then descErr c (8 * n) else none),
    must (rangeValid (entData c) (dataSpan s c)) (invalid 0 0 56),
    walkErr s c,
    must (decide (1 ≤ inK c) && decide (inK c ≤ 4096)) (invalid 0 0 72),
    must (decide (inFormat c ≤ 2)) (invalid 0 0 74),
    must (!isBatch c || (inStride c % 64 == 0 && decide (queryBytes s c ≤ inStride c)))
      (invalid 0 0 76),
    must (inPred c == 0 || rangeValid (inPred c) 96) (invalid 0 0 80),
    must (!(hasWalk c && supplied c.entry) ||
      rangeValid (inSketch c) (queries c * sketchStride s c)) (invalid 0 0 88),
    (if fansOut s c then shardErr (shardEntry s c) else none)]

/-- The sketch of query `i`, when it is supplied. -/
def sketchRange (s : State) (c : Cmd) (i : Nat) : List Range :=
  if hasWalk c && supplied c.entry then
    [{ addr := inSketch c + i * sketchStride s c, len := sketchStride s c }]
  else []

/-- What dispatch reads: the ID list, the predicate, the shard entry and its members, and but for a
batch the sketch and the vector (R353, R367). -/
def searchRanges (s : State) (c : Cmd) : List Range :=
  let e := shardEntry s c
  (if opIs 0x12 c then [{ addr := entDesc c, len := 8 * entCount c }] else []) ++
  (if inPred c == 0 then [] else [{ addr := inPred c, len := 96 }]) ++
  (if fansOut s c then [{ addr := shardAddr s (entColl c), len := 32 },
    { addr := shList e, len := 4 * shMembers e }] else []) ++
  (if isBatch c then [] else sketchRange s c 0 ++ [{ dataRange s c 0 with kind := 4 }])

/-- Element `i` of a list that is NaN or infinite. -/
def notFinite (v : List F32) : Option Nat := v.findIdx? fun x => !isFin32 x

/-- What a query's own vector may fail (R100, R108). -/
def vectorErr (d : List Byte) (i width : Nat) (v : List F32) : Option Err :=
  firstErr [
    must (!(dKind d == 1 && allZero v)) (invalid 3 i 0),
    (if dKv5 d then (notFinite v).map fun e => invalid 3 i (e * width) else none)]

def searchCheck (s : State) (c : Cmd) : Option Err :=
  firstErr [
    (if inPred c == 0 then none else predErr (readBytes s.mem (inPred c) 96)),
    (if fansOut s c then membersErr s (shardMembers s (shardEntry s c))
     else if isBatch c then none
     else vectorErr (entCollDesc s c) 0 (inputWidth (inFormat c)) (vecAt s c 0))]

/-- Bytes that a result needs (R121, R122, R458). -/
def resultNeed (s : State) (c : Cmd) : Nat :=
  48 + 16 * inK c + (if fansOut s c then 4 * shMembers (shardEntry s c) else 0)

def searchSlots (s : State) (c : Cmd) : List (Nat × Nat) :=
  (List.range (queries c)).map fun i => (entResult c + i * entStride c, resultNeed s c)

/-! ### Queries that begin -/

/-- The predicate of a block's address, read from memory. -/
def entPred (s : State) (c : Cmd) : Option Pred :=
  if inPred c == 0 then none else parsePred (readBytes s.mem (inPred c) 96)

/-- The MATCH_ESTIMATE and the fraction of R133 at an epoch. -/
def matchOf (k : Coll) (e : Nat) (p : Option Pred) : Option F64 × Nat :=
  match p with
  | none => (none, 0xFFFFFFFF)
  | some p =>
    let x := estimate (((k.hists.find? (·.epoch == e)).map (·.counts)).getD []) p
    (some x, dEstimate x)

/-- The estimate at dispatch lies below the collection's threshold (R134). -/
def fallsBack (k : Coll) (e : Nat) (p : Option Pred) : Bool :=
  (matchOf k e p).1.elim false fun x => dltPow x (dFallback k.desc)

/-- Query `i` of a command on a collection, before it begins. -/
def newQuery (s : State) (c : Cmd) (k : Coll) (i : Nat) : Query :=
  let e := pinOf s (entEpoch c)
  let p := entPred s c
  { cmd := c.id, idx := i, coll := k.id, epoch := e, k := inK c, vec := [], pred := p
    slot := entResult c + i * entStride c, path := 3, est := (matchOf k e p).2
    falls := fallsBack k e p }

/-- The entry, the vector in bytes, and the supplied sketch of a query: its command's, or those of
the fan-out that it is part of. -/
def queryEntry (s : State) (q : Query) : List Byte :=
  match q.fan with
  | some f => ((findFan s f).map (·.entry)).getD []
  | none => ((findCmd s q.cmd).map (·.entry)).getD []

def queryVecBytes (s : State) (d : List Byte) (q : Query) : List Byte :=
  match q.fan with
  | some f => ((findFan s f).map fun f => f.vec.take (f.vec.length -
      (if supplied f.entry then 128 else 0))).getD []
  | none => ((findCmd s q.cmd).map fun c =>
      readBytes s.mem (entData c + q.idx * inStride c) (dDim d * inputWidth (inFormat c))).getD []

def querySketch (s : State) (d : List Byte) (q : Query) : Nat :=
  let n := dSketch d / 8
  match q.fan with
  | some f => ((findFan s f).map fun f => fromLE ((f.vec.drop (f.vec.length - 128)).take n)).getD 0
  | none => ((findCmd s q.cmd).map fun c => readLE s.mem (inSketch c + q.idx * n) n).getD 0

/-- The ranges of a query's own vector and sketch. -/
def queryReads (s : State) (q : Query) : List Range :=
  match queryCmd s q with
  | some c => sketchRange s c q.idx ++ [dataRange s c q.idx]
  | none => []

/-- The FP32 query vector. -/
def queryFloats (s : State) (d : List Byte) (q : Query) : List F32 :=
  let f := byteAt (queryEntry s q) 74
  inputVec f ((queryVecBytes s d q).take (dDim d * inputWidth f))

/-- How a query's walk scores: by the supplied sketch, the projected one, or the table of R98. -/
def queryScorer (s : State) (k : Coll) (r : RerankReq) : Scorer :=
  if k.proj.kv5 then
    .table (kv5Table (dKind k.desc) k.proj.cents (dSubs k.desc) (dDim k.desc) r.query.vec)
  else if supplied (queryEntry s r.query) then .sketch (querySketch s k.desc r.query)
  else .sketch (r.sketch.getD 0)

/-- The hop override of a member's part (R457). -/
def hopOverride (s : State) (q : Query) : Nat :=
  ((q.fan.bind (findFan s)).map fun f =>
    (f.members.getD (f.index.getD 0) (0, 0xFFFF)).2).getD 0xFFFF

def queryUrgent (s : State) (q : Query) : Bool := ((queryCmd s q).map (·.urgent)).getD false

/-- The walk of a query, from its entry points (R74); `sender` is the Brick whose slot its Scaffold walk
held. -/
def newWalk (s : State) (k : Coll) (q : Query) (sc : Scorer) (sender : Option Nat)
    (points : List (Nat × Nat)) : Walk :=
  let p := walkParams (queryEntry s q) (hopOverride s q)
  { id := s.nextWalk, brick := brickOf ((points.headD (0, 0)).2)
    sender := sender, urgent := queryUrgent s q, query := q, scorer := sc
    params := p
    core := startCore p q.pred.isSome (fun y => visible s k q.epoch y == .live) points
    slots := slotsNeeded s k.desc p }

/-- SCAN (R135): its slices are read, and the slots LIVE at the epoch whose words there pass are gathered in
ascending order. -/
def startScan (s : State) (r : RerankReq) (q : Query) (k : Coll) (fallback : Bool) : State :=
  match reachRanges s r.got (sliceRanges k q.pred) with
  | some (u, x, y) => holdGather s r (courseStop (dHome k.desc)) u x y
  | none =>
    let cands := ((liveSlots s k q.epoch).filter fun x =>
      q.pred.isNone || passes q.pred (sliceWord s.mem k x)).map fun x => (x.num, x.vid)
    let r' := { r with
      query := { q with path := 1, nodes := cands.length, fallback := fallback }, cands := cands }
    if cands.isEmpty then selectQuery (dropGather s r.id) r'.query []
    else tryGather (updGather s r.id fun _ => r') r'

/-- A query needs no sketch: it scans, its walk is over code words (R98), the sketch is supplied or has
been computed. -/
def sketchReady (s : State) (r : RerankReq) (k : Coll) : Bool :=
  byteAt (queryEntry s r.query) 0 == 0x13 || r.query.falls || k.proj.kv5 ||
    supplied (queryEntry s r.query) || r.sketch.isSome || (firstRec s k r.query.epoch).isNone

/-- The sketch of a query asked of the Slab (R222, R223). -/
def askSketch (s : State) (r : RerankReq) (k : Coll) : State :=
  slabEnqueue (updGather s r.id fun x => { r with projecting := true, got := x.got }) {
    id := 0, urgent := r.urgent, work := .sketch r.id k.id r.query.vec, M := 1, N := dSketch k.desc
    K := dDim k.desc, arith := (k.proj.rows.head?.map (·.fmt)).getD 7, mayPack := false
    outBytes := dSketch k.desc / 8 }

/-- The Scaffold walk of a query (R71 to R74), in the walker slot that it holds, and its hand-off; where
no member is visible the query runs as SCAN (R73). -/
def walkScaffold (s : State) (r : RerankReq) (q : Query) (k : Coll) : State :=
  let sc := queryScorer s k r
  match scaffoldWalk s k q.epoch sc with
  | none => startScan s r q k true
  | some w =>
    let r := { r with slot := r.slot.or (scafBrick s (scafCourse s k)) }
    match reachRanges s r.got (scafRanges k w.2) with
    | some (u, x, y) => holdGather (updGather s r.id fun _ => r) r (courseStop (scafCourse s k)) u x y
    | none => handOff (dropGather s r.id) (newWalk s k { q with path := 0 } sc r.slot w.1)

/-- A query with its vector runs as SCAN, or walks the Scaffold and is handed off (R71 to R74, R134,
R137). -/
def runQuery (s : State) (r : RerankReq) (k : Coll) : State :=
  let q := r.query
  if !sketchReady s r k then askSketch s r k
  else if byteAt (queryEntry s q) 0 == 0x13 then startScan s r q k false
  else if q.falls then startScan s r q k true
  else walkScaffold s r q k

/-- A query begins, or waits for its own vector (R367). -/
def beginQuery (s : State) (r : RerankReq) : State :=
  let q := r.query
  match findColl s q.coll with
  | none => failQuery (dropGather s r.id) q noColl
  | some k =>
    match reachRanges s r.got (queryReads s q) with
    | some (u, x, y) => holdGather s r 5 u x y
    | none =>
      let v := queryFloats s k.desc q
      match vectorErr k.desc q.idx (inputWidth (byteAt (queryEntry s q) 74)) v with
      | some e => failQuery (dropGather s r.id) q e
      | none =>
        let r' := { r with unit := none, query := { q with vec := v } }
        runQuery (updGather s r.id fun _ => r') r' k

/-- The sketch of a query has come from the Slab, and the query goes on (R222). -/
def sketchDone (s : State) (id : Nat) : State :=
  match s.slab.gathers.find? (·.id == id) with
  | none => s
  | some r =>
    match findColl s r.query.coll with
    | none => failQuery (dropGather s id) r.query noColl
    | some k =>
      let v := if dKind k.desc == 1 then normalise r.query.vec else r.query.vec
      let r' := { r with projecting := false, sketch := some (sketchBits k.proj.rows v) }
      runQuery (updGather s id fun _ => r') r' k

def startQuery (s : State) (q : Query) (urgent : Bool) : State :=
  let x := addGather s q [] urgent
  beginQuery x.1 x.2

/-! ### Fan-outs (R455 to R460) -/

/-- The fan-out block: entry, shard entry, epoch, members, predicate, vector and sketch; the manual
fixes no layout (DESIGN CHOICE, log 60). -/
def fanPayload (f : Fan) : List Byte :=
  fit 128 f.entry ++ fit 32 ([1, BitVec.ofNat 8 f.fanIn] ++ leBytes 2 f.members.length ++
    [BitVec.ofNat 8 f.coll]) ++ leBytes 8 f.epoch ++
    f.members.flatMap (fun m => leBytes 2 m.1 ++ leBytes 2 m.2) ++ f.pred ++ f.vec

/-- A fan-out from its block. -/
def fanOf (bs : List Byte) : Fan :=
  let e := bs.take 128
  let sh := (bs.drop 128).take 32
  let m := getLE sh 2 2
  let rest := bs.drop (168 + 4 * m)
  let np := if getLE e 80 8 == 0 then 0 else 96
  { id := 0, members := memberList ((bs.drop 168).take (4 * m)) m, fanIn := byteAt sh 1
    coll := byteAt sh 4, epoch := getLE bs 160 8, k := getLE e 72 2, entry := e
    pred := rest.take np, vec := rest.drop np }

/-- FANOUT to a member over Mortar, as a request that PARTIAL or REMOTE_CMP answers. -/
def sendFan (f : Fan) (s : State) (child : Nat) : State :=
  mortarRequest s 3 (f.members.getD child (0, 0)).1 (some (.fan f.id)) child 0 (fanPayload f)

/-- A member's part runs once its P has reached the pinned epoch (R457, R144). -/
def memberRun (s : State) (f : Fan) : State :=
  if s.epochs.published < f.epoch then
    updFan s f.id fun f => { f with epochWait := some (f.epochWait.getD (now s)) }
  else
    let s := updFan s f.id fun f => { f with epochWait := none }
    match findColl s f.coll with
    | none => fanFail s f.id 0x12 0
    | some k =>
      let e := pinOf s f.epoch
      if e < s.epochs.floor then fanFail s f.id 0x13 0
      else if supplied f.entry && dKv5 k.desc then fanFail s f.id 0x10 0
      else
        let p := if f.pred.isEmpty then none else parsePred f.pred
        startQuery s { cmd := 0, idx := 0, coll := k.id, epoch := e, k := f.k, vec := [], pred := p
                       path := 3, est := (matchOf k e p).2, falls := fallsBack k e p
                       fan := some f.id } false

/-- A member takes up a fan-out: it forwards it to its children and runs its own part (R457). -/
def memberStart (s : State) (f : Fan) : State :=
  let i := f.index.getD 0
  let kids := ((List.range f.fanIn).map fun j => f.fanIn * i + 1 + j).filter fun j =>
    decide (j < f.members.length)
  let g := { f with id := s.mortar.nextFan, waitFor := kids, mine := true }
  let s1 := { s with
    mortar := { s.mortar with fans := s.mortar.fans ++ [g], nextFan := s.mortar.nextFan + 1 } }
  memberRun (kids.foldl (sendFan g) s1) g

/-- One query of a command fanned out from its root: to member 0, here or elsewhere (R456, R457). -/
def sendQueryFan (c : Cmd) (s : State) (i : Nat) : State :=
  let e := shardEntry s c
  let f : Fan := {
    id := s.mortar.nextFan, cmd := some c.id, idx := i, members := shardMembers s e
    fanIn := shFanIn e, coll := byteAt e 4, epoch := pinOf s (entEpoch c), k := inK c
    slot := entResult c + i * entStride c, entry := c.entry
    vec := readBytes s.mem (entData c + i * inStride c) (queryBytes s c) ++
      (if supplied c.entry then fit 128 (readBytes s.mem (inSketch c + i * sketchStride s c)
        (sketchStride s c)) else [])
    pred := if inPred c == 0 then [] else readBytes s.mem (inPred c) 96, waitFor := [0] }
  let s1 := { s with
    mortar := { s.mortar with fans := s.mortar.fans ++ [f], nextFan := s.mortar.nextFan + 1 } }
  if (f.members.headD (0, 0)).1 == fabNum s then
    memberStart s1 { f with cmd := none, up := some f.id, index := some 0 }
  else sendFan f s1 0

/-- The queries of a fanned-out command, each once its own vector and sketch can be read (R367): until then
it waits as a request of path 4. -/
def beginFan (s : State) (r : RerankReq) : State :=
  match findCmd s r.query.cmd with
  | none => dropGather s r.id
  | some c =>
    match reachRanges s r.got (queryReads s r.query) with
    | some (u, x, y) => holdGather s r 5 u x y
    | none => sendQueryFan c (dropGather s r.id) r.query.idx

/-- One query of a command that fans out. -/
def startFan (c : Cmd) (s : State) (i : Nat) : State :=
  let x := addGather s { cmd := c.id, idx := i, coll := entColl c, epoch := pinOf s (entEpoch c)
                         k := inK c, vec := [], slot := entResult c + i * entStride c, path := 4 } []
    c.urgent
  beginFan x.1 x.2

/-- A request looks again at what it waited for. -/
def retryGather (s : State) (r : RerankReq) : State :=
  if r.projecting || r.loaded then s
  else if r.query.path == 4 then beginFan s r
  else if r.query.path == 3 then beginQuery s r else tryGather s r

/-- The request that a waiter of a fault, or what it asked for, lets go on. -/
def resumeGather (s : State) (id : Nat) : State :=
  match s.slab.gathers.find? (·.id == id) with
  | none => s
  | some r =>
    let r' := { r with unit := none, waits := none }
    retryGather (updGather s id fun _ => r') r'

/-- The fans that wait for an epoch look again. -/
def wakeFans (s : State) : State :=
  (s.mortar.fans.filter fun f => f.epochWait.isSome && decide (f.epoch ≤ s.epochs.published)).foldl
    memberRun s

def execFanoutEpochWaitTimeout (fan : Nat) (s : State) : Host.Outcome State Fault Refusal :=
  .next (match findFan s fan with
    | none => s
    | some f =>
      match f.epochWait with
      | some t => if t + 100000 ≤ now s then
          fanFail (updFan s fan fun f => { f with epochWait := none }) fan 0x10 0 else s
      | none => s)

/-- Publication runs in Serving and in Drowse; in Banked and Parked it waits for the exit (R398). -/
def execEpochPublicationComplete (s : State) : Host.Outcome State Fault Refusal :=
  .next (if s.power.st ≤ 1 && s.quoin.stage == 7 then wakeFans (publishNext s false) else s)

/-! ### The commands -/

/-- The command pinned (R144). -/
def pinCmd (s : State) (c : Cmd) : State :=
  updCmd s c.id fun x => { x with pin := some (pinOf s (entEpoch c)) }

/-- A command's queries begin, or the command fans out. -/
def actSearch (s : State) (c : Cmd) : State :=
  if c.pin.isSome then s
  else
    let s1 := pinCmd s c
    if fansOut s c then (List.range (queries c)).foldl (startFan c) s1
    else match findColl s (entColl c) with
      | none => fail s1 c noColl
      | some k => (List.range (queries c)).foldl
          (fun t i => startQuery t (newQuery s c k i) c.urgent) s1

def execSearch (q : QueueId) (s : State) : Host.Outcome State Fault Refusal :=
  .next (runCommand s q.toNat (opIs 0x10) searchPre searchRanges searchCheck searchSlots actSearch)

def actSearchBatch (s : State) (c : Cmd) : State := actSearch s c

def execSearchBatch (q : QueueId) (s : State) : Host.Outcome State Fault Refusal :=
  .next (runCommand s q.toNat (opIs 0x11) searchPre searchRanges searchCheck searchSlots
    actSearchBatch)

def actScan (s : State) (c : Cmd) : State := actSearch s c

def execScan (q : QueueId) (s : State) : Host.Outcome State Fault Refusal :=
  .next (runCommand s q.toNat (opIs 0x13) searchPre searchRanges searchCheck searchSlots actScan)

/-- What the ID map gives for a vector ID: the entries read, and the slot (R64, R111). -/
def idRead (s : State) (k : Coll) (v : Nat) : List Nat × Option Nat :=
  idProbe s.mem k.desc v (k.idMap.length + 1) (idHome (dIdEntries k.desc) v)

/-- The slot of a vector ID that is LIVE at an epoch (R111). -/
def slotAt (s : State) (k : Coll) (e v : Nat) : Option Nat :=
  match (idRead s k v).2.filter fun x => visible s k e x == .live with
  | some x => some x
  | none => (s.index.changes.find? fun x =>
      x.coll == k.id && x.vid == v && visible s k e x.slot == .live).map (·.slot)

/-- An ID of the list of a RERANK. -/
def listId (s : State) (c : Cmd) (i : Nat) : Nat := readLE s.mem (entDesc c + 8 * i) 6

/-- The row of a RERANK: its IDs that are LIVE and pass, in list order (R111). -/
def rerankRow (s : State) (c : Cmd) (k : Coll) (e : Nat) : List (Nat × Nat) :=
  (List.range (entCount c)).filterMap fun i =>
    let v := listId s c i
    match (slotAt s k e v).bind (findSlot k) with
    | some x => if passes (entPred s c) x.attr then some (x.num, v) else none
    | none => none

/-- The ID-map entries that a RERANK reads, as a record gather (R111, R281). -/
def idRanges (s : State) (c : Cmd) (k : Coll) : List Range :=
  (List.range (entCount c)).flatMap fun i => (idRead s k (listId s c i)).1.map fun j =>
    { addr := dIdMap k.desc + 16 * j, len := 16, kind := 1 }

/-- A RERANK, pinned to an epoch, with its ID-map entries read. -/
def beginRerank (c : Cmd) (k : Coll) (e : Nat) (s : State) : State :=
  let q := newQuery s c k 0
  startRerank s { q with path := 2, nodes := entCount c, vec := vecAt s c 0, epoch := e
                         est := (matchOf k e q.pred).2 } (rerankRow s c k e) c.urgent

/-- The command is pinned as it is dispatched, and its row is gathered once its ID-map entries have been
read (R111, R144). -/
def actRerank (s : State) (c : Cmd) : State :=
  let s := if c.pin.isSome then s else pinCmd s c
  match findColl s (entColl c) with
  | none => fail s c noColl
  | some k =>
    let rs := idRanges s c k
    touching s c (courseStop (dHome k.desc)) rs fun s =>
      readPages s c rs (beginRerank c k (c.pin.getD (pinOf s (entEpoch c))))

def execRerank (q : QueueId) (s : State) : Host.Outcome State Fault Refusal :=
  .next (runCommand s q.toNat (opIs 0x12) searchPre searchRanges searchCheck searchSlots actRerank)

end Sys2Proof.Machine
end

