-- ==== Sys2Proof/Machine/Kv.lean ====
section
/-!
DEFINITION. Key-value memory and retrieval attention (R227 to R270): sequences, frames, appending,
KV_ATTEND, eviction and pre-emption.
-/

namespace Sys2Proof.Machine

/-! ### Descriptors and frames (R228 to R233) -/

def kvHeads (d : List Byte) : Nat := byteAt d 8
def kvGq (d : List Byte) : Nat := byteAt d 9
def kvDim (d : List Byte) : Nat := getLE d 10 2
def kvFormat (d : List Byte) : Nat := byteAt d 12
def kvGroup (d : List Byte) : Nat := groupOf (byteAt d 13)
def kvHome (d : List Byte) : Nat := byteAt d 15
def kvMask (d : List Byte) : Nat := byteAt d 16
def kvMax (d : List Byte) : Nat := getLE d 20 4
def kvBias (d : List Byte) : Nat := getLE d 24 8
def kvKey (d : List Byte) : Nat := getLE d 32 4
/-- SEQUENCE_ID of a descriptor or block, at offset 4. -/
def kvSeqId (d : List Byte) : Nat := getLE d 4 4 % 2 ^ 20

/-- The bytes of one key or value. -/
def kvRow (d : List Byte) : Nat := kvDim d * fmtWidth (kvFormat d) / 8
/-- Groups of a vector. -/
def kvGroups (d : List Byte) : Nat := kvDim d / kvGroup d
/-- H, the offset of a scale record's side row (R231). -/
def kvH (d : List Byte) : Nat := roundUp (8 + 2 * kvGroups d) 16
/-- Y, the bytes of a scale record. -/
def kvY (d : List Byte) : Nat := kvH d + 32
/-- V0, the offset of the values in a frame. -/
def kvV0 (d : List Byte) : Nat := 256 * kvRow d
/-- The bytes of a frame (R231). -/
def kvFrame (d : List Byte) : Nat :=
  roundUp (2 * kvV0 d + (if isGrouped (kvFormat d) then 512 * kvY d else 0)) 4096

/-- Names of a course's key-value partition (R479). -/
def kvLo (s : State) (c : Nat) : Nat := c * stackBytes + (partStaging s c + partFree s c) * unitBytes
def kvHi (s : State) (c : Nat) : Nat := kvLo s c + partKv s c * unitBytes

def findSeq (s : State) (id : Nat) : Option KvSeq := s.kv.seqs.find? (·.id == id)
def updSeq (s : State) (id : Nat) (f : KvSeq → KvSeq) : State :=
  { s with kv := { s.kv with seqs := mapIf (·.id == id) f s.kv.seqs } }
def findPage (q : KvSeq) (j p : Nat) : Option KvPage := q.pages.find? fun x => x.head == j && x.page == p
/-- STATE of a page (R233). -/
def pageSt (q : KvSeq) (j p : Nat) : Nat := ((findPage q j p).map (·.st)).getD 0

/-- The frames in use: name and size (R231, R233). -/
def kvFrames (s : State) : List (Nat × Nat) :=
  s.kv.seqs.flatMap fun q => (q.pages.filter (·.st == 1)).map fun p => (p.loc, kvFrame q.desc)

/-- The names that tables take, in whole units. -/
def kvTables (s : State) : List (Nat × Nat) :=
  s.kv.seqs.flatMap fun q => q.units.map fun u => (u.1, roundUp u.2 unitBytes)

/-- Units of a course's partition in use (R269). -/
def kvUnits (s : State) (c : Nat) : List Nat :=
  let us := ((kvFrames s).map fun f => unitOf f.1) ++ (kvTables s).flatMap fun t =>
    (List.range (t.2 / unitBytes)).map fun i => t.1 + i * unitBytes
  (us.filter fun u => decide (kvLo s c ≤ u) && decide (u < kvHi s c)).foldl
    (fun l u => if l.contains u then l else u :: l) []

/-- The lowest free frame of a size within one unit that holds frames of that size. -/
def frameIn (s : State) (size u : Nat) : Option Nat :=
  if (kvFrames s).any fun f => unitOf f.1 == u && f.2 != size then none
  else (List.range (unitBytes / size)).map (fun i => u + i * size) |>.find? fun a =>
    !((kvFrames s).any (·.1 == a))

/-- The lowest free frame of a course (R232). -/
def freeFrame (s : State) (course size : Nat) : Option Nat :=
  let lo := kvLo s course
  let hi := kvHi s course
  let tables := kvTables s
  let open' := (kvUnits s course).filter fun u => !(tables.any fun t => overlaps u unitBytes t.1 t.2)
  let fresh := firstFit ((kvUnits s course).map fun u => (u, unitBytes)) lo hi unitBytes
  leastId (open'.filterMap (frameIn s size) ++ fresh.toList)

/-- The course of the frame of a page (R232). -/
def frameCourse (d : List Byte) (j p : Nat) : Nat :=
  let set := (List.range 8).filter fun i => bit (kvMask d) i
  set.getD ((p + j) % set.length) 0

/-! ### Page table and summaries in memory (R229, R233, R234) -/

def kvTable (q : KvSeq) : Nat := (q.units.headD (0, 0)).1
def kvSums (q : KvSeq) : Nat := (q.units.getD 1 (0, 0)).1
def kvIndex (q : KvSeq) (j p : Nat) : Nat := j * kvMax q.desc + p

/-- A page-table entry in memory. -/
def writeEntry (s : State) (o : Option Owner) (q : KvSeq) (p : KvPage) : State :=
  deviceWrite s o (kvTable q + 8 * kvIndex q p.head p.page)
    (leBytes 8 (p.st * 2 ^ 61 + (if p.st == 4 then 0 else p.loc % 2 ^ 52)))

/-- The bytes of a summary record (R234). -/
def summaryBytes (x : Summary) : List Byte :=
  leBytes 4 x.scale.toNat ++ [BitVec.ofNat 8 (b2n x.nonfinite)] ++ zeros 3 ++ leBytes 8 x.mass ++
  x.mins.map byteOfInt ++ x.maxs.map byteOfInt

def writeSummary (s : State) (o : Option Owner) (q : KvSeq) (p : KvPage) : State :=
  match p.summary with
  | some x => deviceWrite s o (kvSums q + (16 + 2 * kvDim q.desc) * kvIndex q p.head p.page)
      (summaryBytes x)
  | none => s

/-- A page stored, with its entry. -/
def putPage (s : State) (o : Option Owner) (id : Nat) (p : KvPage) : State :=
  match findSeq s id with
  | none => s
  | some q => writeEntry (updSeq s id fun q => { q with
      pages := q.pages.filter (fun x => !(x.head == p.head && x.page == p.page)) ++ [p] }) o q p

/-! ### Range locks and waits (R238, R261) -/

/-- A page-range entry of a sequence. -/
def onPages (s : State) (c : Cmd) (id lo hi : Nat) (act : State → State) : State :=
  locked s c { cmd := c.id, kv := true, obj := id, lo := lo, hi := hi, held := false } act

def allPages : Nat := 2 ^ 24 - 1

def evictOps : List Nat := [0x33, 0x34, 0x35, 0x36]

/-- The block or header of a key-value command. -/
def kvBlock (s : State) (c : Cmd) (n : Nat) : List Byte := readBytes s.mem (entDesc c) n

/-- The sequences that a KV_ATTEND names. -/
def attendSeqs (s : State) (c : Cmd) : List Nat :=
  let h := kvBlock s c 64
  (List.range (getLE h 4 2)).map fun i => readLE s.mem (getLE h 24 8 + 32 * i) 4 % 2 ^ 20

/-- The KV_ATTENDs dispatched on a sequence. -/
def attendsOn (s : State) (id : Nat) : List Nat :=
  (s.sched.cmds.filter fun x => opIs 0x32 x && x.checked && (attendSeqs s x).contains id).map (·.id)

/-- The commands of R261 dispatched on one of some sequences. -/
def evictsOn (s : State) (ids : List Nat) : List Nat :=
  (s.sched.cmds.filter fun x => evictOps.contains (entOpcode x) && x.checked &&
    ids.contains (kvSeqId (kvBlock s x 32))).map (·.id)

/-- The commands dispatched before that a command waits for, and the lengths of its sequences, noted once
as it is dispatched (R238, R242, R261). -/
def noteAfter (s : State) (c : Cmd) (l lens : List Nat) : State × Cmd :=
  if c.born.isSome then (s, c)
  else (updCmd s c.id fun x => { x with born := some 0, after := l, lens := lens },
    { c with born := some 0, after := l, lens := lens })

/-- Some command that `c` waits for is still in flight. -/
def afterLeft (s : State) (c : Cmd) : Bool := c.after.any fun i => (findCmd s i).isSome

/-! ### KV_CREATE (R228, R229) -/

def kvDescErr (s : State) (d : List Byte) : Option Err :=
  firstErr [
    structErr d 64 1 0,
    must (decide (1 ≤ kvHeads d) && decide (kvHeads d ≤ 128)) (invalid 1 0 8),
    must (decide (1 ≤ kvGq d) && decide (kvGq d ≤ 64)) (invalid 1 0 9),
    must (decide (32 ≤ kvDim d) && decide (kvDim d ≤ 256) && kvDim d % 32 == 0) (invalid 1 0 10),
    must ([2, 3, 4].contains (kvFormat d)) (invalid 1 0 12),
    must (!isGrouped (kvFormat d) || (decide (byteAt d 13 ≤ 2) && kvDim d % kvGroup d == 0))
      (invalid 1 0 13),
    must (decide (kvHome d ≤ 7)) (invalid 1 0 15),
    must (kvMask d != 0) (invalid 1 0 16),
    must (decide (1 ≤ kvMax d) && decide (kvMax d ≤ 2 ^ 24)) (invalid 1 0 20),
    must (kvBias d == 0 || (kvBias d % 64 == 0 &&
      rangeValid (kvBias d) (128 * kvHeads d * kvGq d))) (invalid 1 0 24),
    must (keyOk s (kvKey d)) (invalid 1 0 32)]

/-- The bytes of the page table and of the summary array. -/
def kvSizes (d : List Byte) : List Nat :=
  [8 * kvHeads d * kvMax d, (16 + 2 * kvDim d) * kvHeads d * kvMax d]

def allotKv (s : State) (d : List Byte) : Option (List Nat) :=
  allotFrom (kvLo s (kvHome d)) (kvHi s (kvHome d))
    ((kvUnits s (kvHome d)).map fun u => (u, unitBytes)) (kvSizes d)

/-- The sequence in place, its table UNUSED, and a key under handle 0 (R521). -/
def addSeq (s : State) (d : List Byte) (names : List Nat) : State :=
  let units := names.zip (kvSizes d)
  let own := kvKey d == 0
  { s with
    kv := { s.kv with seqs := s.kv.seqs ++ [{ id := kvSeqId d, desc := d, units := units }] }
    mem := (units.flatMap fun u => unitsOf { addr := u.1, len := u.2 }).foldl zeroUnit s.mem
    lintel := { s.lintel with
      coKeys := if own then
          s.lintel.coKeys ++ [(true, kvSeqId d, Config.entropy s.lintel.draws 64)]
        else s.lintel.coKeys
      draws := s.lintel.draws + b2n own } }

def actKvCreate (s : State) (c : Cmd) : State :=
  let d := kvBlock s c 64
  onPages s c (kvSeqId d) 0 allPages fun s =>
    if (findSeq s (kvSeqId d)).isSome then fail s c (invalid 1 0 4)
    else match allotKv s d with
      | none => fail s c { status := 0x14 }
      | some names => drawingKey s c (kvKey d) fun s => succeed (addSeq s d names) c 0 0 0 0 0

def execKvCreate (q : QueueId) (s : State) : Host.Outcome State Fault Refusal :=
  .next (runCommand s q.toNat (opIs 0x30) (fun _ c => descErr c 64)
    (fun _ c => [{ addr := entDesc c, len := 64 }]) (fun s c => kvDescErr s (kvBlock s c 64)) noSlots
    actKvCreate)

/-! ### Keys and values in frames (R231, R237) -/

/-- A key or value as it is stored (R199 to R204, eight escapes). -/
def kvQuant (d : List Byte) (x : List F32) : QVec := quantise (kvFormat d) (kvGroup d) 8 x

/-- The bytes of a scale record (R231). -/
def scaleRecord (d : List Byte) (v : QVec) : List Byte :=
  fit (kvH d) (leBytes 4 v.scale.toNat ++ [BitVec.ofNat 8 v.side.length] ++ zeros 3 ++
    v.gs.map (BitVec.ofNat 8) ++
    v.zp.map fun z => byteOfInt (z - (if v.fmt == 2 then 128 else 8))) ++ sideRowBytes v

/-- A key (`kind` 0) or value (1) of token `t` of a page written in its frame. -/
def storeVec (s : State) (o : Option Owner) (d : List Byte) (frame t kind : Nat) (v : QVec) : State :=
  let s1 := deviceWrite s o (frame + kind * kvV0 d + t * kvRow d)
    (packCodes (fmtWidth v.fmt) v.codes)
  if isGrouped v.fmt then
    deviceWrite s1 o (frame + 2 * kvV0 d + (256 * kind + t) * kvY d) (scaleRecord d v)
  else s1

/-- A key or value from a frame's bytes. -/
def loadVec (d : List Byte) (bs : List Byte) (t kind : Nat) : QVec :=
  let f := kvFormat d
  let codes := unpackCodes (fmtWidth f) ((bs.drop (kind * kvV0 d + t * kvRow d)).take (kvRow d))
  if isGrouped f then
    let r := (bs.drop (2 * kvV0 d + (256 * kind + t) * kvY d)).take (kvY d)
    let n := byteAt r 4
    { fmt := f, g := kvGroup d, scale := BitVec.ofNat 32 (getLE r 0 4), codes := codes
      gs := ((r.drop 8).take (kvGroups d)).map (·.toNat)
      zp := ((r.drop (8 + kvGroups d)).take (kvGroups d)).map fun b =>
        signedByte b.toNat + (if f == 2 then 128 else 8)
      side := sideEntries (r.drop (kvH d)) (min n 8) }
  else { fmt := f, g := 0, scale := one32, codes := codes }

/-- A stored vector widened to BF16 (R212), in FP32. -/
def widened (v : QVec) : List F32 := (deq v).map bf16

/-- The bytes of a page where they stand. -/
def pageBytes (s : State) (d : List Byte) (p : KvPage) : List Byte :=
  if p.st == 2 then fit (kvFrame d) p.bulk else readBytes s.mem p.loc (kvFrame d)

/-! ### Summaries (R235) -/

/-- The floor of an exact quotient of two finite values, the divisor above 0. -/
def quotFloor (a b : F32) : Int :=
  match v32 a, v32 b with
  | .fin na ma ea, .fin _ mb eb =>
    let e := min ea eb
    let x : Int := (ma <<< (ea - e).toNat : Nat)
    Int.fdiv (if na then -x else x) ((mb <<< (eb - e).toNat : Nat) : Int)
  | _, _ => 0

def quotCeil (a b : F32) : Int := -quotFloor (fneg a) b

/-- The summary of a page's keys, widened (R235). -/
def pageSummary (dim : Nat) (keys : List (List F32)) : Summary :=
  let none' : Summary := { scale := 0, nonfinite := false, mass := 0, mins := List.replicate dim 0,
                           maxs := List.replicate dim 0 }
  if keys.any fun k => k.any fun x => !isFin32 x then { none' with nonfinite := true }
  else
    let A := keys.foldl (fun a k => k.foldl (fun a x => if fltb a (fabs x) then fabs x else a) a) 0
    if isZero32 A then none'
    else
      let sigma := fltTo32 true (fltDiv (v32 A) (.fin false 127 0))
      let col := fun (i : Nat) => keys.map fun k => k.getD i 0
      let least := fun (l : List F32) => l.foldl (fun m x => if fltb x m then x else m) (l.headD 0)
      let most := fun (l : List F32) => l.foldl (fun m x => if fltb m x then x else m) (l.headD 0)
      { scale := sigma, nonfinite := false, mass := 0
        mins := (List.range dim).map fun i => quotFloor (least (col i)) sigma
        maxs := (List.range dim).map fun i => quotCeil (most (col i)) sigma }

/-- A page's summary written as the page commits. -/
def commitPage (s : State) (o : Option Owner) (id j p : Nat) : State :=
  match findSeq s id with
  | none => s
  | some q =>
    match findPage q j p with
    | none => s
    | some x =>
      let bs := pageBytes s q.desc x
      let y := { x with
      summary := some (pageSummary (kvDim q.desc)
        ((List.range 256).map fun t => widened (loadVec q.desc bs t 0))) }
      writeSummary (updSeq s id fun q => { q with
        pages := mapIf (fun z => z.head == j && z.page == p) (fun _ => y) q.pages }) o q y

/-! ### KV_APPEND (R236, R237) -/

def appTokens (d : List Byte) : Nat := getLE d 8 2
def appFormat (d : List Byte) : Nat := byteAt d 10

/-- Bytes of the appended vectors. -/
def appBytes (d q : List Byte) : Nat :=
  appTokens d * kvHeads q * 2 * kvDim q * inputWidth (appFormat d)

def seqDesc (s : State) (id : Nat) : List Byte := ((findSeq s id).map (·.desc)).getD []

def appErr (s : State) (c : Cmd) : Option Err :=
  let d := kvBlock s c 32
  firstErr [
    structErr d 32 1 0,
    must (findSeq s (kvSeqId d)).isSome (invalid 1 0 4),
    must (decide (1 ≤ appTokens d) && decide (appTokens d ≤ 4096)) (invalid 1 0 8),
    must (decide (appFormat d ≤ 2)) (invalid 1 0 10),
    must (getLE d 24 8 % 64 == 0 && rangeValid (getLE d 24 8) (appBytes d (seqDesc s (kvSeqId d))))
      (invalid 1 0 24)]

/-- The pages that tokens `lo` to `hi - 1` fall in. -/
def pagesOf (lo hi : Nat) : List Nat := (List.range (hi / 256 + 1 - lo / 256)).filterMap fun i =>
  if lo < hi && 256 * (lo / 256 + i) < hi then some (lo / 256 + i) else none

/-- One page given a frame: a page in Bulk is moved back into it. None where a frame is lacking. -/
def framePage (s : State) (o : Option Owner) (id j p : Nat) : Option State :=
  match findSeq s id with
  | none => none
  | some q =>
    if pageSt q j p == 1 || pageSt q j p == 3 then some s
    else
      (freeFrame s (frameCourse q.desc j p) (kvFrame q.desc)).map fun a =>
        let old := (findPage q j p).getD { head := j, page := p, st := 0 }
        let s1 := if old.st == 2 then deviceWrite s o a (pageBytes s q.desc old) else s
        putPage s1 o id { old with st := 1, loc := a, bulk := [] }

/-- Frames for some pages of every head, in page order and then by head. -/
def framePages (o : Option Owner) (id : Nat) : State → List (Nat × Nat) → Option State
  | s, [] => some s
  | s, x :: xs =>
    match framePage s o id x.1 x.2 with
    | none => none
    | some s1 => framePages o id s1 xs

/-- The (head, page) pairs of pages, page by page. -/
def headPages (heads : Nat) (pages : List Nat) : List (Nat × Nat) :=
  pages.flatMap fun p => (List.range heads).map fun j => (j, p)

/-- The vectors of one token of one head written in its frame. -/
def storeToken (o : Option Owner) (id pos : Nat) (d bs : List Byte) (s : State) (x : Nat × Nat) : State :=
  match findSeq s id with
  | none => s
  | some q =>
    let n := kvDim q.desc * inputWidth (appFormat d)
    let at' := fun (kind : Nat) => inputVec (appFormat d)
      ((bs.drop (((x.1 * kvHeads q.desc + x.2) * 2 + kind) * n)).take n)
    let t := pos + x.1
    match findPage q x.2 (t / 256) with
    | none => s
    | some p =>
      storeVec (storeVec s o q.desc p.loc (t % 256) 0 (kvQuant q.desc (at' 0))) o q.desc p.loc (t % 256)
        1 (kvQuant q.desc (at' 1))

/-- Tokens written, pages committed, and the durable image discarded (R267); the length advances as the
completion is posted (R237). -/
def appendTokens (s : State) (cmd id len : Nat) (d : List Byte) (heads : Nat) : State :=
  let o := some (Owner.cmd cmd)
  let T := appTokens d
  let bs := readBytes s.mem (getLE d 24 8) (appBytes d (seqDesc s id))
  let s1 := ((List.range T).flatMap fun t => (List.range heads).map fun j => (t, j)).foldl
    (storeToken o id len d bs) s
  let done := (pagesOf len (len + T)).filter fun p => 256 * (p + 1) ≤ len + T
  let s2 := (headPages heads done).foldl (fun s x => commitPage s o id x.1 x.2) s1
  updCmd (updSeq s2 id fun q => { q with image := none }) cmd fun c => { c with
    grow := some (id, len + T) }

/-- The flash pages of a BULK page, by its internal location. -/
def bulkParts (d : List Byte) (p : KvPage) : List Range :=
  (List.range (ceilDiv (kvFrame d) 16384)).map fun i =>
    { addr := p.loc + 16384 * i, len := 16384, kind := 2 }

/-- The number under which a command remembers that a flash page of a BULK page has been read. -/
def bulkKey (r : Range) : Nat := 2 ^ 80 + r.addr

/-- BULK pages read through the Bricks that hold them: the command waits for them (R237, R248, R265). -/
def readBulk (s : State) (c : Cmd) (d : List Byte) (ps : List KvPage) (act : State → State) : State :=
  let left := (ps.flatMap (bulkParts d)).filter fun r => !c.loaded.contains (bulkKey r)
  if left.isEmpty then act s
  else left.foldl (fun s r => bulkRead s (.cmd c.id) r.addr) (updCmd s c.id fun c => { c with
    phase := .waiting .host, loaded := c.loaded ++ left.map bulkKey })

/-- The BULK pages among some. -/
def bulkOf (q : KvSeq) (l : List (Nat × Nat)) : List KvPage :=
  l.filterMap fun x => (findPage q x.1 x.2).bind fun p => if p.st == 2 then some p else none

/-- A SWAPPED page stands in the way: a tier fault on the unit of its companion name, which
KV_SWAP_IN resolves (R237, R248). -/
def swappedFault (s : State) (c : Cmd) (p : KvPage) (len stop : Nat) : State :=
  blockOn s c (unitOf p.loc) { addr := p.loc, len := len, kind := 2 } stop (.fault 3)

/-- The frames of pages as ranges. -/
def frameRanges (q : KvSeq) (write : Bool) (l : List (Nat × Nat)) : List Range :=
  l.filterMap fun x => (findPage q x.1 x.2).bind fun p =>
    if p.st == 1 then some { addr := p.loc, len := kvFrame q.desc, kind := 2, write := write }
    else none

/-- Bulk pages among some, which need their key (R519). -/
def bulkAmong (q : KvSeq) (l : List (Nat × Nat)) : Bool := l.any fun x => pageSt q x.1 x.2 == 2

/-- KV_APPEND with its range held (R237). -/
def appendRun (s : State) (c : Cmd) (q : KvSeq) (d : List Byte) : State :=
  let T := appTokens d
  let l := headPages (kvHeads q.desc) (pagesOf q.len (q.len + T))
  if getLE d 16 8 != q.len then fail s c (invalid 1 0 16)
  else if 2 ^ 32 < q.len + T || 256 * kvMax q.desc < q.len + T then fail s c { status := 0x14 }
  else if s.lintel.withheld && bulkAmong q l then fail s c { status := 0x50 }
  else match l.find? (fun x => pageSt q x.1 x.2 == 3) with
    | some x => swappedFault s c ((findPage q x.1 x.2).getD { head := 0, page := 0, st := 0 })
        (kvFrame q.desc) (courseStop (kvHome q.desc))
    | none => readBulk s c q.desc (bulkOf q l) fun s =>
      match framePages (some (.cmd c.id)) q.id s l with
      | none => fail s c { status := 0x14 }
      | some s1 =>
        match findSeq s1 q.id with
        | none => s
        | some q1 =>
          match reachRanges s1 c.loaded ({ addr := getLE d 24 8, len := appBytes d q.desc } ::
              frameRanges q1 true l) with
          | some (u, r, x) => blockOn s c u r (courseStop (kvHome q.desc)) x
          | none => succeed (appendTokens s1 c.id q.id q.len d (kvHeads q.desc)) c 0 0 0 (q.len + T) 0

def actKvAppend (s : State) (c : Cmd) : State :=
  let d := kvBlock s c 32
  match findSeq s (kvSeqId d) with
  | none => fail s c (invalid 1 0 4)
  | some q =>
    let x := noteAfter s c [] [q.len]
    let L := x.2.lens.headD 0
    onPages x.1 x.2 q.id (L / 256) ((L + appTokens d - 1) / 256) fun s =>
      match findSeq s q.id with
      | none => fail s c (invalid 1 0 4)
      | some q => appendRun s c q d

def execKvAppend (q : QueueId) (s : State) : Host.Outcome State Fault Refusal :=
  .next (runCommand s q.toNat (opIs 0x31) (fun _ c => descErr c 32)
    (fun _ c => [{ addr := entDesc c, len := 32 }]) appErr noSlots actKvAppend)

/-! ### KV_ATTEND: header and items (R239 to R241) -/

structure AttendHead where
  items : Nat
  window : Option Nat
  outBf16 : Bool
  select : Nat
  recent : Nat
  lambda : F32
  itemsAt : Nat
  queriesAt : Nat
  deriving DecidableEq, Repr

def attendHead (h : List Byte) : AttendHead :=
  { items := getLE h 4 2, window := if bit (byteAt h 6) 0 then some (getLE h 12 4) else none
    outBf16 := bit (byteAt h 6) 1, select := getLE h 8 2, recent := byteAt h 10
    lambda := BitVec.ofNat 32 (getLE h 16 4), itemsAt := getLE h 24 8, queriesAt := getLE h 32 8 }

structure ItemIn where
  seq : Nat
  head : Nat
  rows : Nat
  pos : Nat
  first : Nat
  last : Nat
  offset : Nat
  deriving DecidableEq, Repr

def itemIn (s : State) (a : AttendHead) (i : Nat) : ItemIn :=
  let b := readBytes s.mem (a.itemsAt + 32 * i) 32
  { seq := getLE b 0 4 % 2 ^ 20, head := getLE b 4 2, rows := getLE b 6 2, pos := getLE b 8 4
    first := getLE b 12 4, last := getLE b 16 4, offset := getLE b 24 8 }

/-- The checks of the header, in offset order (R239). -/
def attendHeadErr (h : List Byte) : Option Err :=
  let a := attendHead h
  firstErr [
    structErr h 64 1 0,
    must (decide (1 ≤ a.items) && decide (a.items ≤ 1024)) (invalid 1 0 4),
    must (decide (a.select ≤ 1024)) (invalid 1 0 8),
    must (decide (a.recent ≤ 64)) (invalid 1 0 10),
    must (a.window != some 0) (invalid 1 0 12),
    must (isFin32 a.lambda && fgt a.lambda 0) (invalid 1 0 16),
    must (a.itemsAt % 32 == 0 && rangeValid a.itemsAt (32 * a.items)) (invalid 1 0 24),
    must (addrOk a.queriesAt) (invalid 1 0 32)]

/-- The first byte and the bytes of an item's queries (R240). -/
def queryAt (a : AttendHead) (x : ItemIn) : Nat := a.queriesAt + x.offset
def queryLen (d : List Byte) (x : ItemIn) : Nat := x.rows * kvGq d * kvDim d * 2

/-- The query vectors of an item, by row and query head, in FP32. -/
def itemQueries (s : State) (d : List Byte) (a : AttendHead) (x : ItemIn) : List (List F32) :=
  chunks (kvDim d) (x.rows * kvGq d) ((unpackCodes 16 (readBytes s.mem (queryAt a x) (queryLen d x))).map
    bf16To32)

/-- The bias table entries of a head as FP32 (R243). -/
def biasOf (s : State) (d : List Byte) (j : Nat) : List F32 :=
  if kvBias d == 0 then []
  else (unpackCodes 16 (readBytes s.mem (kvBias d + j * kvGq d * 128) (kvGq d * 128))).map fp16To32

/-- The checks of one item's fields (R240, R241). -/
def itemErr (s : State) (a : AttendHead) (i : Nat) : Option Err :=
  let x := itemIn s a i
  let d := seqDesc s x.seq
  firstErr [
    must (findSeq s x.seq).isSome (invalid 2 i 0),
    must (decide (x.head < kvHeads d)) (invalid 2 i 4),
    must (decide (1 ≤ x.rows) && decide (x.rows ≤ 256)) (invalid 2 i 6),
    must (decide (x.pos + x.rows - 1 < 2 ^ 32)) (invalid 2 i 8),
    must (decide (x.first ≤ x.last)) (invalid 2 i 12),
    must (x.offset % 64 == 0 && rangeValid (queryAt a x) (queryLen d x)) (invalid 2 i 24)]

/-- The checks of one item's queries and bias entries (R241). -/
def itemDataErr (s : State) (a : AttendHead) (i : Nat) : Option Err :=
  let x := itemIn s a i
  let d := seqDesc s x.seq
  firstErr [
    (notFinite (itemQueries s d a x).flatten).map (fun e => invalid 3 i (2 * e)),
    (notFinite (biasOf s d x.head)).map fun e => invalid 5 0 (x.head * kvGq d * 128 + 2 * e)]

def attendRanges (s : State) (c : Cmd) : List Range :=
  let h := kvBlock s c 64
  let a := attendHead h
  { addr := entDesc c, len := 64 } ::
  (if (attendHeadErr h).isSome then []
   else { addr := a.itemsAt, len := 32 * a.items } ::
     (List.range a.items).flatMap fun i =>
       let x := itemIn s a i
       let d := seqDesc s x.seq
       if (itemErr s a i).isSome then []
       else { addr := queryAt a x, len := queryLen d x } ::
         (if kvBias d == 0 then [] else [{
           addr := kvBias d + x.head * kvGq d * 128, len := kvGq d * 128 }]))

/-! ### What a row sees (R242, R243) -/

/-- bucket of R243. -/
def bucket (n : Nat) : Nat :=
  if n < 4 then n else 4 + 2 * (Nat.log2 n - 2) + (n >>> (Nat.log2 n - 1)) % 2

/-- An item with its sequence, its head's data and L_s. -/
structure ItemCtx where
  a : AttendHead
  x : ItemIn
  q : KvSeq
  len : Nat
  bias : List F32
  queries : List (List F32)

/-- The unmasked tokens of a page for row `r`: first position and count. -/
def rowTokens (k : ItemCtx) (r p : Nat) : Nat × Nat :=
  let t := k.x.pos + r
  let lo := max (256 * p) (match k.a.window with | some w => t + 1 - w | none => 0)
  let hi := min (256 * p + 256) (min k.len (t + 1))
  if k.x.first ≤ p && p ≤ k.x.last then (lo, hi - lo) else (lo, 0)

/-- A page is wholly masked for the item. -/
def masked (k : ItemCtx) (p : Nat) : Bool := (List.range k.x.rows).all fun r => (rowTokens k r p).2 == 0

/-- The bias of query head `h` at a distance. -/
def biasAt (k : ItemCtx) (h dist : Nat) : F32 :=
  if k.bias.isEmpty then 0 else k.bias.getD (64 * h + bucket dist) 0

/-! ### Choosing pages (R244 to R247) -/

def isDropped (k : ItemCtx) (p : Nat) : Bool := pageSt k.q k.x.head p == 4
def summaryOf (k : ItemCtx) (p : Nat) : Option Summary := (findPage k.q k.x.head p).bind (·.summary)
def committed (k : ItemCtx) : List Nat := List.range (k.len / 256)
def inRange (k : ItemCtx) (p : Nat) : Bool := decide (k.x.first ≤ p) && decide (p ≤ k.x.last)

/-- Pages that R244 forces before any is removed. -/
def forcedRaw (k : ItemCtx) (p : Nat) : Bool :=
  p == 0 || (p == k.len / 256 && k.len % 256 != 0) ||
  (decide (p < k.len / 256) && (decide (k.len / 256 ≤ p + k.a.recent) ||
    ((summaryOf k p).map (·.nonfinite)).getD false))

/-- The forced set, in ascending order. -/
def forcedSet (k : ItemCtx) : List Nat :=
  (List.range (k.len / 256 + 1)).filter fun p =>
    forcedRaw k p && !masked k p && inRange k p && !isDropped k p

/-- Committed pages outside the forced set that are not wholly masked, in range. -/
def openPages (k : ItemCtx) : List Nat :=
  (committed k).filter fun p => inRange k p && !masked k p && !(forcedSet k).contains p
def candidateRow (k : ItemCtx) : List Nat := (openPages k).filter fun p => !isDropped k p
def droppedSet (k : ItemCtx) : List Nat := (openPages k).filter (isDropped k)

/-- Two exact values, the greater. -/
def fltMax (a b : Flt) : Flt := if fltCmp a b < 0 then b else a
def intFlt (i : Int) : Flt := .fin (decide (i < 0)) i.natAbs 0

/-- β of R246. -/
def boundBeta (q : List F32) (x : Summary) : F32 :=
  (q.zip (x.mins.zip x.maxs)).foldl (fun b p => upAdd b
    (fltMax (fltMul (v32 p.1) (intFlt p.2.1)) (fltMul (v32 p.1) (intFlt p.2.2)))) 0

/-- maxbias of R246: the greatest bias over a row's tokens of a page. -/
def maxBias (k : ItemCtx) (h r p : Nat) : F32 :=
  let w := rowTokens k r p
  let t := k.x.pos + r
  let bs := (List.range w.2).map fun i => biasAt k h (t - (w.1 + i))
  bs.foldl (fun m b => if fltb m b then b else m) (bs.headD 0)

/-- The group bound of a page (R246). -/
def groupBound (k : ItemCtx) (p : Nat) : F32 :=
  let y := (summaryOf k p).getD { scale := 0, nonfinite := false, mass := 0, mins := [], maxs := [] }
  let bs := (List.range k.x.rows).flatMap fun r =>
    if (rowTokens k r p).2 == 0 then []
    else (List.range (kvGq k.q.desc)).map fun h =>
      upAdd (upMul k.a.lambda (upMul y.scale (boundBeta (k.queries.getD (r * kvGq k.q.desc + h) []) y)))
        (v32 (maxBias k h r p))
  bs.foldl (fun m b => if fltb m b then b else m) (bs.headD negInf32)

/-- The reference c of R247. -/
def boundRef (draw : Nat) (row : List (Nat × F32)) (dropped : List (Nat × F32)) : F32 :=
  if row.isEmpty then (if dropped.isEmpty then negInf32 else Config.boundRef draw)
  else row.foldl (fun m b => if fltb m b.2 then b.2 else m) negInf32

/-- The weight of a page as its distance −w (R247). -/
def pageDist (c b : F32) : F32 :=
  fneg (upMul (intTo32 256) (fexp true (upAdd b (fltNeg (v32 c)))))

/-- What a selection leaves: the pages selected, and the exact sums (R247). -/
def choosePages (k : ItemCtx) (draw : Nat) : F32 × PList :=
  let bounds := fun (l : List Nat) => l.map fun p => (p, groupBound k p)
  let row := bounds (candidateRow k)
  let drop := bounds (droppedSet k)
  let c := boundRef draw row drop
  let dist := fun (l : List (Nat × F32)) => l.map fun x => (x.1, pageDist c x.2)
  let none' : PList := {
    k := 0, entries := [], ties := 0, truncated := false, fallback := false, leftOut := 0
    selSum := 0, selSpecial := 0, leftSum := exactSum (dist row), leftSpecial := exactSpecials (dist row) }
  let p := if k.a.select == 0 || row.isEmpty then none' else selectRow k.a.select (dist row)
  (c, { p with
    leftSum := p.leftSum + exactSum (dist drop)
    leftSpecial := p.leftSpecial ||| exactSpecials (dist drop) })

/-- The attended set (R248). -/
def attendedSet (k : ItemCtx) (sel : List Nat) : List Nat :=
  sortBy (fun a b => decide (a < b)) (forcedSet k ++ sel)

/-- Shares of a list: the first get one more (R248). -/
def sharesOf (l : List Nat) : List (List Nat) :=
  let n := l.length
  let u := min 8 (ceilDiv n 8)
  (List.range u).map fun i =>
    (l.drop (i * (n / u) + min i (n % u))).take (n / u + b2n (decide (i < n % u)))

/-! ### Attending (R249, R250) -/

/-- A page's keys and values, widened. -/
structure PageData where
  page : Nat
  keys : List (List F32)
  vals : List (List F32)

def pageData (s : State) (k : ItemCtx) (p : Nat) : PageData :=
  let bs := pageBytes s k.q.desc ((findPage k.q k.x.head p).getD { head := 0, page := 0, st := 0 })
  { page := p
    keys := (List.range 256).map fun t => widened (loadVec k.q.desc bs t 0)
    vals := (List.range 256).map fun t => widened (loadVec k.q.desc bs t 1) }

/-- The scores of a row and query head over a page's unmasked tokens, with the values. -/
def pageScores (k : ItemCtx) (r h : Nat) (y : PageData) : List (F32 × List F32) :=
  let w := rowTokens k r y.page
  let q := k.queries.getD (r * kvGq k.q.desc + h) []
  (List.range w.2).map fun i =>
    let t := w.1 + i
    (fadd (fmul k.a.lambda (dotPlain q (y.keys.getD (t % 256) [])))
       (biasAt k h (k.x.pos + r - t)), y.vals.getD (t % 256) [])

/-- p[t] of R249. -/
def expScore (m x : F32) : F32 := bf16 (fexp false (fsub x m))

/-- The greatest score, -Inf without a token. -/
def scoreMax (l : List (F32 × List F32)) : F32 := l.foldl (fun m x => fmax m x.1) negInf32

/-- The partial of a share for one row and query head. -/
def sharePart (k : ItemCtx) (r h : Nat) (ys : List PageData) : Part :=
  let l := ys.flatMap (pageScores k r h)
  let m := scoreMax l
  { m := m, l := fsum (l.map fun x => expScore m x.1)
    o := l.foldl (fun o x => (o.zip x.2).map fun p => fadd p.1 (fmul (expScore m x.1) p.2))
      (List.replicate (kvDim k.q.desc) 0) }

/-- π of R260 for one page of a share. -/
def pageMass (k : ItemCtx) (r h : Nat) (m : F32) (y : PageData) : F32 :=
  fsum ((pageScores k r h y).map fun x => expScore m x.1)

/-- The rows and query heads of an item, in result order. -/
def rowHeads (k : ItemCtx) : List (Nat × Nat) :=
  (List.range k.x.rows).flatMap fun r => (List.range (kvGq k.q.desc)).map fun h => (r, h)

/-- An item with its shares run. -/
def runItem (s : State) (c : Cmd) (k : ItemCtx) (i : Nat) : AttendItem :=
  let sel := choosePages k (s.drawn + i)
  let pages := attendedSet k (sel.2.entries.map (·.1))
  let data := (sharesOf pages).map fun l => l.map (pageData s k)
  let parts := data.map fun ys => (rowHeads k).map fun rh => sharePart k rh.1 rh.2 ys
  let neg := fun (n : Nat) => n % 2 + (if bit n 1 then 4 else 0) + (if bit n 2 then 2 else 0)
  { cmd := c.id, idx := i, seq := k.q.id, head := k.x.head, rows := k.x.rows, gq := kvGq k.q.desc
    attended := pages.length, selected := sel.2.entries.length
    candidates := (candidateRow k).length, dropped := (droppedSet k).length
    nonfinite := (forcedSet k).any fun p => ((summaryOf k p).map (·.nonfinite)).getD false
    slabPath := decide (1 < k.x.rows) || decide (32 < kvGq k.q.desc)
    ref := sel.1
    selMass := exactTo64 (-sel.2.selSum) (neg sel.2.selSpecial)
    leftMass := exactTo64 (-sel.2.leftSum) (neg sel.2.leftSpecial)
    leftExact := -sel.2.leftSum, leftSpecial := neg sel.2.leftSpecial
    home := kvHome k.q.desc, outBf16 := k.a.outBf16
    ties := sel.2.ties != 0
    slabLeft := if 1 < k.x.rows || 32 < kvGq k.q.desc then 2 else 0
    shares := parts
    masses := data.zipIdx.flatMap fun z => z.1.map fun y =>
      (y.page, z.2, (rowHeads k).zipIdx.map fun rh =>
        pageMass k rh.1.1 rh.1.2 (((parts.getD z.2 [])[rh.2]?.map (·.m)).getD 0) y) }

/-- The context of item `i`, with its L_s among `lens` once the command has been dispatched (R242). -/
def itemCtx (s : State) (a : AttendHead) (lens : List Nat) (i : Nat) : Option ItemCtx :=
  let x := itemIn s a i
  (findSeq s x.seq).map fun q => {
    a := a, x := x, q := q, len := min q.len (lens.getD i q.len), bias := biasOf s q.desc x.head
    queries := itemQueries s q.desc a x }

def itemCtxs (s : State) (a : AttendHead) (lens : List Nat) : List ItemCtx :=
  (List.range a.items).filterMap (itemCtx s a lens)

/-- A candidate row that is too long (R241). -/
def rowErrAt (k : ItemCtx) (i : Nat) : Option Err :=
  must (decide ((candidateRow k).length ≤ 2 ^ 20)) { status := 0x15, a := loc 2 i 12 }

def attendErr (s : State) (c : Cmd) : Option Err :=
  let h := kvBlock s c 64
  let a := attendHead h
  firstErr [
    attendHeadErr h,
    firstErr ((List.range a.items).map (itemErr s a)),
    firstErr ((List.range a.items).map (itemDataErr s a)),
    firstErr ((itemCtxs s a c.lens).zipIdx.map fun k => rowErrAt k.1 k.2)]

/-- The bytes of an item block (R258). -/
def blockSize (d : List Byte) (x : ItemIn) (bf : Bool) : Nat :=
  48 + x.rows * kvGq d * (16 + kvDim d * (if bf then 2 else 4))

def attendSlots (s : State) (c : Cmd) : List (Nat × Nat) :=
  let a := attendHead (kvBlock s c 64)
  oneSlot (16 + ((List.range a.items).map fun i =>
    let x := itemIn s a i
    blockSize (seqDesc s x.seq) x a.outBf16).sum) c

/-- The pages that an item attends. -/
def itemPages (s : State) (k : ItemCtx) (i : Nat) : List (Nat × Nat) :=
  (attendedSet k ((choosePages k (s.drawn + i)).2.entries.map (·.1))).map fun p => (k.x.head, p)

/-- The items' pages and summaries as ranges. -/
def itemRanges (s : State) (k : ItemCtx) (i : Nat) : List Range :=
  let n := 16 + 2 * kvDim k.q.desc
  { addr := kvSums k.q + n * kvIndex k.q k.x.head 0, len := n * (k.len / 256) } ::
    frameRanges k.q false (itemPages s k i)

/-- A SWAPPED page among the items' attended pages, with its frame size. -/
def swappedPage (s : State) (ks : List (ItemCtx × Nat)) : Option (KvPage × Nat) :=
  ks.findSome? fun k => (itemPages s k.1 k.2).findSome? fun x =>
    (findPage k.1.q x.1 x.2).bind fun p =>
      if p.st == 3 then some (p, kvFrame k.1.q.desc) else none

/-- The bucket of an item by A (R255). -/
def itemBucket (a : Nat) : Nat :=
  if a ≤ 8 then 0 else if a ≤ 16 then 1 else if a ≤ 32 then 2 else if a ≤ 64 then 3
  else if a ≤ 128 then 4 else if a ≤ 256 then 5 else if a ≤ 512 then 6 else 7

/-- Items in the order of their buckets (R255). -/
def bucketLt (a b : AttendItem) : Bool :=
  decide (itemBucket a.attended < itemBucket b.attended) ||
    (itemBucket a.attended == itemBucket b.attended && decide (a.idx < b.idx))

/-- The Slab operation that an item is due (R254): its scores, or after those its value products; it packs
where R187 lets it (DESIGN CHOICE, log 132). -/
def attendOp (s : State) (x : AttendItem) (urgent : Bool) : SlabOp :=
  let d := seqDesc s x.seq
  let n := if x.slabLeft == 2 then 256 * x.attended else kvDim d
  let k := if x.slabLeft == 2 then kvDim d else 256 * x.attended
  { id := 0, urgent := urgent, work := .attend x.cmd x.idx, M := x.rows * x.gq, N := n, K := k
    arith := 7, mayPack := decide (n ≤ 256), pack := [k, 7, kvFormat d, 10, 1]
    outBytes := 4 * x.rows * x.gq * n }

/-- An item of a KV_ATTEND whose sequence is gone, or whose fields no longer pass, ends the command
(R229, R241). -/
def attendGone (s : State) (c : Cmd) : Option Err :=
  let a := attendHead (kvBlock s c 64)
  firstErr ((List.range a.items).map (itemErr s a))

/-- The BULK pages that the items of a KV_ATTEND attend, read one sequence after another (R248). -/
def readItems (c : Cmd) : List (ItemCtx × Nat) → State → (State → State) → State
  | [], s, act => act s
  | k :: ks, s, act => readBulk s c k.1.q.desc (bulkOf k.1.q (itemPages s k.1 k.2)) fun s =>
      readItems c ks s act

/-- The shares of a KV_ATTEND's items run, and the Slab operations of those on its path are queued. -/
def startItems (s : State) (c : Cmd) (ks : List (ItemCtx × Nat)) : State :=
  let items := sortBy bucketLt (ks.map fun k => runItem s c k.1 k.2)
  (items.filter fun x => x.slabLeft != 0).foldl (fun s x => slabEnqueue s (attendOp s x c.urgent))
    { s with kv := { s.kv with items := s.kv.items ++ items }, drawn := s.drawn + ks.length }

/-- A KV_ATTEND that no eviction holds back: it reads its pages and runs its shares. -/
def attendRun (s : State) (c : Cmd) : State :=
  match attendGone s c with
  | some e => fail s c e
  | none =>
    let ks := (itemCtxs s (attendHead (kvBlock s c 64)) c.lens).zipIdx
    match swappedPage s ks with
    | some (p, n) => swappedFault s c p n 5
    | none =>
      if s.lintel.withheld && ks.any (fun k => bulkAmong k.1.q (itemPages s k.1 k.2)) then
        fail s c { status := 0x50 }
      else touching s c 5 (ks.flatMap fun k => itemRanges s k.1 k.2) fun s =>
        readItems c ks s fun s => startItems s c ks

def actKvAttend (s : State) (c : Cmd) : State :=
  let a := attendHead (kvBlock s c 64)
  let x := noteAfter s c (evictsOn s (attendSeqs s c))
    ((List.range a.items).map fun i => ((findSeq s (itemIn s a i).seq).map (·.len)).getD 0)
  if afterLeft x.1 x.2 then setPhase x.1 c.id (.waiting .kvBusy) else attendRun x.1 x.2

def execKvAttend (q : QueueId) (s : State) : Host.Outcome State Fault Refusal :=
  .next (runCommand s q.toNat (opIs 0x32) (fun _ c => descErr c 64) attendRanges attendErr attendSlots
    actKvAttend)

/-! ### The merge (R250 to R260) -/

def emptyPart (n : Nat) : Part := { m := negInf32, l := 0, o := List.replicate n 0 }

/-- One step of R250. -/
def mergePart (a b : Part) : Part :=
  let m := fmax a.m b.m
  if m == negInf32 then emptyPart a.o.length
  else
    let x := fexp false (fsub a.m m)
    let y := fexp false (fsub b.m m)
    { m := m, l := fadd (fmul x a.l) (fmul y b.l)
      o := (a.o.zip b.o).map fun p => fadd (fmul x p.1) (fmul y p.2) }

/-- The merged part of each row and query head. -/
def mergedParts (x : AttendItem) (dim : Nat) : List Part :=
  (List.range (x.rows * x.gq)).map fun i =>
    x.shares.foldl (fun p l => mergePart p (l.getD i (emptyPart dim))) (emptyPart dim)

/-- A row with no token that it sees (R251). -/
def emptyRow (p : Part) : Bool := p.m == negInf32 && isZero32 p.l

/-- U of R253. -/
def leftBound (x : AttendItem) (p : Part) : F32 :=
  if x.leftExact == 0 && x.leftSpecial == 0 then 0
  else if emptyRow p then posInf32
  else upMul (exactUp32 x.leftExact x.leftSpecial) (fexp true (upAdd x.ref (fltNeg (v32 p.m))))

/-- A row record (R251, R259). -/
def rowRecordBytes (x : AttendItem) (p : Part) : List Byte :=
  let e := emptyRow p
  let lse := if e then negInf32 else fadd p.m (fln p.l)
  leBytes 4 p.m.toNat ++ leBytes 4 (if e then 0 else p.l.toNat) ++ leBytes 4 lse.toNat ++
  leBytes 4 (leftBound x p).toNat ++ p.o.flatMap fun v =>
    let y := if e then 0 else fdiv v p.l
    if x.outBf16 then leBytes 2 (toBf16 y) else leBytes 4 y.toNat

/-- An item block (R258). -/
def itemBlock (x : AttendItem) (ps : List Part) : List Byte :=
  let rows := ps.flatMap (rowRecordBytes x)
  leBytes 4 (48 + rows.length) ++ leBytes 2 x.attended ++ leBytes 2 x.selected ++
  leBytes 4 x.candidates ++
  [BitVec.ofNat 8 (b2n (ps.any emptyRow) + 2 * b2n x.nonfinite + 4 * b2n x.slabPath)] ++ zeros 3 ++
  leBytes 4 x.ref.toNat ++ leBytes 4 x.dropped ++ leBytes 8 x.selMass.toNat ++
  leBytes 8 x.leftMass.toNat ++ zeros 8 ++ rows

/-- floor(μ × 2^32) of R260; a NaN adds a free value. -/
def massOf (draw page row : Nat) (u : F32) : Nat :=
  match v32 u with
  | .fin _ m e => if 0 ≤ e + 32 then m <<< (e + 32).toNat else m >>> (-(e + 32)).toNat
  | .inf _ => 2 ^ 64
  | .nan _ => Config.freeMass draw page row

/-- The mass of one page over an item's rows and heads (R260). -/
def pageGain (draw : Nat) (x : AttendItem) (ps : List Part) (z : Nat × Nat × List F32) : Nat :=
  ((z.2.2.zip ps).zipIdx.map fun p =>
    if emptyRow p.1.2 then 0
    else
      let mi := (((x.shares.getD z.2.1 [])[p.2]?).map (·.m)).getD 0
      massOf draw z.1 p.2 (fdiv (fmul p.1.1 (fexp false (fsub mi p.1.2.m))) p.1.2.l)).sum

/-- ACC_MASS of one page raised, saturating. -/
def addMass (x : AttendItem) (ps : List Part) (s : State) (z : Nat × Nat × List F32) : State :=
  match findSeq s x.seq with
  | none => s
  | some q =>
    match (findPage q x.head z.1).bind fun p => p.summary.map fun y => (p, y) with
    | none => s
    | some (p, y) =>
      let p' := { p with
      summary := some { y with
        mass := sat (2 ^ 64 - 1) (y.mass + pageGain s.drawn x ps z) } }
      writeSummary (updSeq s x.seq fun q => { q with
        pages := mapIf (fun w => w.head == x.head && w.page == z.1) (fun _ => p') q.pages })
        (some (.cmd x.cmd)) q p'

/-- The next item of a command to merge, of those whose Slab operations have ended: buckets ascending,
then item order. -/
def nextItem (s : State) (cmd : Nat) : Option AttendItem :=
  (sortBy bucketLt (s.kv.items.filter fun x =>
    x.cmd == cmd && x.merged.isNone && x.slabLeft == 0)).head?

/-- A Slab operation of an item has ended (R254). -/
def attendStep (s : State) (cmd idx : Nat) (urgent : Bool) : State :=
  match s.kv.items.find? fun x => x.cmd == cmd && x.idx == idx with
  | none => s
  | some x =>
    let y := { x with slabLeft := x.slabLeft - 1 }
    let s1 := { s with
      kv := { s.kv with
        items := mapIf (fun z => z.cmd == cmd && z.idx == idx) (fun _ => y) s.kv.items } }
    if y.slabLeft == 0 then s1 else slabEnqueue s1 (attendOp s1 y urgent)

/-- The payload of R257 and the completion (R256), once every item is merged. -/
def attendDone (s : State) (c : Cmd) : State :=
  let mine := s.kv.items.filter (·.cmd == c.id)
  if mine.any (·.merged.isNone) then s
  else
    let blocks := (sortBy (fun a b => decide (a.idx < b.idx)) mine).flatMap fun x =>
      x.merged.getD []
    let payload := header 16 ++ leBytes 2 mine.length ++ zeros 2 ++ leBytes 8 (16 + blocks.length) ++
      blocks
    let st := if mine.any (·.emptyRow) then 3 else 0
    let s1 := { s with kv := { s.kv with items := s.kv.items.filter (·.cmd != c.id) } }
    succeed (slotReady s1 c.id (entResult c) st payload 0xFFFFFFFF) c st
      (if mine.any (·.ties) then 2 else 0) mine.length 0 0

/-- One item merged: its block, its pages' masses, and the counter of its Grout (R270). -/
def mergeItem (s : State) (x : AttendItem) : State :=
  let dim := ((findSeq s x.seq).map fun q => kvDim q.desc).getD 0
  let ps := mergedParts x dim
  let y := { x with merged := some (itemBlock x ps), emptyRow := ps.any emptyRow }
  let s1 := x.masses.foldl (addMass x ps) s
  { s1 with
    kv := { s1.kv with
      items := mapIf (fun z => z.cmd == x.cmd && z.idx == x.idx) (fun _ => y) s1.kv.items
      merged := modAt s1.kv.merged x.home fun n => (n + 1) % 2 ^ 64 }
    drawn := s1.drawn + 1 }

/-- A Grout works: its course is on, and its island is off in Drowse (R30, R538). -/
def groutOn (s : State) (c : Nat) : Bool := domainOn s (4 + c) && s.power.st != 1

def execKvAttendMerge (cmd : Nat) (s : State) : Host.Outcome State Fault Refusal :=
  .next (match findCmd s cmd, nextItem s cmd with
    | some c, some x => if groutOn s x.home then attendDone (mergeItem s x) c else holdWork s
    | _, _ => s)

/-! ### Eviction and pre-emption (R261 to R267) -/

/-- The checks of the block of R262. -/
def evictErr (s : State) (c : Cmd) : Option Err :=
  let d := kvBlock s c 32
  let heads := kvHeads (seqDesc s (kvSeqId d))
  let all := bit (byteAt d 10) 0
  firstErr [
    structErr d 32 1 0,
    must (findSeq s (kvSeqId d)).isSome (invalid 1 0 4),
    must (!opIs 0x33 c || getLE d 8 2 == 0xFFFF || decide (getLE d 8 2 < heads)) (invalid 1 0 8),
    must (!opIs 0x33 c || all || (decide (1 ≤ getLE d 12 4) && decide (getLE d 12 4 ≤ 2 ^ 24)))
      (invalid 1 0 12),
    must (!opIs 0x34 c || (getLE d 16 8 % 4096 == 0 && windowOf (getLE d 16 8) == some 1 &&
      (getLE d 24 8 == 0 || rangeValid (getLE d 16 8) (getLE d 24 8)))) (invalid 1 0 16)]

/-- A command of R261: its range, and the KV_ATTENDs dispatched before it, but that a KV_SWAP_IN goes past
those that wait for the pages it brings back (R248; DEDUCED, log 131). -/
def evicting (s : State) (c : Cmd) (act : State → Cmd → KvSeq → List Byte → State) : State :=
  let d := kvBlock s c 32
  let x := noteAfter s c (attendsOn s (kvSeqId d)) []
  onPages x.1 x.2 (kvSeqId d) 0 allPages fun s =>
    if afterLeft s { x.2 with after := x.2.after.filter fun i => !(opIs 0x35 c && atSwapped s i) } then
      setPhase s c.id (.waiting .kvBusy)
    else match findSeq s (kvSeqId d) with
      | none => fail s c (invalid 1 0 4)
      | some q => act s x.2 q d

def byHeadPage (a b : KvPage) : Bool :=
  decide (a.head < b.head) || (a.head == b.head && decide (a.page < b.page))

/-- The pages of one head that KV_EVICT takes (R263). -/
def evictHead (q : KvSeq) (n j : Nat) : List KvPage :=
  let top := q.len / 256
  let mass := fun (p : KvPage) => ((p.summary.map (·.mass)).getD 0 : Nat)
  (sortBy (fun a b => decide (mass a < mass b) || (mass a == mass b && decide (a.page < b.page)))
    (q.pages.filter fun p => p.head == j && p.st == 1 && p.page != 0 &&
      decide (p.page + 64 < top))).take n

/-- A page moved to Bulk: its flash pages are programmed in the Bricks that hold them. -/
def toBulk (o : Option Owner) (cmd id : Nat) (d : List Byte) (s : State) (p : KvPage) : State :=
  let p' := { p with st := 2, loc := Config.bulkLocation s.drawn, bulk := pageBytes s d p }
  (bulkParts d p').foldl (fun s r =>
    addProgram s (r.addr / unitBytes % 64) {
      cmd := some cmd, course := r.addr / unitBytes % 64 / 8, bytes := 0, plane := r.addr / 16384 % 32 })
    (putPage { s with drawn := s.drawn + 1 } o id p')

/-- A page dropped. -/
def dropPage (o : Option Owner) (id : Nat) (s : State) (p : KvPage) : State :=
  putPage s o id { p with st := 4, loc := 0 }

/-- Bulk bytes of `n` pages. -/
def bulkPages (d : List Byte) (n : Nat) : Nat := n * roundUp (kvFrame d) 16384

/-- Pages moved to Bulk, all or none, with `done`; the command completes once all of them are in NAND
(R263). -/
def moveToBulk (s : State) (c : Cmd) (q : KvSeq) (ps : List KvPage) (more : Nat)
    (done : State → State) : State :=
  if s.lintel.withheld then fail s c { status := 0x50 }
  else if bulkShare s < bulkInUse s + bulkPages q.desc ps.length + more then
    fail s c { status := 0x14 }
  else touching s c (courseStop (kvHome q.desc))
    (ps.map fun p => { addr := p.loc, len := kvFrame q.desc, kind := 2 }) fun s =>
      let s1 := done (ps.foldl (toBulk (some (.cmd c.id)) c.id q.id q.desc) s)
      if movesOut s1 c.id then
        setPhase s1 c.id (.writing (completionOf c 0 0 ps.length 0 0))
      else succeed s1 c 0 0 ps.length 0 0

/-- KV_EVICT without ALL (R263). -/
def evictRun (s : State) (c : Cmd) (q : KvSeq) (d : List Byte) : State :=
  let heads := if getLE d 8 2 == 0xFFFF then List.range (kvHeads q.desc) else [getLE d 8 2]
  let ps := heads.flatMap (evictHead q (getLE d 12 4))
  if bit (byteAt q.desc 14) 0 then
    moveToBulk s c q ps 0 id
  else succeed (ps.foldl (dropPage (some (.cmd c.id)) q.id) s) c 0 0 ps.length 0 0

/-- The durable image of a sequence all of whose pages with tokens are in Bulk (R267). -/
def makeDurable (s : State) (id : Nat) : State :=
  updSeq s id fun q =>
    let n := ceilDiv q.len 256
    let ok := (List.range (kvHeads q.desc)).all fun j => (List.range n).all fun p => pageSt q j p == 2
    if ok then { q with image := some (q.len, q.pages.map fun p => { p with bulk := [] }) } else q

/-- KV_EVICT with ALL (R263, R267). -/
def evictAllRun (s : State) (c : Cmd) (q : KvSeq) (_ : List Byte) : State :=
  if q.pages.any (·.st == 3) then fail s c (invalid 1 0 10)
  else
    let ps := sortBy byHeadPage (q.pages.filter (·.st == 1))
    moveToBulk s c q ps (roundUp (72 + (q.units.map (·.2)).sum) 16384) fun s => makeDurable s q.id

def evictPre (_ : State) (c : Cmd) : Option Err := descErr c 32
def evictRange (_ : State) (c : Cmd) : List Range := [{ addr := entDesc c, len := 32 }]

/-- ALL of a KV_EVICT. -/
def isAll (s : State) (c : Cmd) : Bool := bit (readByte s.mem (entDesc c + 10)).toNat 0

def actKvEvict (s : State) (c : Cmd) : State := evicting s c evictRun

def execKvEvict (q : QueueId) (s : State) : Host.Outcome State Fault Refusal :=
  .next (runCommand s q.toNat (fun c => opIs 0x33 c && !isAll s c) evictPre evictRange evictErr noSlots
    actKvEvict)

def actKvEvictAll (s : State) (c : Cmd) : State := evicting s c evictAllRun

def execKvEvictAll (q : QueueId) (s : State) : Host.Outcome State Fault Refusal :=
  .next (runCommand s q.toNat (fun c => opIs 0x33 c && isAll s c) evictPre evictRange evictErr noSlots
    actKvEvictAll)

/-- One page written to its companion area (R264). -/
def swapOutPage (o : Option Owner) (id a : Nat) (d : List Byte) (s : State) (x : KvPage × Nat) : State :=
  let dst := a + x.2 * kvFrame d
  putPage (deviceWrite s o dst (pageBytes s d x.1)) o id { x.1 with st := 3, loc := dst }

/-- KV_SWAP_OUT (R264). -/
def swapOutRun (s : State) (c : Cmd) (q : KvSeq) (d : List Byte) : State :=
  let ps := sortBy byHeadPage (q.pages.filter (·.st == 1))
  let need := ps.length * kvFrame q.desc
  let a := getLE d 16 8
  if getLE d 24 8 < need then fail s c { status := 0x14, a := need }
  else touching s c (courseStop (kvHome q.desc))
    ((ps.map fun p => { addr := p.loc, len := kvFrame q.desc, kind := 2 }) ++
      [{ addr := a, len := need, kind := 2, write := true }]) fun s =>
      succeed (ps.zipIdx.foldl (swapOutPage (some (.cmd c.id)) q.id a q.desc) s) c 0 0 ps.length need 0

def actKvSwapOut (s : State) (c : Cmd) : State := evicting s c swapOutRun

def execKvSwapOut (q : QueueId) (s : State) : Host.Outcome State Fault Refusal :=
  .next (runCommand s q.toNat (opIs 0x34) evictPre evictRange evictErr noSlots actKvSwapOut)

/-- One page moved back into a frame; none where a frame is lacking. -/
def swapInPage (s : State) (o : Option Owner) (id : Nat) (p : KvPage) : Option State :=
  match findSeq s id with
  | none => none
  | some q =>
    (freeFrame s (frameCourse q.desc p.head p.page) (kvFrame q.desc)).map fun a =>
      putPage (deviceWrite s o a (pageBytes s q.desc p)) o id { p with st := 1, loc := a, bulk := [] }

def swapInPages (o : Option Owner) (id : Nat) : State → List KvPage → Option State
  | s, [] => some s
  | s, p :: ps =>
    match swapInPage s o id p with
    | none => none
    | some s1 => swapInPages o id s1 ps

/-- KV_SWAP_IN (R265, R267). -/
def swapInRun (s : State) (c : Cmd) (q : KvSeq) (d : List Byte) : State :=
  let bulk := bit (byteAt d 10) 0
  let ps := sortBy byHeadPage (q.pages.filter fun p => p.st == 3 || (bulk && p.st == 2))
  if s.lintel.withheld && ps.any (·.st == 2) then fail s c { status := 0x50 }
  else touching s c (courseStop (kvHome q.desc)) ((ps.filter (·.st == 3)).map fun p => {
      addr := p.loc, len := kvFrame q.desc, kind := 2 }) fun s =>
    readBulk s c q.desc (ps.filter (·.st == 2)) fun s =>
    match swapInPages (some (.cmd c.id)) q.id s ps with
    | none => fail s c { status := 0x14 }
    | some s1 => succeed (updSeq s1 q.id fun q => { q with
        image := if bulk then none else q.image }) c 0 0 ps.length 0 0

def actKvSwapIn (s : State) (c : Cmd) : State := evicting s c swapInRun

def execKvSwapIn (q : QueueId) (s : State) : Host.Outcome State Fault Refusal :=
  .next (runCommand s q.toNat (opIs 0x35) evictPre evictRange evictErr noSlots actKvSwapIn)

/-- KV_DESTROY (R266, R521). -/
def destroyRun (s : State) (c : Cmd) (q : KvSeq) (_ : List Byte) : State :=
  succeed { s with
    kv := { s.kv with seqs := s.kv.seqs.filter (·.id != q.id) }
    tiers := { s.tiers with
      entries := releaseUnits s.tiers.entries (q.units.map fun u => {
        name := u.1, bytes := u.2, durable := false }) }
    lintel := { s.lintel with coKeys := s.lintel.coKeys.filter fun x => !(x.1 && x.2.1 == q.id) } }
    c 0 0 0 0 0

def actKvDestroy (s : State) (c : Cmd) : State := evicting s c destroyRun

def execKvDestroy (q : QueueId) (s : State) : Host.Outcome State Fault Refusal :=
  .next (runCommand s q.toNat (opIs 0x36) evictPre evictRange evictErr noSlots actKvDestroy)

/-- After power loss or a module reset: durable sequences from their images, and no others (R267). -/
def restoreSeqs (kv : Kv) : Kv :=
  let back := fun (q : KvSeq) => q.image.map fun i => { q with
    len := i.1
    pages := i.2.map fun p => { p with bulk := ((findPage q p.head p.page).map (·.bulk)).getD [] } }
  { kv with seqs := kv.seqs.filterMap back, items := [] }

end Sys2Proof.Machine
end

