-- ==== Sys2Proof/Machine/SlabEnd.lean ====
section
/-!
DEFINITION. The ends of Slab operations: what each leaves, where it writes, and the counters (R190, R192,
R217, R221 to R225).
-/

namespace Sys2Proof.Machine

/-- A command with one Slab operation fewer to wait for; with none left it completes. -/
def opDone (s : State) (cmd : Nat) : State :=
  match findCmd s cmd with
  | none => s
  | some c =>
    if c.count ≤ 1 then succeed s c 0 0 0 0 0
    else updCmd s cmd fun c => { c with count := c.count - 1 }

/-- The sketches of a PROJECT in its slot (R221, R368); of a collection with a code book, which R221
does not cover, free bytes (log 24). -/
def projectDone (s : State) (cmd coll : Nat) (vecs : List (List F32)) : State :=
  match findCmd s cmd, findColl s coll with
  | some c, some k =>
    let n := dSketch k.desc / 8
    let payload := if k.proj.kv5 then
        (List.range (n * vecs.length)).map (Config.freeByte s.drawn)
      else vecs.flatMap fun x => leBytes n (sketchBits k.proj.rows
        (if dKind k.desc == 1 then normalise x else x))
    succeed (slotReady { s with drawn := s.drawn + 1 } c.id (entResult c) 0 payload 0xFFFFFFFF) c
      0 0 vecs.length 0 0
  | some c, none => fail s c noColl
  | none, _ => s

/-- What an operation leaves as its epilogue ends (R190). -/
def finishOp (s : State) (op : SlabOp) : State :=
  if !opWanted s op then s
  else
    match op.work with
    | .tile reqs => reqs.foldl (fun s r => selectQuery s r.query r.dists) s
    | .rows r part n => endPart s r part n none
    | .sketch id _ _ => sketchDone s id
    | .sketches cmd _ _ => updCmd s cmd fun c => { c with projected := true, phase := .ready }
    | .attend cmd idx => attendStep s cmd idx op.urgent
    | .project cmd coll vecs => projectDone s cmd coll vecs
    | .matmul cmd m0 _ n0 _ d _ hb values => opDone (putBlockRows s op cmd m0 n0 d hb values) cmd
    | .rescale cmd _ _ => opDone s cmd

/-- What stands in the way of the writes of an epilogue's operations. -/
def epilogueBlock (s : State) (ops : List SlabOp) : Option (SlabOp × Nat × Range × Reach) :=
  (ops.filter (opWanted s)).findSome? fun op =>
    (reachRanges s [] (opOut op)).map fun x => (op, x)

/-- The epilogue of a group of operations that packed ends, as one operation (R187, R224, R225). -/
def finishGroup (s : State) (ops : List SlabOp) : State :=
  let s1 := { s with
    slab := { s.slab with
      rescaleLoading := loadsLeft s.slab
      opsDone := (s.slab.opsDone + 1) % 2 ^ 64
      packedOps := (s.slab.packedOps + b2n (decide (1 < ops.length))) % 2 ^ 64 } }
  ops.foldl finishOp s1

/-- The oldest epilogue ends: it waits for the units that it writes, as a prologue does for those that it
reads (R192), and with one in motion lets the others pass (R294). -/
def execSlabEpilogueEnd (s : State) : Host.Outcome State Fault Refusal :=
  .next (match s.slab.epilogue with
    | [] => s
    | ops :: rest =>
      let left := fun (l : List (List SlabOp)) => { s with slab := { s.slab with epilogue := l } }
      if !slabOn s then holdWork s
      else match epilogueBlock s ops with
        | some (_, u, r, .fault cause) => parkOps (left rest) true ops u cause r
        | some (op, _, _, .ends st) =>
          let others := ops.filter (·.id != op.id)
          failOp (left (if others.isEmpty then rest else others :: rest)) op { status := st }
        | some (_, _, _, .moving) => left (rest ++ [ops])
        | some _ => holdWork s
        | none => finishGroup (left rest) ops)

end Sys2Proof.Machine
end

