-- ==== Sys2Proof/Machine/Mailbox.lean ====
section
/-!
DEFINITION. The blocks of the management mailbox: requests, responses and the end of a request (R483 to R487,
R581).
-/

namespace Sys2Proof.Machine

/-- The opcodes of R484 and R508. -/
def mailOps : List Nat :=
  [0x01, 0x02, 0x10, 0x11, 0x20, 0x21, 0x22, 0x30, 0x31, 0x40, 0x41, 0x42, 0x43, 0x44, 0x45, 0x46,
   0x47, 0x48, 0x49]
/-- Those that are long. -/
def longOps : List Nat := [0x11, 0x20, 0x22, 0x30, 0x31, 0x42, 0x44, 0x45, 0x47, 0x49]

def mailByte (s : State) (i : Nat) : Byte := (getCell i s.quoin.mailbox).getD 0
def mailBytes (s : State) (off n : Nat) : List Byte := (List.range n).map fun i => mailByte s (off + i)

/-- Bytes put into a sparse buffer whose unlisted bytes are 0. -/
def putBuffer (cells : List Host.Cell) (a : Nat) : List Byte → List Host.Cell
  | [] => cells
  | b :: bs => putBuffer (putCell (b == 0) a b cells) (a + 1) bs

/-- Bytes of such a buffer. -/
def getBuffer (cells : List Host.Cell) (a n : Nat) : List Byte :=
  (List.range n).map fun i => (getCell (a + i) cells).getD 0

def rOpcode (req : List Byte) : Nat := byteAt req 4
def rFlags (req : List Byte) : Nat := byteAt req 5
def rArg (req : List Byte) (i : Nat) : Nat := getLE req (8 + 8 * i) 8
def rPayload (req : List Byte) : List Byte := (req.take (getLE req 2 2)).drop 32

/-- What a request block is refused with before its opcode runs (R11, R15, R483, R484). -/
def mailErr (req : List Byte) : Option Nat :=
  if !versionOk req 32 then some 0x11
  else if 4096 < getLE req 2 2 then some 0x10
  else if !mailOps.contains (rOpcode req) then some 0x10
  else none

/-- A response block (R483). -/
def response (req : List Byte) (status a0 a1 a2 : Nat) (payload : List Byte) : List Byte :=
  header (32 + payload.length) ++ leBytes 1 (rOpcode req) ++ leBytes 1 status ++ zeros 2 ++
  leBytes 8 a0 ++ leBytes 8 a1 ++ leBytes 8 a2 ++ payload

/-- The body of a vendor-defined message (R581); the enterprise number stands highest byte first
(DSP0236). -/
def vendorMessage (subtype : Nat) (body : List Byte) : List Byte :=
  [0x7F, 0, 0, 0xEC, 0x01] ++ leBytes 1 subtype ++ zeros 2 ++ body

/-- A response sent back along the path that the request came on. -/
def respond (s : State) (smbus : Bool) (bs : List Byte) : State :=
  { s with
    quoin := { s.quoin with
      mailbox := if smbus then s.quoin.mailbox else putBuffer s.quoin.mailbox 0 bs
      smbusReply := if smbus then vendorMessage 1 bs else s.quoin.smbusReply } }

/-- The end of the request that runs (R485, R486): its response, DONE and its status; a long one raises
vector 4,035 over a link with a session, and over SMBus asserts SMB_ALERT# (R572). -/
def mailDone (s : State) (status a0 a1 a2 : Nat) (payload : List Byte) : State :=
  let req := s.quoin.mbRequest
  let long := longOps.contains (rOpcode req)
  let s1 := respond s s.quoin.mbSmbus (response req status a0 a1 a2 payload)
  let call := long && s.uzone.link.st == 2 && s.uzone.session != 0
  { s1 with
    quoin := { s1.quoin with
      mbState := 2, mbStatus := status, goPending := false, mbWait := none, mbGot := []
      mbProgress := if long then 1000 else 0, mbRequest := [], drain := none }
    pins := { s1.pins with smbAlert := s1.pins.smbAlert || (long && s.quoin.mbSmbus) }
    uzone := if call then uzSend s1.uzone [.intr 4035] else s1.uzone }

/-- The end with the arguments as they came. -/
def mailEnd (s : State) (status : Nat) : State :=
  let req := s.quoin.mbRequest
  mailDone s status (rArg req 0) (rArg req 1) (rArg req 2) []

/-- The running request goes on: what it waited for is here (R283, R454). -/
def mailWake (s : State) : State :=
  { s with
    quoin := { s.quoin with
      goPending := s.quoin.goPending || s.quoin.mbWait.isSome, mbWait := none } }

end Sys2Proof.Machine
end

