-- ==== Sys2Proof/Machine/Owners.lean ====
section
/-!
DEFINITION. The ends of accesses outside the module: what they served goes on, or ends with the status of
the access (R282, R298, R422, R432, R454, R467).
-/

namespace Sys2Proof.Machine

/-- A wait for data of the companion or of a neighbour. -/
def hostWait : Wait → Bool
  | .host => true
  | .peer _ => true
  | _ => false

/-- A command that waits for data from outside the module. -/
def waitsHost (c : Cmd) : Bool :=
  match c.phase with
  | .waiting w => hostWait w
  | _ => false

/-- A command whose accesses have been answered: the copy of its move goes on, its completion is posted, or
it goes on once the pages that it reads are here too. -/
def wakeCmd (s : State) (id : Nat) : State :=
  let s1 := settleWriting (copyOn s id) id
  if pagesLeft s1 id then s1 else updCmd s1 id fun c => if waitsHost c then { c with phase := .ready } else c

/-- A request or a stream that waits for such data. -/
def gatherHosts (s : State) (id : Nat) : Bool :=
  s.slab.gathers.any fun r => r.id == id && r.waits.elim false hostWait
def streamHosts (s : State) (id : Nat) : Bool :=
  s.hod.streams.any fun t => t.id == id && t.waits.elim false hostWait

/-- What an access served goes on once everything that it asked for is here. -/
def wakeOwner (s : State) (o : Owner) : State :=
  if accessOut s o false then s
  else
    match o with
    | .cmd id => wakeCmd s id
    | .req id => if gatherHosts s id then resumeGather s id else s
    | .stream id => if streamHosts s id then wakeStream s id else s
    | .fan _ => s
    | .dev => s
    | .mail => if s.quoin.mbWait.elim false hostWait then mailWake s else s

/-- A command whose completion waits for its writes has not completed when one of them fails. -/
def reopen (s : State) (id : Nat) : State :=
  updCmd s id fun c => match c.phase with
    | .writing _ => { c with phase := .running }
    | _ => c

/-- What an access served ends with a status (R422, R432, R467); a move keeps the homes that it has not
yet changed (R295). A fan-out's child fails with its request. -/
def endOwner (s : State) (o : Owner) (e : Err) : State :=
  match o with
  | .cmd id => match findMove s id with
    | some m => if (findCmd s id).elim false (opIs 0x24) then s else migrateFail s m e
    | none =>
      let s1 := reopen s id
      match findCmd s1 id with
      | some c => endCmd s1 c e
      | none => s1
  | .req id => match s.slab.gathers.find? (·.id == id) with
    | some r => failQuery (dropGather s id) r.query e
    | none => s
  | .stream id => match findStream s id with
    | some t => match findCmd s t.cmd with
      | some c => hodFail s c (some t.stage) e
      | none => s
    | none => s
  | .fan _ => s
  | .dev => { s with uzone := { s.uzone with devFailed := some e.status } }
  | .mail => if s.quoin.mbWait.isSome then mailEnd s e.status else s

/-! ### Far memory (R282, R298) -/

/-- Those that wait for an expander's answer on a link. -/
def farOwners (s : State) (l : Nat) : List Owner :=
  ((s.sched.cmds.filter fun c => c.phase == .waiting (.far l)).map fun c => Owner.cmd c.id) ++
  ((s.slab.gathers.filter fun r => r.waits == some (.far l)).map fun r => Owner.req r.id) ++
  ((s.hod.streams.filter fun t => t.waits == some (.far l)).map fun t => Owner.stream t.id) ++
  (if s.uzone.devFar == some l then [Owner.dev] else []) ++
  (if s.quoin.mbWait == some (.far l) then [Owner.mail] else [])

/-- A link to an expander is lost (R298): what waits on it ends with LINK_DOWN; a prologue finds it so. -/
def farLost (s : State) (l : Nat) : State :=
  (farOwners s l).foldl (fun s o => endOwner s o { status := 0x40 }) { s with
    tiers := { s.tiers with xfUp := modAt s.tiers.xfUp l fun _ => false }
    slab := { s.slab with fars := s.slab.fars.filter (·.2 != l) }
    uzone := { s.uzone with devFar := if s.uzone.devFar == some l then none else s.uzone.devFar } }

/-- One answer fewer that the prologue of an operation waits for. -/
def dropFar (l : List (Nat × Nat)) (op : Nat) : List (Nat × Nat) :=
  match l.find? (·.1 == op) with
  | some x => l.erase x
  | none => l

/-- The pair in whose prologue an operation is, with the others there. -/
def pairOf (s : State) (op : Nat) : Option (Bool × List SlabOp) :=
  let inPair := fun (p : PairState) => match p with
    | .prologue ops => if ops.any (·.id == op) then some ops else none
    | _ => none
  match inPair s.slab.pair0 with
  | some ops => some (true, ops)
  | none => (inPair s.slab.pair1).map fun ops => (false, ops)

/-- An expander's answer for an operand of a Slab operation. -/
def farForOp (s : State) (id : Nat) (poison : Bool) : State :=
  let s1 := { s with slab := { s.slab with fars := dropFar s.slab.fars id } }
  if !poison || s1.slab.fars == s.slab.fars then s1
  else
    match pairOf s1 id with
    | some (p, ops) => match ops.find? (·.id == id) with
      | some op => endInPair s1 p ops op { status := 0x32 }
      | none => s1
    | none => s1

def farWait : Wait → Bool
  | .far _ => true
  | _ => false

/-- An expander's answer to a read: what waits for it goes on, or ends where the data are poisoned
(R282). -/
def farAnswer (s : State) (who : FarRead) (poison : Bool) : State :=
  match who with
  | .cmd id => match findCmd s id with
    | some c =>
      match c.phase with
      | .waiting w =>
        if !farWait w then s
        else if poison then endOwner s (.cmd id) { status := 0x32 }
        else setPhase s id .ready
      | _ => s
    | none => s
  | .req id => match s.slab.gathers.find? (·.id == id) with
    | some r =>
      if !r.waits.elim false farWait then s
      else if poison then endOwner s (.req id) { status := 0x32 }
      else resumeGather s id
    | none => s
  | .stream id => match findStream s id with
    | some t =>
      if !t.waits.elim false farWait then s
      else if poison then endOwner s (.stream id) { status := 0x32 }
      else wakeStream s id
    | none => s
  | .op id => farForOp s id poison
  | .dev =>
    if s.uzone.devFar.isNone then s
    else
      let s1 := { s with uzone := { s.uzone with devFar := none } }
      if poison then endOwner s1 .dev { status := 0x32 } else s1
  | .mail =>
    if !s.quoin.mbWait.elim false farWait then s
    else if poison then endOwner s .mail { status := 0x32 }
    else mailWake s

/-! ### Requests to other modules (R284, R452, R454) -/

def findReq (s : State) (tag : Nat) : Option MReq := s.mortar.reqs.find? (·.tag == tag)

def forgetReq (s : State) (tag : Nat) : State :=
  { s with mortar := { s.mortar with reqs := s.mortar.reqs.filter (·.tag != tag) } }

/-- The bytes that a request reads or writes, by their name. -/
def reqRange (r : MReq) : Range :=
  { addr := r.unit + r.addr % unitBytes
    len := if r.kind == 1 then getLE r.payload 0 4 else r.payload.length, write := r.kind == 2 }

/-- An access that the exporting module has refused: a tier fault UNBACKED on the unit, on which the request
waits (R272, R454); where the fault queue is disabled, what it served ends (R288). -/
def unbacked (s : State) (r : MReq) : State :=
  let held := { s with
    mortar := { s.mortar with
      reqs := mapIf (·.tag == r.tag) (fun x => { x with held := true }) s.mortar.reqs } }
  match r.owner with
  | none => if s.tiers.enable then openFault (forgetReq s r.tag) none r.unit 4 (reqRange r) 10
      else forgetReq s r.tag
  | some .dev => endOwner (forgetReq s r.tag) .dev { status := 0x20, a := r.unit }
  | some o =>
    if s.tiers.enable then openFault held (some (.peer r.tag)) r.unit 4 (reqRange r) 10
    else endOwner (forgetReq s r.tag) o { status := 0x20, a := r.unit }

/-- A refused access retried, at the home that its unit then has (R284). -/
def retryPeer (s : State) (tag : Nat) : State :=
  match findReq s tag with
  | none => s
  | some r =>
    let x := reqRange r
    let s1 := forgetReq s tag
    match r.owner with
    | none => s1
    | some o =>
      match reachUnit s1 false 4 x.write r.unit with
      | .fault cause => if s.tiers.enable then openFault s (some (.peer tag)) r.unit cause x 10
          else endOwner s1 o { status := 0x20, a := r.unit }
      | .ends st => endOwner s1 o { status := st }
      | y =>
        wakeOwner (if x.write then homeWrite (some o) s1 (homeOf s1 r.unit) x.addr r.payload
          else askPart s1 o x r.unit y) o

/-- What a refused access served ends with TIER_FAULT (R285). -/
def expirePeer (s : State) (tag u : Nat) : State :=
  match findReq s tag with
  | none => s
  | some r => match r.owner with
    | some o => endOwner (forgetReq s tag) o { status := 0x20, a := u }
    | none => forgetReq s tag

end Sys2Proof.Machine
end

