-- ==== Sys2Proof/Machine/Faults.lean ====
section
/-!
DEFINITION. Tier faults that end: resolved, when their waiters retry, or timed out (R284 to R288).
-/

namespace Sys2Proof.Machine

def peerHome : Home → Bool
  | .neighbour _ => true
  | _ => false

/-- A unit still faults for an access, which `access` gives as R289 codes it; the unit of a swapped page does
until KV_SWAP_IN has brought its pages back, and that of an access which an exporting module has refused until
it is elsewhere (R265, R284, R454). -/
def stillFaults (s : State) (f : TierFault) (access : Nat) : Bool :=
  if f.cause == 3 && access / 2 == 2 &&
      s.kv.seqs.any (fun q => q.pages.any fun p => p.st == 3 && unitOf p.loc == f.unit) then true
  else if f.cause == 4 && peerHome (homeOf s f.unit) then true
  else match reachUnit s true (access / 2) (access % 2 == 1) f.unit with
  | .fault _ => true
  | _ => false

/-- One waiter retries its access (R284). -/
def retryWaiter (u : Nat) (s : State) (w : Waiter) : State :=
  match w.who with
  | .cmd id => updCmd s id fun c => if c.phase == .waiting (.tier u) then { c with phase := .ready } else c
  | .stream id => resumeStream s id
  | .read r => sendRead s r
  | .gather id => resumeGather s id
  | .op id => unpark s id
  | .peer tag => retryPeer s tag
  | .mail => mailWake s

/-- The waiters of a fault retry in the order in which they faulted (R284). -/
def resolveFault (s : State) (f : TierFault) : State :=
  f.waiters.foldl (retryWaiter f.unit)
    { s with tiers := { s.tiers with faults := s.tiers.faults.filter (·.unit != f.unit) } }

/-- The state of the unit no longer faults some access that waits (R284); a fault that nothing waits for
any more ends with the access that opened it. -/
def resolvable (s : State) (f : TierFault) : Bool :=
  if f.waiters.isEmpty then !stillFaults s f f.access
  else f.waiters.any fun w => !stillFaults s f w.access

def execTierFaultResolved (unit : Addr) (s : State) : Host.Outcome State Fault Refusal :=
  .next (match s.tiers.faults.find? (·.unit == unit.toNat) with
    | none => s
    | some f => if resolvable s f then postFaults (resolveFault s f) else s)

/-- One waiter ends with TIER_FAULT, which names the unit (R285, R323). -/
def expireWaiter (u : Nat) (s : State) (w : Waiter) : State :=
  let e : Err := { status := 0x20, a := u }
  match w.who with
  | .cmd id => match findCmd s id with
    | some c => if c.phase == .waiting (.tier u) then endCmd s c e else s
    | none => s
  | .stream id => match findStream s id with
    | some t => match findCmd s t.cmd with
      | some c => hodFail s c (some t.stage) e
      | none => s
    | none => s
  | .read r => match walkOf s r with
    | some w => failWalk s w e
    | none => s
  | .gather id => match s.slab.gathers.find? (·.id == id) with
    | some r => failQuery (dropGather s id) r.query e
    | none => s
  | .op id => match s.slab.parked.find? fun g => (g.2.head?.map (·.id)) == some id with
    | some g => g.2.foldl (fun s op => failOp s op e) { s with
        slab := { s.slab with parked := s.slab.parked.filter fun x => x != g } }
    | none => s
  | .peer tag => expirePeer s tag u
  | .mail => endOwner s .mail e

/-- The waiters of a fault end with TIER_FAULT (R285, R323). -/
def expireFault (s : State) (f : TierFault) : State :=
  dropOrphans (f.waiters.foldl (expireWaiter f.unit)
    { s with tiers := { s.tiers with faults := s.tiers.faults.filter (·.unit != f.unit) } })

def execTierFaultTimeout (unit : Addr) (s : State) : Host.Outcome State Fault Refusal :=
  .next (match s.tiers.faults.find? (·.unit == unit.toNat) with
    | none => s
    | some f =>
      if s.tiers.timeout != 0 && decide (f.opened + s.tiers.timeout * 1000 ≤ now s) then
        postFaults (expireFault s f)
      else s)

end Sys2Proof.Machine
end

