-- ==== Sys2Proof/Machine/Remote.lean ====
section
/-!
DEFINITION. The Mortar fabric above its links: peers lost and regained (R467, R468), the time root
(R461), link states (R449), and the requests of other modules (R452 to R454, R457).
-/

namespace Sys2Proof.Machine

/-! ### Peers lost and regained (R467, R468) -/

/-- A child of a fan-out has failed (R460, R467). -/
def childFail (s : State) (fan child status : Nat) : State :=
  fanCheck (updFan s fan fun f => { f with
    waitFor := f.waitFor.filter (· != child)
    failed := firstFailed f.failed (some (child, status, 0)) }) fan

/-- What a request served ends with a status. -/
def endReq (s : State) (r : MReq) (status : Nat) : State :=
  match r.owner with
  | some (.fan f) => childFail s f r.unit status
  | some o => endOwner s o { status := status }
  | none => s

/-- The source of a request of another module. -/
def requestHead : Instr → Option MortarHeader
  | .remoteRd h _ => some h
  | .remoteWr h _ => some h
  | .fanout h _ => some h
  | _ => none

def requestFrom (n : Nat) (i : Instr) : Bool :=
  ((requestHead i).map fun h => h.source.toNat == n).getD false

/-- A peer is lost (R467). -/
def peerLost (s : State) (n : Nat) : State :=
  let m := s.mortar
  let s1 := { s with
    mortar := { m with
      lost := if m.lost.contains n then m.lost else m.lost ++ [n]
      lostCount := sat 0xFFFF (m.lostCount + 1)
      lastLost := BitVec.ofNat 13 n
      reqs := m.reqs.filter (·.dest != n)
      backoffs := m.backoffs.filter (·.1 != n)
      inbound := m.inbound.filter fun i => !requestFrom n i
      pieces := m.pieces.filter (·.1 != n) } }
  (m.reqs.filter (·.dest == n)).foldl (fun s r => endReq s r 0x41) (interrupt s1 4036)

/-- The peers to which the last route has gone are lost. -/
def losePeers (old s : State) : State :=
  ((List.range (fabricSize s)).filter fun n =>
    n != fabNum s && reachable old n && !reachable s n && !s.mortar.lost.contains n).foldl peerLost s

/-- The lost peers that a route reaches again are regained, their PAIR_SEQ runs at 0 (R468). -/
def regainPeers (s : State) : State :=
  let m := s.mortar
  let back := m.lost.filter (reachable s)
  { s with
    mortar := { m with
      lost := m.lost.filter fun n => !back.contains n
      regained := sat 0xFFFF (m.regained + back.length)
      outSeq := m.outSeq.filter fun x => !back.contains x.1
      inSeq := m.inSeq.filter fun x => !back.contains x.1
      refused := m.refused.filter fun x => !back.contains x.1 } }

/-! ### The time root and parent (R461, R464) -/

/-- The reachable module with valid time and the lowest number: the others that are reachable are
taken to have valid time (DESIGN CHOICE, log 71). -/
def timeRoot (s : State) : Option Nat :=
  let top := fabricSize s
  (List.range top).find? fun n => if n == fabNum s then s.time.valid else reachable s n

def setTimeRoot (s : State) : State :=
  let r := timeRoot s
  let me := r == some (fabNum s)
  let parent := if me then none else r.bind (route s)
  { s with
    mortar := { s.mortar with
      isRoot := me
      root := BitVec.ofNat 13 (r.getD 0)
      parentPort := (parent.map (·.1)).getD 0
      slewing := if me then false else s.mortar.slewing
      offsetNs := if me then 0 else s.mortar.offsetNs }
    time := if me then { s.time with rate := 0 } else s.time }

/-! ### Control messages (R446, R447, R449) -/

/-- A control message sent on a port, with its alive counter (R447). -/
def controlSend (s : State) (p opcode : Nat) (payload : List Byte) : State :=
  { s with
    mortar := { s.mortar with
      ports := modAt s.mortar.ports p fun q =>
        { portSend q [.mortar false opcode q.peer.toNat (fabNum s) q.aliveOut 0 0 0 0 true payload] with
          aliveOut := (q.aliveOut + 1) % 256 } } }

/-- The ports in service but one. -/
def otherPorts (s : State) (p : Nat) : List Nat :=
  (List.range 8).filter fun q => q != p && portInService s q

/-- LINK_STATE flooded: module, port and new state (R449). -/
def flood (s : State) (skip number link : Nat) (up : Bool) : State :=
  (otherPorts s skip).foldl (fun s q => controlSend s q 0x22
    (leBytes 2 number ++ leBytes 1 link ++ leBytes 1 (b2n up))) s

/-- What follows a change of the link states. -/
def linksChanged (old s : State) : State := setTimeRoot (regainPeers (losePeers old s))

/-- A port leaves service in a state (R465, R467): its neighbour, and what it reached, is lost. -/
def portOut (s : State) (p st : Nat) : State :=
  let was := portInService s p
  let s1 := { s with
    mortar := { s.mortar with
      ports := modAt s.mortar.ports p fun q =>
        { q with link := { linkDown q.link with st := st }, hello := false, encrypted := false } } }
  linksChanged s (if was then flood s1 p (fabNum s) p false else s1)

/-! ### Requests of other modules (R452 to R454, R457) -/

/-- The export area: its first name and its bytes (R453, R473). -/
def exportBase (s : State) : Nat := bits s.mortar.exportReg.toNat 39 21 * unitBytes
def exportBytes (s : State) : Nat :=
  if bit s.mortar.exportReg.toNat 63 then bits s.mortar.exportReg.toNat 17 0 * unitBytes else 0

/-- How a remote access finds its bytes. -/
inductive RemoteReach where
  | ok | hold | error (status : Nat)
  deriving DecidableEq, Repr

/-- A remote access finds its bytes in units of the free-space partition at their default homes
(R299, R453); one whose course is off is held (R32). -/
def remoteReach (s : State) (off n : Nat) (write : Bool) : RemoteReach :=
  let a := exportBase s + off
  let u := unitOf a
  if 65536 < n || exportBytes s ≤ off || (n != 0 && unitOf (a + n - 1) != u) then .error 0x10
  else if regionOf s u != 1 || homeOf s u != ownHome u then .error 0x10
  else if courseOff s u then .hold
  else if poisonedIn s { addr := a, len := n, write := write } then .error 0x32
  else .ok

/-- The answer to a request. -/
def reply (s : State) (h : MortarHeader) (opcode : Nat) (payload : List Byte) : State :=
  mortarSend s opcode h.source.toNat h.tag.toNat 0 0 payload

/-- A FANOUT taken up by this module as the member that its number names (R457, R460). -/
def serveFan (s : State) (h : MortarHeader) (payload : List Byte) : State :=
  let f := fanOf payload
  if byteAt f.entry 5 != 1 then reply s h 0x11 [0x11]
  else if !s.time.valid then reply s h 0x11 [0x10]
  else memberStart s { f with
    index := some (f.members.findIdx fun m => m.1 == fabNum s)
    parent := some (h.source.toNat, h.tag.toNat) }

/-- A request executed, or none where it must wait. -/
def remoteServe (s : State) (i : Instr) : Option State :=
  match i with
  | .remoteRd h length =>
    match remoteReach s h.address.toNat length.toNat false with
    | .hold => none
    | .error st => some (reply s h 0x11 [BitVec.ofNat 8 st])
    | .ok => some (reply s h 0x10 (readBytes s.mem (exportBase s + h.address.toNat) length.toNat))
  | .remoteWr h bytes =>
    match remoteReach s h.address.toNat bytes.length true with
    | .hold => none
    | .error st => some (reply s h 0x11 [BitVec.ofNat 8 st])
    | .ok => some (reply (deviceWrite s none (exportBase s + h.address.toNat) bytes) h 0x11 [0])
  | .fanout h payload => if notServing s then none else some (serveFan s h payload)
  | _ => some s

/-- A request whose turn it is in its pair. -/
def inTurn (s : State) (i : Instr) : Bool :=
  ((requestHead i).map fun h =>
    nextSeq s.mortar.inSeq h.source.toNat == h.pairSeq.toNat).getD false

/-- The first request of the inbound store that can be executed, and what it leaves. -/
def nextInbound (s : State) : Option State :=
  s.mortar.inbound.findSome? fun i =>
    if inTurn s i then
      (remoteServe s i).map fun t => { t with
        mortar := { t.mortar with
          inbound := t.mortar.inbound.erase i
          inSeq := match requestHead i with
            | some h => bumpSeq t.mortar.inSeq h.source.toNat
            | none => t.mortar.inSeq } }
    else none

def serveInboundN : Nat → State → State
  | 0, s => s
  | n + 1, s =>
    match nextInbound s with
    | none => s
    | some t => serveInboundN n t

/-- The requests that can be executed are (R452). -/
def serveInbound (s : State) : State := serveInboundN s.mortar.inbound.length s

/-- A request refused with BACKOFF; its PAIR_SEQ is remembered until it comes again (R452). -/
def refuse (s : State) (h : MortarHeader) : State :=
  let src := h.source.toNat
  let s1 := reply s h 0x13 []
  { s1 with
    mortar := { s1.mortar with
      refused := if s.mortar.refused.any (·.1 == src) then s.mortar.refused
        else (src, h.pairSeq.toNat) :: s.mortar.refused } }

/-- A request arrives: refused, passed over as one executed before, or taken into the store. -/
def takeRequest (s : State) (i : Instr) (h : MortarHeader) : State :=
  let src := h.source.toNat
  let again := (s.mortar.refused.find? (·.1 == src)).elim false fun x => x.2 != h.pairSeq.toNat
  let ahead := (h.pairSeq.toNat + 2 ^ 32 - nextSeq s.mortar.inSeq src) % 2 ^ 32
  if again || 4096 ≤ s.mortar.inbound.length then refuse s h
  else if 2 ^ 31 ≤ ahead then s
  else serveInbound { s with
    mortar := { s.mortar with
      refused := s.mortar.refused.filter (·.1 != src)
      inbound := s.mortar.inbound ++ [i] } }

/-! ### Messages of a port -/

/-- A message for this module over a port in service; on an encrypted port the first message must be
KEY_ROLL (R465, R527). -/
def mortarIn (s : State) (h : MortarHeader) (act : State → State) : State :=
  let p := portAt s h.port.toNat
  if !portInService s h.port.toNat || h.dest.toNat != fabNum s then s
  else if p.encrypted && p.keyIn.isNone then portOut s h.port.toNat 7
  else act { s with
    mortar := { s.mortar with
      ports := modAt s.mortar.ports h.port.toNat fun q => { q with link := linkWake q.link } } }

def execRemoteRd (h : MortarHeader) (length : BitVec 32) (s : State) :
    Host.Outcome State Fault Refusal :=
  .next (mortarIn s h fun s => takeRequest s (.remoteRd h length) h)

def execRemoteWr (h : MortarHeader) (bytes : List Byte) (s : State) :
    Host.Outcome State Fault Refusal :=
  .next (mortarIn s h fun s => takeRequest s (.remoteWr h bytes) h)

/-- The pieces of a payload that came before, under its source and tag (R446). -/
def piecesOf (s : State) (h : MortarHeader) : List Byte :=
  ((s.mortar.pieces.find? fun x => x.1 == h.source.toNat && x.2.1 == h.tag.toNat).map (·.2.2)).getD []

/-- A piece kept, or with the last one the payload whole. -/
def withPieces (s : State) (h : MortarHeader) (payload : List Byte)
    (act : State → List Byte → State) : State :=
  let rest := s.mortar.pieces.filter fun x => !(x.1 == h.source.toNat && x.2.1 == h.tag.toNat)
  let all := piecesOf s h ++ payload
  if h.last then act { s with mortar := { s.mortar with pieces := rest } } all
  else { s with
    mortar := { s.mortar with pieces := (h.source.toNat, h.tag.toNat, all) :: rest } }

/-- A fan-out needs the module in Serving, as its command does (R375, R457). -/
def execFanout (h : MortarHeader) (payload : List Byte) (s : State) :
    Host.Outcome State Fault Refusal :=
  .next (mortarIn s h fun s => withPieces s h payload fun s all =>
    takeRequest { s with power := { s.power with wake := s.power.wake || awayFromServing s } }
      (.fanout h all) h)

/-! ### Responses (R452, R454, R459) -/

/-- The request that a response answers. -/
def reqOf (s : State) (h : MortarHeader) : Option MReq :=
  s.mortar.reqs.find? fun r => r.tag == h.tag.toNat && r.dest == h.source.toNat

/-- What a request served goes on. -/
def wakeReq (s : State) (r : MReq) : State :=
  match r.owner with
  | some o => wakeOwner (forgetReq s r.tag) o
  | none => forgetReq s r.tag

/-- REMOTE_DATA: the bytes read, under their name. -/
def takeRemote (s : State) (r : MReq) (bytes : List Byte) : State :=
  if r.kind != 1 || r.held then s
  else wakeReq { s with mem := writeBytes s.mem (r.unit + r.addr % unitBytes) bytes } r

/-- REMOTE_CMP: a write that has taken effect, or an access or a fan-out that has not (R454, R460). -/
def takeStatus (s : State) (r : MReq) (status : Nat) : State :=
  if r.held then s
  else if r.kind == 3 then endReq (forgetReq s r.tag) r status
  else if status == 0 then wakeReq s r
  else if status == 0x10 then unbacked s r
  else endReq (forgetReq s r.tag) r status

/-- BACKOFF names the first refused request of its pair (R452). -/
def execBackoff (h : MortarHeader) (s : State) : Host.Outcome State Fault Refusal :=
  .next (mortarIn s h fun s =>
    match reqOf s h with
    | none => s
    | some r =>
      if s.mortar.backoffs.any (·.1 == r.dest) then s
      else { s with
        mortar := { s.mortar with backoffs := s.mortar.backoffs ++ [(r.dest, r.pairSeq)] } })

/-- A request sent again as it was. -/
def resend (s : State) (r : MReq) : State :=
  let s1 := mortarSend s r.kind r.dest r.tag r.pairSeq r.addr r.payload
  { s1 with
    mortar := { s1.mortar with
      reqs := mapIf (·.tag == r.tag) (fun x => { x with sent := now s }) s1.mortar.reqs } }

def execBackoffResend (dest : BitVec 13) (s : State) : Host.Outcome State Fault Refusal :=
  .next (match s.mortar.backoffs.find? (·.1 == dest.toNat) with
    | none => s
    | some (n, seq) =>
      ((s.mortar.reqs.filter fun r => r.dest == n && !r.held).dropWhile (·.pairSeq != seq)).foldl resend { s with
        mortar := { s.mortar with backoffs := s.mortar.backoffs.filter (·.1 != n) } })

/-- A child's list, with the hop records of its subtree (R457, R459); the nodes and the estimate of
a member do not travel, so they are free. -/
def takePartial (s : State) (r : MReq) (fan : Nat) (bs : List Byte) : State :=
  let n := 112 + 16 * getLE bs 6 2
  let s1 := { s with drawn := s.drawn + 2 }
  fanCheck (updFan s1 fan fun f => { f with
    waitFor := f.waitFor.filter (· != r.unit)
    got := f.got ++ [listOf (bs.take n)]
    hopRecs := f.hopRecs ++ hopsOf (bs.drop n)
    nodes := sat 0xFFFFFFFF (f.nodes + Config.freeChoice s.drawn)
    est := min f.est (Config.freeChoice (s.drawn + 1) % 2 ^ 32) }) fan

def execPartialList (h : MortarHeader) (payload : List Byte) (s : State) :
    Host.Outcome State Fault Refusal :=
  .next (mortarIn s h fun s =>
    match reqOf s h with
    | none => s
    | some r =>
      match r.owner with
      | some (.fan f) => withPieces s h payload fun s all => takePartial (forgetReq s r.tag) r f all
      | _ => s)

def execMortarRequestTimeout (tag : BitVec 32) (s : State) : Host.Outcome State Fault Refusal :=
  .next (match s.mortar.reqs.find? (·.tag == tag.toNat) with
    | none => s
    | some r =>
      if s.mortar.timeout != 0 && !r.held && decide (r.sent + s.mortar.timeout * 1000 ≤ now s) then
        peerLost s r.dest
      else s)

end Sys2Proof.Machine
end

