-- ==== Sys2Proof/Machine/Power.lean ====
section
/-!
DEFINITION. Power states, the hold-up bank, the thermal sensors, the clock and the errors that the
module meets in its own parts (R30, R536 to R560, R577, R586).
-/

namespace Sys2Proof.Machine

/-! ### Reaching and leaving a state (R374, R431, R538 to R541) -/

/-- The links of a power state: LOW_POWER in Banked, DOWN in Parked (R431, R538). -/
def linksIn (st : Nat) (u : Uzone) : Uzone :=
  { u with link := if st == 2 then linkSleep u.link else if st == 3 then linkDown u.link else u.link }

def portsIn (st : Nat) (ps : List Port) : List Port :=
  ps.map fun p =>
    if st == 2 then { p with link := linkSleep p.link }
    else if st == 3 then { p with link := linkDown p.link, hello := false }
    else p

/-- The state that is being entered is reached: its command completes, and the domains it does not
power go down (R374, R538). A command dispatched since then calls the module back (R375). -/
def reachState (s : State) (st : Nat) : State :=
  let s1 := match s.power.request.bind (findCmd s) with
    | some c => succeed s c 0 0 0 0 0
    | none => s
  let s2 := { s1 with
    power := { s1.power with
      st := st
      entering := none
      request := none
      waitFor := []
      domains := domainsIn s1 st
      wake := s1.power.wake || s1.sched.cmds.any (fun c => c.phase != .fetched && c.phase != .held) }
    uzone := linksIn st s1.uzone
    mortar := { s1.mortar with ports := portsIn st s1.mortar.ports } }
  if st == 3 then linksChanged s1 s2 else s2

/-- Entry to a state begins: Banked and Parked first write protected staging (R539). -/
def beginState (s : State) (st : Nat) (automatic : Bool) : State :=
  { s with
    power := { (if 2 ≤ st then flushStaging s.power else s.power) with
      entering := some st
      automatic := automatic } }

/-- The links as the module leaves a state. -/
def wakeUzone (st : Nat) (u : Uzone) : Uzone :=
  if st == 3 then trainUzone u else pumpUzone { u with link := linkWake u.link }

def wakePorts (s : State) (ps : List Port) : List Port :=
  ps.zipIdx.map fun x =>
    if s.power.st == 3 then
      (if bit (portEnable s) x.2 then trainPort (heldKey s) x.1 else x.1)
    else { x.1 with link := linkWake x.1.link }

/-- The whole module goes back to Serving, its domains on at once when `ready` and else as they report
(R30, R540); deferred publications are carried out first (R398). Parked loses the rescale memory
(R213). -/
def leaveState (s : State) (ready : Bool) : State :=
  let s1 := if 2 ≤ s.power.st then wakeFans (publishAll true s.epochs.closing.length s) else s
  { s1 with
    power := { s1.power with
      st := 0
      target := if s.power.st == 3 then 0 else s1.power.target
      automatic := false
      wake := false
      wakeReg := false
      domains := if ready then domainsIn s 0 else s1.power.domains }
    slab := { s1.slab with rescale := if s.power.st == 3 then [] else s1.slab.rescale }
    uzone := wakeUzone s.power.st s1.uzone
    mortar := { s1.mortar with ports := wakePorts s s1.mortar.ports } }

/-- What a domain that comes up lets go on: work that waited for one (R30, R32). -/
def wakeDomain (s : State) : State :=
  let s1 := { s with
    sched := { s.sched with
      cmds := mapIf (fun c : Cmd => c.phase == Phase.waiting .domain) (fun c => { c with phase := .ready }) s.sched.cmds }
    hod := { s.hod with
      streams := mapIf (fun t : Stream => t.waits == some Wait.domain) (fun t => { t with waits := none }) s.hod.streams } }
  let ids := (s1.slab.gathers.filter fun r => r.waits == some Wait.domain).map (·.id)
  let s2 := ids.foldl resumeGather s1
  drainOut (if s2.quoin.mbWait == some .domain then mailWake s2 else s2)

/-- The whole module is in Serving at once, and serves what it has held. -/
def backToServing (s : State) : State := serveInbound (serveDevs (wakeDomain (leaveState s true)))

/-- An event that writes protected staging takes effect in Serving (R540). -/
def toServing (s : State) : State :=
  match s.power.entering with
  | some st => backToServing (reachState s st)
  | none => if s.power.st == 0 then s else backToServing s

/-- The earlier commands that a POWER_STATE request waits for have completed (R374). -/
def entryFree (s : State) : Bool :=
  s.power.request.isSome && !(s.sched.cmds.any fun c => s.power.waitFor.contains c.id)

/-- Entry begins, and at its second step the state is reached. -/
def execPowerStateEntry (s : State) : Host.Outcome State Fault Refusal :=
  .next (match s.power.entering with
    | some st => reachState s st
    | none => if entryFree s && s.power.st == 0 then beginState s s.power.target false else s)

def execPowerStateExit (s : State) : Host.Outcome State Fault Refusal :=
  .next (if s.power.entering.isNone && s.power.st != 0 && s.power.wake then leaveState s false
    else s)

/-- A domain that the present state powers reports ready; ports of MF start to train, and requests
held for a course are served (R30, R32, R471). -/
def domainUp (s : State) (d : Nat) : State :=
  let fresh := d == 21 && !s.power.domains.getLsbD 21
  serveInbound (wakeDomain { s with
    power := { s.power with domains := s.power.domains ||| BitVec.ofNat 24 (2 ^ d) }
    mortar := { s.mortar with
      ports := if fresh then s.mortar.ports.zipIdx.map fun x =>
          if bit (portEnable s) x.2 && x.1.link.st == 0 then trainPort (heldKey s) x.1
          else x.1
        else s.mortar.ports } })

/-- A domain reports ready: one that the present state powers. -/
def domainReady (s : State) (d : Nat) : State :=
  if d < 24 && (domainsIn s s.power.st).getLsbD d then domainUp s d else s

/-- No command is in flight and no submission entry waits (R541). -/
def noCommands (s : State) : Bool :=
  s.sched.cmds.isEmpty && s.sched.sqs.all fun q => q.head == q.tail

/-- The module is idle (R542): a stream, a REPAIR or a COMPACT is a command in flight. -/
def isIdle (s : State) : Bool :=
  s.quoin.stage == 7 && noCommands s && s.quoin.mbState != 1 && s.epochs.closing.isEmpty &&
  s.power.entering.isNone

/-- A state entered at once. -/
def enterNow (s : State) (st : Nat) (automatic : Bool) : State :=
  reachState (beginState s st automatic) st

def execDrowseIdleTimer (s : State) : Host.Outcome State Fault Refusal :=
  .next (if isIdle s && bond s 32 4 != 0 && s.power.target == 0 && s.power.st == 0 then
    enterNow s 1 true else s)

def execBankedIdleTimer (s : State) : Host.Outcome State Fault Refusal :=
  .next (if isIdle s && bond s 36 4 != 0 && s.power.target == 0 &&
      (s.power.st == 0 || (s.power.st == 1 && s.power.automatic)) then
    enterNow s 2 true else s)

def execTargetStateReturn (s : State) : Host.Outcome State Fault Refusal :=
  .next (if s.quoin.stage == 7 && noCommands s && s.power.entering.isNone && s.power.st == 0 &&
      (s.power.target == 1 || s.power.target == 2) then
    enterNow s s.power.target false else s)

def execWakePin (s : State) : Host.Outcome State Fault Refusal :=
  .next (if s.power.st == 3 && s.power.entering.isNone then leaveState s false else s)

/-- A write of WAKE (R562): it ends Parked, and reads 1 until the module reaches Serving. -/
def writeWake (s : State) : State :=
  if s.power.st == 3 && s.power.entering.isNone then leaveState s false
  else { s with power := { s.power with wakeReg := s.power.wakeReg || awayFromServing s } }

def execPowerControlWake (s : State) : Host.Outcome State Fault Refusal := .next (writeWake s)

/-! ### Power cap (R543, R563) -/

def execPowerCapThrottle (inputMw mainMv auxMv : Nat) (mainOver : Bool) (capDuty : Nat)
    (s : State) : Host.Outcome State Fault Refusal :=
  .next { s with
    power := { s.power with
      inputMw := sat 0xFFFFF inputMw
      mainMv := sat 0xFFFF mainMv
      auxMv := sat 0xFFFF auxMv
      mainOver := mainOver
      capDuty := min 12 capDuty
      capUnmet := decide (12 < capDuty) } }

/-! ### The hold-up bank (R547 to R549) -/

/-- The floor of R548. -/
def belowFloor (health stored : Nat) : Bool := decide (health < 30000) || decide (stored < 15000)

/-- A test is due: the one of each cold boot, after the post, or that of 24 h (R549). -/
def testDue (s : State) : Bool :=
  (s.holdup.bootTest && s.quoin.stage == 7) || decide (s.holdup.testTime + 86400000000000 ≤ now s)

def execHoldupTestTimer (s : State) : Host.Outcome State Fault Refusal :=
  .next (if s.quoin.stage != 7 && s.quoin.stage != 8 then s
    else if s.holdup.testing then s
    else if testDue s then { s with holdup := { s.holdup with testing := true, bootTest := false } }
    else s)

def execHoldupFloorCrossing (storedMj : Nat) (s : State) : Host.Outcome State Fault Refusal :=
  .next { s with
    holdup := { s.holdup with
      stored := sat 0xFFFFF storedMj
      below := belowFloor s.holdup.health storedMj } }

/-! ### Thermal (R586, R588, R589, R572) -/

/-- One sensor's duty (R586). -/
def dutyStep (t ts : Int) (d : Nat) : Nat :=
  let target := (max 0 (min 12 (t - ts + 1))).toNat
  if d < target then target else if target + 2 ≤ d then d - 1 else d

/-- THERM_CRIT# (R586). -/
def critStep (r : ThermalReading) (crit : Bool) : Bool :=
  let at' := decide (110 ≤ r.kiln) || decide (100 ≤ r.stack) || decide (85 ≤ r.nand) ||
    decide (70 ≤ r.bank)
  let clear := decide (r.kiln ≤ 108) && decide (r.stack ≤ 98) && decide (r.nand ≤ 83) &&
    decide (r.bank ≤ 68)
  at' || (crit && !clear)

def thermalStep (r : ThermalReading) (t : Thermal) : Thermal :=
  { t with
    kiln := r.kiln, stack := r.stack, nand := r.nand, bank := r.bank
    coolantIn := r.coolantIn, coolantOut := r.coolantOut
    hottestStack := r.hottestStack, hottestPackage := r.hottestPackage
    crit := critStep r t.crit
    chargePaused := decide (60 ≤ r.bank) || (t.chargePaused && decide (55 < r.bank))
    inletHigh := decide (40 < r.coolantIn)
    dutyKiln := dutyStep r.kiln 95 t.dutyKiln
    dutyStack := dutyStep r.stack 85 t.dutyStack
    dutyNand := dutyStep r.nand 70 t.dutyNand }

def execThermalSample (reading : ThermalReading) (s : State) : Host.Outcome State Fault Refusal :=
  let t := thermalStep reading s.thermal
  .next { s with
    thermal := t
    pins := { s.pins with
      thermCrit := t.crit
      smbAlert := s.pins.smbAlert || (t.crit && !s.thermal.crit) } }

/-- The greatest thermal duty (R586, R589). -/
def thermalDuty (t : Thermal) : Nat := max t.dutyKiln (max t.dutyStack t.dutyNand)

/-! ### Reference clock (R577, R590) -/

def execRefclkLost (s : State) : Host.Outcome State Fault Refusal :=
  .next { s with
    clock := { s.clock with
      refLost := true
      refLostSeen := true
      lossCount := if s.clock.refLost then s.clock.lossCount else sat 0xFFFF (s.clock.lossCount + 1) } }

def execRefclkRestored (s : State) : Host.Outcome State Fault Refusal :=
  .next { s with clock := { s.clock with refLost := false } }

/-! ### Memory errors (R553, R556), rails and entropy (R504, R559) -/

/-- The unit whose home is a stack frame. -/
def unitAtFrame (s : State) (f : Nat) : Option Nat :=
  match s.tiers.entries.find? (fun e => e.home == .stack f) with
  | some e => some e.unit
  | none => if homeOf s f == .stack f then some f else none

/-- A fatal error (R560): record, commands ended, staging flushed, and MANAGEMENT_ONLY. Of the domains
that step 3 of R550 takes down, UZ comes back as Uzone trains (R496). -/
def fatalError (s : State) (source unit location status : Nat) : State :=
  let s1 := dropCommands (hwError s 2 source unit location status 6)
  linksChanged s1 { s1 with
    power := { flushStaging s1.power with domains := s1.power.domains &&& 0x9FFFF0 }
    uzone := trainUzone s1.uzone
    mortar := { s1.mortar with ports := portsIn 3 s1.mortar.ports }
    pins := { s1.pins with modReady := false }
    quoin := { s1.quoin with
      stage := 8, failStep := 0, failStatus := if status == 0 then 0x30 else status } }

/-- A line of a stack that cannot be corrected (R553): fatal in a pinned unit, in protected staging or
in the translator's area; else the line of the name that lies there is poisoned. -/
def poisonLine (s : State) (stack offset : Nat) : State :=
  let a := stack * stackBytes + offset / 64 * 64
  match unitAtFrame s (unitOf a) with
  | none => hwError s 1 0x01 stack a 0x32 0
  | some u =>
    let name := u + a % unitBytes
    if pinned s u then fatalError s 0x01 stack name 0
    else
      let s1 := hwError s 1 0x01 stack name 0x32 0
      { s1 with hw := { s1.hw with poisoned := name :: s1.hw.poisoned.filter (· != name) } }

def scrubFinding (stack : Nat) (s : State) (f : ScrubFinding) : State :=
  if f.corrected then hwError s 0 0x01 stack (stack * stackBytes + f.offset / 64 * 64) 0 0
  else poisonLine s stack (f.offset % stackBytes)

def execMemoryScrub (stack : BitVec 3) (findings : List ScrubFinding) (s : State) :
    Host.Outcome State Fault Refusal :=
  .next (findings.foldl (scrubFinding stack.toNat) s)

def execRailFault (rail : BitVec 8) (millivolts : Nat) (s : State) :
    Host.Outcome State Fault Refusal :=
  .next (hwError s 1 0x42 rail.toNat millivolts 0 0)

def execEntropyHealthFail (s : State) : Host.Outcome State Fault Refusal :=
  .next { s with lintel := { s.lintel with entropyFault := true } }

def execEntropyHealthPass (s : State) : Host.Outcome State Fault Refusal :=
  .next { s with lintel := { s.lintel with entropyFault := false } }

end Sys2Proof.Machine
end

