-- ==== Sys2Proof/Machine/Mail.lean ====
section
/-!
DEFINITION. The requests of the management mailbox: how they start, and what they share (R483 to R486,
R488, R540).
-/

namespace Sys2Proof.Machine

/-- The origin of audit records of the running request (R530). -/
def mailOrigin (s : State) : Nat := if s.quoin.mbSmbus then 1 else 2

/-- An audit record of the running request, its digest over the request and a staged object. -/
def mailAudit (s : State) (event : Nat) (detail : List Nat) (obj : List Byte) : State :=
  audit s (mailOrigin s) event detail (rOpcode s.quoin.mbRequest) (s.quoin.mbRequest ++ obj)

/-- The request fails; a refusal with AUTH_FAIL is recorded (R529). -/
def mailFail (s : State) (status : Nat) : State :=
  mailEnd (if status == 0x50 then mailAudit s 0x34 [rOpcode s.quoin.mbRequest] [] else s) status

/-- A change of the running request made with its audit record, as one step (R529, R532). -/
def mailAudited (s : State) (event : Nat) (detail : List Nat) (obj : List Byte)
    (act : State → State) : State :=
  if auditOk s then act (mailAudit s event detail obj) else mailEnd (auditFail s) 0x30

/-- Quoin serves the mailbox: it runs from boot step 3 on (R492, R496), until a boundary-scan
instruction has stopped the module (R584). -/
def mailUp (s : State) : Bool := decide (3 ≤ s.quoin.stage) && !s.pins.scanned

/-- A request starts to run; it first returns the module to Serving (R540). -/
def mailStart (s : State) (smbus : Bool) (req : List Byte) : State :=
  let s1 := if s.quoin.stage == 7 then toServing s else s
  { s1 with
    quoin := { s1.quoin with
      goPending := false, mbState := 1, mbOpcode := rOpcode req, mbStatus := 0, mbProgress := 0
      mbSmbus := smbus, mbRequest := req } }

/-- The request block in MAILBOX_BUFFER. -/
def bufferRequest (s : State) : List Byte :=
  mailBytes s 0 (max 32 (min 4096 (getLE (mailBytes s 0 4) 2 2)))

/-- A request over SMBus whose opcode is `op`, or that no opcode's row takes when `any`. -/
def smbusMatches (op : Nat) (any : Bool) (req : List Byte) : Bool :=
  rOpcode req == op || (any && !mailOps.contains (rOpcode req))

/-- The step of a mailbox row: the request that GO has started, or one that may go on, or one over SMBus,
which while another runs is answered BUSY (R485). -/
def mailRun (s : State) (r : MailReq) (op : Nat) (any : Bool) (act : State → List Byte → State) :
    State :=
  if !mailUp s then s
  else
    match r with
    | .uzone =>
      let req := s.quoin.mbRequest
      if s.quoin.goPending && rOpcode req == op then act (mailStart s s.quoin.mbSmbus req) req else s
    | .smbus req =>
      if !smbusMatches op any req then s
      else if s.quoin.mbState == 1 then
        respond s true (response req 0x51 (rArg req 0) (rArg req 1) (rArg req 2) [])
      else
        match mailErr req with
        | some st => mailEnd (mailStart s true req) st
        | none => act (mailStart s true req) req

/-- GO (R485, R498). -/
def writeGo (s : State) : State :=
  if s.quoin.mbState == 1 then { s with quoin := { s.quoin with busyRefused := true } }
  else
    let req := bufferRequest s
    match mailErr req with
    | some st => mailEnd (mailStart s false req) st
    | none => { s with
        quoin := { s.quoin with
          goPending := true, mbState := 1, mbOpcode := rOpcode req, mbStatus := 0, mbProgress := 0
          mbSmbus := false, mbRequest := req } }

/-! ### Staging (R484, R488, R508) -/

/-- The running request waits, having asked for the data. -/
def mailHold (s : State) (u : Nat) (r : Range) (x : Reach) (w : Wait) : State :=
  askPart { s with
    quoin := { s.quoin with mbWait := some w, mbGot := s.quoin.mbGot ++ [partKey r u] } } .mail r u x

/-- What the running request does when a unit stands in the way of what it reads of device memory: it ends,
or it waits as a command does (R283, R288, R454). -/
def mailBlock (s : State) (u : Nat) (r : Range) (x : Reach) : State :=
  match x with
  | .fault cause =>
    if s.tiers.enable then
      openFault { s with quoin := { s.quoin with mbWait := some (.tier u) } } (some .mail) u cause r 13
    else mailEnd s 0x20
  | .ends st => mailEnd s st
  | .host => mailHold s u r x .host
  | .far l => mailHold s u r x (.far l)
  | .peer _ => mailHold s u r x (.peer s.mortar.nextTag)
  | _ => { s with quoin := { s.quoin with mbWait := some .domain } }

/-- FROM_DEVICE of a STAGE request (R483). -/
def fromDevice (req : List Byte) : Bool := bit (rFlags req) 0

/-- What a STAGE request into a buffer of `size` bytes is refused with (R484, R488). -/
def stageErr (req : List Byte) (size : Nat) : Option Nat :=
  let n := rArg req 1
  if rArg req 0 % 64 != 0 || n == 0 || size < rArg req 0 + n then some 0x10
  else if fromDevice req then
    if 65536 < n || !rangeNamed (rArg req 2) n then some 0x10 else none
  else if 4064 < n || (rPayload req).length != n then some 0x10
  else none

/-- The bytes that a STAGE request brings. -/
def stageData (s : State) (req : List Byte) : List Byte :=
  if fromDevice req then readBytes s.mem (rArg req 2) (rArg req 1) else rPayload req

/-- The device memory that a STAGE request reads. -/
def stageRanges (req : List Byte) : List Range :=
  if fromDevice req then [{ addr := rArg req 2, len := rArg req 1 }] else []

/-- A STAGE request: its bytes put into a buffer, once what it reads is here. -/
def stageRequest (s : State) (req : List Byte) (size : Nat) (old : List Host.Cell)
    (put : State → List Host.Cell → State) : State :=
  match stageErr req size with
  | some st => mailEnd s st
  | none =>
    match reachRanges s s.quoin.mbGot (stageRanges req) with
    | some (u, r, x) => mailBlock s u r x
    | none => mailEnd (put s (putBuffer old (rArg req 0) (stageData s req))) 0

end Sys2Proof.Machine
end

