-- ==== Sys2Proof/Machine/Sign.lean ====
section
/-!
DEFINITION. Signature blocks (R505 to R507), and the checks of a Bond image (R480) and of a firmware
package (R513).
-/

namespace Sys2Proof.Machine

/-- The bytes of a signature block (R505). -/
def sigBytes : Nat := 17072

/-- SIGNER of a block: its class and its anchor slot. -/
def sigClass (b : List Byte) : Nat := byteAt b 5 / 64
def sigSlot (b : List Byte) : Nat := byteAt b 5 % 4

/-- A named anchor that is written and not revoked (R506). -/
def anchorOf (s : State) (cls slot : Nat) : Option (List Byte) :=
  if cls == 0 then
    if s.lintel.vendorRevoked.getLsbD slot then none else some (Config.vendorAnchor slot)
  else if cls == 1 then
    if s.lintel.ownerRevoked.getLsbD slot then none else (s.lintel.ownerAnchors.getD slot none)
  else none

/-- Some owner anchor is written and not revoked (R507). -/
def ownerHeld (s : State) : Bool := (List.range 4).any fun i => (anchorOf s 1 i).isSome

/-- The checks of R506 from the third on: the signer, its anchor, and both signatures over the
purpose byte followed by the signed bytes. -/
def sigGood (s : State) (purpose : Nat) (allowed : Nat → Nat → Bool) (msg b : List Byte) : Bool :=
  let m := BitVec.ofNat 8 purpose :: msg
  let rsa := (b.drop 32).take 384
  let slh := (b.drop 800).take 48
  allowed (sigClass b) (sigSlot b) &&
  anchorOf s (sigClass b) (sigSlot b) == some (Config.sha384 (rsa ++ slh)) &&
  Config.rsaVerify rsa m ((b.drop 416).take 384) && Config.slhVerify slh m ((b.drop 848).take 16224)

/-- What R506 refuses a block with, its version first and its purpose next. -/
def sigErr (s : State) (purpose : Nat) (allowed : Nat → Nat → Bool) (msg b : List Byte) :
    Option Nat :=
  if !versionOk b sigBytes then some 0x11
  else if byteAt b 4 != purpose then some 0x10
  else if sigGood s purpose allowed msg b then none
  else some 0x50

def vendorOnly (cls _ : Nat) : Bool := cls == 0
def ownerOnly (cls _ : Nat) : Bool := cls == 1

/-- Who may sign a Bond image (R507). -/
def imageSigner (s : State) (cls _ : Nat) : Bool := cls == (if ownerHeld s then 1 else 0)

/-! ### Bond images (R477 to R480) -/

/-- A version range: its minimum does not exceed its maximum and it lies within 1.0 to 1.`top`. -/
def rangeOk (b : List Byte) (off top : Nat) : Bool :=
  let lo := getLE b off 2
  let hi := getLE b (off + 2) 2
  decide (256 ≤ lo) && decide (lo ≤ hi) && decide (hi ≤ 256 + top)

/-- A partition record (R479, R480). -/
def partOk (b : List Byte) (c : Nat) : Bool :=
  let i := getLE b (64 + 16 * c) 4
  let k := getLE b (68 + 16 * c) 4
  let g := getLE b (72 + 16 * c) 4
  decide (196 ≤ g) && decide (g ≤ 256) && decide (i + k + g ≤ 65520)

/-- Codes of the default geometry within the ranges of R38. -/
def geometryOk (b : List Byte) : Bool :=
  decide (byteAt b 20 ≤ 3) && decide (byteAt b 21 ≤ 1) && decide (8 ≤ byteAt b 22) &&
  decide (byteAt b 22 ≤ 64) && decide (byteAt b 23 ≤ 3) &&
  (decide (byteAt b 24 ≤ 2) || byteAt b 23 == 3) &&
  decide (32 ≤ getLE b 25 2) && decide (getLE b 25 2 ≤ 4096)

/-- Every field of the body lies within its range (R478, R479). -/
def bodyOk (b : List Byte) : Bool :=
  decide (1 ≤ byteAt b 0) && decide (byteAt b 0 ≤ 15) &&
  (List.range 4).all (fun c => byteAt b (2 + c) != 0) &&
  rangeOk b 6 2 && rangeOk b 10 1 && rangeOk b 14 0 && geometryOk b &&
  decide (200 ≤ getLE b 28 2) && decide (getLE b 28 2 ≤ 750) && (List.range 8).all (partOk b)

/-- The length that a signature block gives itself (R15, R505). -/
def sigSize (b : List Byte) : Nat := max sigBytes (getLE b 2 2)

/-- The header's fields, and the sum of its lengths, for an image of `n` bytes (R477, R480). The body
follows the header and the signature block the body; under a later minor version each may be longer (R15). -/
def headOk (img : List Byte) (n : Nat) : Bool :=
  getLE img 16 4 == 0x00070128 && getLE img 4 4 == n && decide (n ≤ 65536) &&
  getLE img 4 4 == getLE img 24 4 + getLE img 28 4 && getLE img 8 4 != 0 &&
  getLE img 20 2 == getLE img 2 2 && getLE img 24 4 == getLE img 20 2 + getLE img 22 2 &&
  (byteAt img 0 != 0 || (getLE img 20 2 == 64 && getLE img 22 2 == 512)) &&
  getLE img 28 4 == sigSize (img.drop (getLE img 24 4))

/-- What R480 refuses an image of `n` bytes with, under its first applicable line. -/
def imageErr (s : State) (img : List Byte) (n : Nat) : Option Nat :=
  if byteAt img 1 != 1 || decide (getLE img 2 2 < 64) || decide (getLE img 22 2 < 512) then some 0x11
  else
    match sigErr s 2 (imageSigner s) (img.take (getLE img 24 4)) (img.drop (getLE img 24 4)) with
    | some e => some e
    | none =>
      if getLE img 12 4 < s.lintel.bondCounter then some 0x50
      else if headOk img n && bodyOk (img.drop (getLE img 20 2)) then none
      else some 0x10

/-- The image of a slot verifies. -/
def slotGood (s : State) (img : List Byte) : Bool := imageErr s img img.length == none

/-! ### Firmware packages (R511, R513) -/

/-- What FIRMWARE_ACTIVATE and the ROM refuse a package of `n` bytes with. -/
def packageErr (s : State) (p : List Byte) (n : Nat) : Option Nat :=
  if byteAt p 1 != 1 || decide (getLE p 2 2 < 64) then some 0x11
  else
    match sigErr s 1 vendorOnly (p.take (getLE p 20 4)) (p.drop (getLE p 20 4)) with
    | some e => some e
    | none =>
      if getLE p 12 4 < s.lintel.fwCounter then some 0x50
      else if getLE p 16 4 == 0x00070128 && getLE p 4 4 == n &&
        getLE p 4 4 == getLE p 20 4 + getLE p 24 4 &&
        getLE p 24 4 == sigSize (p.drop (getLE p 20 4)) then none
      else some 0x10

def packageGood (s : State) (p : List Byte) : Bool := packageErr s p p.length == none

end Sys2Proof.Machine
end

