-- ==== Sys2Proof/Machine/Boot.lean ====
section
/-!
DEFINITION. What a reset and a power failure keep and lose (R267, R300, R494, R551), boot and the post
(R492, R495 to R497), and the rows that start or end power (R550, R572, R574).
-/

namespace Sys2Proof.Machine

/-! ### Recovery (R267, R300) -/

/-- A unit of a durable object of a collection (R171). -/
def inDurable (s : State) (u : Nat) : Bool :=
  s.index.colls.any fun k => k.areas.any fun a =>
    a.durable && decide (a.name < u + unitBytes) && decide (u < a.name + a.bytes)

/-- The stack-window units of the durable objects. -/
def durableUnits (s : State) : List Nat :=
  ((s.index.colls.flatMap fun k => (k.areas.filter (·.durable)).flatMap fun a =>
    unitsOf { addr := a.name, len := a.bytes }).filter fun u => windowOf u == some 0).foldl
    (fun l u => if l.contains u then l else u :: l) []

/-- A unit of the page table or of the summaries of a sequence. -/
def inTables (s : State) (u : Nat) : Bool :=
  s.kv.seqs.any fun q => q.units.any fun a =>
    decide (a.1 < u + unitBytes) && decide (u < a.1 + a.2)

/-- The home of a unit at recovery (R300). The tables of a sequence that is restored stand again where they
were allotted (R229, R267). -/
def recoverHome (s : State) (u : Nat) (h : Home) : Home :=
  if h == .tile || h == .bulk || h == .vacant then h
  else if inTables s u then ownHome u
  else if inDurable s u then .bulk
  else if windowOf u == some 0 then .vacant
  else ownHome u

/-- A unit of the companion, CXL or neighbour window that stood elsewhere: its name has whatever that
memory holds. -/
def strayUnits (s : State) : List Nat :=
  (s.tiers.entries.filter fun e =>
    (windowOf e.unit != some 0 && windowOf e.unit != some 3 && e.home != ownHome e.unit &&
      e.home != .tile && e.home != .bulk)).map (·.unit)

/-- The translator's entries at recovery; units of durable objects without an entry stood in their
stacks. -/
def recoverEntries (s : State) : List TierEntry :=
  let known := s.tiers.entries.map (·.unit)
  let old := s.tiers.entries.map fun e => { e with home := recoverHome s e.unit e.home, moving := false }
  let new := ((durableUnits s).filter fun u => !known.contains u && homeOf s u != .vacant).map
    fun u => ({ unit := u, home := .bulk } : TierEntry)
  (old ++ new).filter fun e => e.faultOn || e.home == .vacant || e.home != ownHome e.unit

/-- A name still has contents. -/
def hasHome (s : State) (a : Nat) : Bool := homeOf s (unitOf a) != .vacant

def fillHome (s : State) : Fill → Bool
  | .free u _ => hasHome s u
  | .zero u => hasHome s u
  | .idMap b n => (unitsOf { addr := b, len := n }).any (hasHome s)

/-- The page table and the summaries of a restored sequence written again. -/
def restoreTables (s : State) (q : KvSeq) : State :=
  let us := q.units.flatMap fun u => unitsOf { addr := u.1, len := u.2 }
  let s1 := { s with mem := us.foldl zeroUnit s.mem }
  q.pages.foldl (fun s p => writeSummary (writeEntry s none q p) none q p) s1

/-- What power loss or a reset leaves of memory and of the objects that stand in it. -/
def recover (s : State) : State :=
  let kv := restoreSeqs s.kv
  let live := kv.seqs.map (·.id)
  let stray := strayUnits s
  let s1 := { s with
    kv := { kv with merged := List.replicate 8 0 }
    tiers := { s.tiers with
      entries := recoverEntries { s with kv := kv }
      recovered := true }
    lintel := { s.lintel with
      coKeys := s.lintel.coKeys.filter fun k => !k.1 || live.contains k.2.1 } }
  let s2 := { s1 with
    mem := stray.zipIdx.foldl (fun m u => freeUnit m u.1 (s.drawn + u.2))
      { cells := s1.mem.cells.filter fun c => hasHome s1 c.1
        fills := s1.mem.fills.filter (fillHome s1) }
    drawn := s.drawn + stray.length }
  retire (kv.seqs.foldl restoreTables s2)

/-! ### Module reset (R492, R494) -/

def keptEpochs (e : Epochs) : Epochs :=
  { published := e.published, opened := e.opened, floor := e.floor, retain := e.retain
    manual := e.manual, pubs := e.pubs, closing := e.closing.map fun c => (c.1, c.2.1, none) }

def keptBrick (b : Brick) : Brick :=
  { deadDies := b.deadDies, refresh := b.refresh, retired := b.retired
    tileUsed := b.tileUsed, extents := b.extents }

def keptQuoin (q : Quoin) (cause : Nat) (goesOn : Bool) : Quoin :=
  let k : Quoin := { slots := q.slots, selector := q.selector, resetCause := cause }
  if goesOn then
    { k with
      mailbox := q.mailbox, mbState := q.mbState, mbOpcode := q.mbOpcode, mbProgress := q.mbProgress
      mbSmbus := q.mbSmbus, mbRequest := q.mbRequest }
  else k

def keptLintel (l : Lintel) : Lintel :=
  { l with
    entropyFault := false, withheld := false, debug := 0, debugExpiry := 0, challenge := none
    inBuf := [], outBuf := [], fwVersion := 0, fwRollback := 0 }

def keptPower (p : Power) : Power :=
  { aonOn := p.aonOn, mainOn := p.mainOn, flushSeq := p.flushSeq, flushArea := p.flushArea
    flushed := p.flushed }

def keptThermal (t : Thermal) : Thermal :=
  { kiln := t.kiln, stack := t.stack, nand := t.nand, bank := t.bank, coolantIn := t.coolantIn
    coolantOut := t.coolantOut, hottestStack := t.hottestStack
    hottestPackage := t.hottestPackage }

def keptPins (p : Pins) : Pins :=
  { smbAlert := p.smbAlert, ir := if 3 ≤ p.ir then 0 else p.ir, tdr := p.tdr
    boundary := p.boundary }

/-- The state that a reset leaves, before boot step 2: what R494 keeps, and every register at its
Reset column. The change table and the patch logs survive, and CHANGE_ENTRIES and ENTRIES show what they
hold, though R183 and R185 give both a reset value of 0 (DESIGN CHOICE, log 133). `goesOn` keeps the mailbox
request that asked for it, `session` the Uzone session. -/
def resetState (s : State) (cause : Nat) (goesOn session : Bool) : State :=
  let r := recover (dropCommands s)
  { r with
    sched := {}
    epochs := keptEpochs r.epochs
    index := { colls := r.index.colls, changes := r.index.changes, patches := r.index.patches }
    bricks := r.bricks.map keptBrick
    time := { r.time with source := false, rate := 0 }
    walks := []
    nextWalk := 0
    slab := {}
    tiers := { entries := r.tiers.entries, recovered := true }
    hod := {}
    plumb := {}
    uzone := { session := if session then r.uzone.session else 0 }
    mortar := {}
    quoin := keptQuoin r.quoin cause goesOn
    lintel := keptLintel r.lintel
    power := keptPower r.power
    holdup := { health := r.holdup.health, testTime := r.holdup.testTime, bootTest := r.holdup.bootTest }
    thermal := keptThermal r.thermal
    clock := { refLost := r.clock.refLost }
    hw := { log := r.hw.log, next := r.hw.next }
    pins := keptPins r.pins }

/-! ### Boot (R492, R495, R496) -/

/-- Boot stops in a stage, with its step and status. -/
def stopBoot (s : State) (stage step status : Nat) : State :=
  { s with quoin := { s.quoin with stage := stage, failStep := step, failStatus := status } }

/-- A request that reset the module ends (R486). -/
def endRequest (s : State) : State := if s.quoin.mbState == 1 then mailEnd s 0 else s

/-- MANAGEMENT_ONLY: Uzone trains, and Quoin serves (R496). -/
def managementOnly (s : State) (step status : Nat) : State :=
  let s1 := stopBoot s 8 step status
  endRequest { s1 with uzone := trainUzone s1.uzone }

/-- Step 2: the active firmware slot, else the other (R513). -/
def bootFirmware (s : State) (romOk : Bool) : Option State :=
  let sel := s.lintel.fwSelector
  let at' := fun (i : Nat) => s.lintel.fwSlots.getD i []
  let pick := if packageGood s (at' sel) then some sel
    else if packageGood s (at' (1 - sel)) then some (1 - sel) else none
  if romOk then
    pick.map fun i => { s with
      lintel := { s.lintel with
        fwSlot := i
        fwVersion := getLE (at' i) 8 4
        fwRollback := getLE (at' i) 12 4 } }
  else none

/-- Step 4: the active image slot, else the other (R482). -/
def bootImage (s : State) : State × Option Nat :=
  let sel := s.quoin.selector
  let at' := fun (i : Nat) => s.quoin.slots.getD i []
  if slotGood s (at' sel) then
    ({ s with quoin := { s.quoin with active := some (at' sel), slot := sel } }, none)
  else
    match imageErr s (at' (1 - sel)) (at' (1 - sel)).length with
    | none => ({ s with
        quoin := { s.quoin with active := some (at' (1 - sel)), slot := 1 - sel, fallback := true } }, none)
    | some e => (s, some e)

/-- A NAND die that fails training (R495, R555). -/
def dieFails (s : State) (x : Nat × Nat) : State :=
  let s1 := { s with
  bricks := modAt s.bricks x.1 fun b => { b with
    deadDies := if b.deadDies.contains x.2 then b.deadDies else b.deadDies ++ [x.2] } }
  hwError s1 1 0x12 x.1 (x.2 * 2 ^ 61) 0x32 3

/-- The module keys drawn where Lintel holds none (R504, R524); while the entropy source fails its
tests nothing is drawn, and a record says so. -/
def drawModuleKeys (s : State) : State :=
  let needS := s.lintel.stagingKey.isNone
  let needD := s.lintel.dataKey.isNone
  if !needS && !needD then s
  else if s.lintel.entropyFault then hwError s 1 0x50 0 0 0x30 0
  else { s with
    lintel := { s.lintel with
      stagingKey := if needS then some (Config.entropy s.lintel.draws 64) else s.lintel.stagingKey
      dataKey := if needD then some (Config.entropy (s.lintel.draws + 1) 64) else s.lintel.dataKey
      draws := s.lintel.draws + 2 } }

/-- The bytes that each expander maps, in link order, at most 4 TiB in all (R297). -/
def mapExpanders : Nat → List Nat → List Nat
  | _, [] => []
  | left, b :: bs => min left b :: mapExpanders (left - min left b) bs

/-- The links of a training mode: one x16, two x8 or four x4 (R297). -/
def xfLinks (mode : Nat) : Nat := if mode == 1 then 1 else if mode == 2 then 2 else if mode == 3 then 4 else 0

/-- Step 6: XF as its expanders train, and Uzone begins (R297, R410, R572). -/
def bootLinks (s : State) (mode : Nat) (bytes : List Nat) : State :=
  let caps := (List.range 4).map fun l => if l < xfLinks mode then bytes.getD l 0 else 0
  let s1 := { s with
    tiers := { s.tiers with
      xfMode := if caps.all (· == 0) then 0 else mode
      xfUp := caps.map fun b => decide (0 < b)
      xfBytes := mapExpanders (2 ^ 42) caps
      xfCap := caps }
    quoin := { s.quoin with stage := 6 }
    uzone := trainUzone s.uzone
    pins := { s.pins with xfPerst := false } }
  { s1 with power := { s1.power with domains := domainsIn s1 0 } }

/-- Step 5 and on: a stack that fails, a flush that is not complete, dies that fail, epochs closed
and not yet published (R138), the module keys, and the links. -/
def bootMedia (s : State) (f : BootFindings) : State :=
  if !f.stackFail.isEmpty then
    managementOnly (f.stackFail.foldl (fun s n => hwError s 1 0x02 n 0 0x32 0) s) 5 0x32
  else
    match f.flushMissing with
    | some b => managementOnly (hwError s 2 0x41 b s.power.flushSeq 0x30 6) 5 0x30
    | none =>
      let s1 := f.dieFail.foldl dieFails s
      bootLinks (drawModuleKeys (publishAll false s1.epochs.closing.length s1)) f.xfMode f.xfBytes

/-- Steps 1 to 6 over a state that a reset has left (R492, R495, R509, R574). -/
def boot (s : State) (f : BootFindings) : State :=
  if !f.mainOk then
    { s with
      power := { s.power with mainOn := false }
      quoin := { s.quoin with stage := 1 } }
  else
    let s0 := { s with power := { s.power with mainOn := true } }
    match bootFirmware s0 f.romOk with
    | none => stopBoot s0 2 2 0x50
    | some s1 =>
      if !f.identityOk then managementOnly s1 4 0x50
      else
        match bootImage s1 with
        | (s2, none) => bootMedia s2 f
        | (s2, some e) => managementOnly s2 4 e

/-- Protected staging written before the module goes down, which Banked and Parked have done
already (R539, R550). -/
def saveStaging (s : State) : State :=
  if 2 ≤ s.power.st then s else { s with power := flushStaging s.power }

/-- Debug closes with a reset (R516, R529). -/
def closeByReset (s : State) : State :=
  if s.lintel.debug != 0 && auditOk s then audit s 5 0x21 [3] 0 [] else s

/-- Findings of a reset with the rails held up: the same parts train again. -/
def sameParts (s : State) : BootFindings :=
  { romOk := true, identityOk := true, stackFail := [], dieFail := [], xfMode := s.tiers.xfMode
    xfBytes := s.tiers.xfCap, mainOk := true, flushMissing := none }

/-- A module reset (R492 to R494). -/
def moduleReset (s : State) (cause : Nat) (goesOn : Bool) : State :=
  boot (resetState (saveStaging (closeByReset s)) cause goesOn (cause != 5)) (sameParts s)

/-- Step 7: the post, once Uzone has become ACTIVE (R492, R497, R529, R572). BOOT_MS is the
environment's. -/
def postBoot (s : State) : State :=
  let s1 := { s with
    quoin := { s.quoin with stage := 7, bootMs := Config.freeChoice s.drawn % 2 ^ 32 }
    drawn := s.drawn + 1
    pins := { s.pins with modReady := true } }
  let rec' := [s.quoin.resetCause, (s.quoin.active.map fun i => getLE i 8 4).getD 0, s.lintel.fwVersion]
  let s2 := if auditOk s1 then audit s1 5 0x01 rec' 0 [] else auditFail s1
  endRequest s2

/-- Uzone has become ACTIVE. -/
def uzoneActive (s : State) : State :=
  let s1 := { s with uzone := pumpUzone s.uzone }
  let s2 := if s.quoin.stage == 6 then postBoot s1 else s1
  postFaults (flushAllHeld s2)

/-! ### The rows -/

/-- The sensors as they are first read (R588). -/
def measure (_ : Thermal) : Thermal :=
  let t := fun (i : Nat) => (Config.firstTemperature i).toInt
  { kiln := t 0, stack := t 1, nand := t 2, bank := t 3, coolantIn := t 4, coolantOut := t 5
    hottestStack := (Config.firstTemperature 6).setWidth 3
    hottestPackage := (Config.firstTemperature 7).setWidth 5 }

def execColdBoot (findings : BootFindings) (s : State) : Host.Outcome State Fault Refusal :=
  .next (if s.power.aonOn then s
    else
      boot { s with
        power := { s.power with aonOn := true }
        quoin := { s.quoin with resetCause := 0 }
        holdup := { s.holdup with bootTest := true }
        thermal := measure s.thermal } findings)

def execMainInputReturn (findings : BootFindings) (s : State) : Host.Outcome State Fault Refusal :=
  .next (if s.power.aonOn && !s.power.mainOn then
      boot { s with
        quoin := { s.quoin with resetCause := 0 }
        holdup := { s.holdup with bootTest := true }
        pins := keptPins s.pins } findings
    else s)

def execRstPin (s : State) : Host.Outcome State Fault Refusal :=
  .next (if s.power.aonOn && s.power.mainOn then moduleReset s 1 false else s)

/-- The sequence of R550 to its end, with the always-on domain left running: the flush, the losses
of R551, and the rails down. -/
def powerDown (s : State) : State :=
  let r := resetState (saveStaging (closeByReset s)) 0 false true
  { r with
    power := { r.power with mainOn := false, domains := 0 }
    quoin := { r.quoin with stage := 1 } }

def execPowerFailure (s : State) : Host.Outcome State Fault Refusal :=
  .next (if s.power.aonOn && s.power.mainOn then powerDown s else s)

/-- The always-on domain loses power too (R386, R564, R574). -/
def aonDown (s : State) : State :=
  { s with
    time := {}
    uzone := {}
    holdup := {}
    clock := {}
    thermal := {}
    pins := {}
    quoin := { s.quoin with stage := 0 }
    power := { s.power with aonOn := false } }

def execAuxInputLoss (s : State) : Host.Outcome State Fault Refusal :=
  .next (if s.power.aonOn then aonDown (if s.power.mainOn then powerDown s else s) else s)

end Sys2Proof.Machine
end

