-- ==== Sys2Proof/Machine/Mortar.lean ====
section
/-!
DEFINITION. The Mortar ports: enabling, training, flits and replay (R439 to R444, R471), control
messages (R447 to R449), time over the fabric (R461 to R464), link keys (R465, R466, R525 to R527)
and transit (R449, R450).
-/

namespace Sys2Proof.Machine

def updPort (s : State) (p : Nat) (f : Port → Port) : State :=
  { s with mortar := { s.mortar with ports := modAt s.mortar.ports p f } }

/-- Bit of ENCRYPT for a port (R471). -/
def encryptBit (s : State) (p : Nat) : Bool := bit s.mortar.control.toNat (8 + p)

/-! ### MORTAR_PORT_CONTROL (R471, R525, R537) -/

/-- A port as a write of PORT_ENABLE leaves it: training from its enabling while MF is on, DOWN once
its bit is cleared. -/
def enablePort (s : State) (v p : Nat) (q : Port) : Port :=
  if bit v p && !bit (portEnable s) p && s.power.domains.getLsbD 21 then
    trainPort (heldKey s) q
  else if !bit v p && bit (portEnable s) p then
    { q with link := linkDown q.link, hello := false, encrypted := false }
  else q

/-- The write: MF is off while no port is enabled. -/
def writePortControl (s : State) (v : Nat) : State :=
  linksChanged s { s with
    mortar := { s.mortar with
      control := BitVec.ofNat 32 (v % 65536)
      ports := s.mortar.ports.zipIdx.map fun x => enablePort s v x.2 x.1 }
    power := { s.power with
      domains := if v % 256 == 0 then s.power.domains &&& 0xDFFFFF else s.power.domains } }

/-! ### Training (R439, R443) -/

/-- A retrain of a port (R415, R443). -/
def retrainPort (s : State) (p : Nat) : State :=
  updPort s p fun q => { q with link := retrainLink q.link, aliveFails := 0 }

def execMortarTrainingTimeout (port : BitVec 3) (lanes : BitVec 8) (s : State) :
    Host.Outcome State Fault Refusal :=
  let p := port.toNat
  let l := (portAt s p).link
  .next (if l.st == 1 then
      let t := trainTimeout 8 lanes.toNat l
      let s1 := updPort s p fun q => { q with link := t }
      if t.degraded && !l.degraded then hwError s1 0 0x31 p lanes.toNat 0 5 else s1
    else if l.st == 3 then
      if l.retrainFails + 1 == 3 then hwError (portOut s p 0) 1 0x31 p lanes.toNat 0x41 0
      else updPort s p fun q => { q with
        link := { l with step := 3, retrainFails := l.retrainFails + 1 } }
    else s)

/-- Every 100 ms an enabled port that is DOWN tries full training, with MF on. -/
def execMortarDownRetry (port : BitVec 3) (s : State) : Host.Outcome State Fault Refusal :=
  let p := port.toNat
  .next (if (portAt s p).link.st == 0 && bit (portEnable s) p && s.power.domains.getLsbD 21 then
      updPort s p (trainPort (heldKey s))
    else s)

/-- A port goes DOWN and its neighbour is lost (R467). -/
def execMortarLinkDown (port : BitVec 3) (s : State) : Host.Outcome State Fault Refusal :=
  let p := port.toNat
  .next (if (portAt s p).link.st == 0 then s
    else hwError (portOut s p 0) 1 0x31 p 0 0x41 0)

/-! ### Link keys (R465, R466, R525 to R527) -/

/-- The info bytes of HKDF (R526): "KV7-MORTAR", sender, receiver, identifier and salt. -/
def keyInfo (sender receiver k : Nat) (salt : List Byte) : List Byte :=
  [0x4B, 0x56, 0x37, 0x2D, 0x4D, 0x4F, 0x52, 0x54, 0x41, 0x52] ++ leBytes 2 sender ++
  leBytes 2 receiver ++ leBytes 4 k ++ salt

/-- KEY_ROLL sent with a fresh salt, and the transmit key that it names (R526, R527). -/
def sendKeyRoll (s : State) (p k : Nat) : State :=
  let q := portAt s p
  let salt := Config.entropy s.lintel.draws 32
  let key := Config.hkdf (q.fabricKey.getD []) (keyInfo (fabNum s) q.peer.toNat k salt)
  let s1 := controlSend s p 0x23 (leBytes 4 k ++ zeros 4 ++ salt)
  { updPort s1 p (fun q => { q with keyOut := some (k, key), txFlits := 0 }) with
    lintel := { s1.lintel with draws := s1.lintel.draws + 1 } }

/-- The first key of a training, with its record (R527, R529); with nothing to draw a salt from, the
port gets no key (R504). -/
def firstKey (s : State) (p : Nat) : State :=
  if s.lintel.entropyFault then portOut (hwError s 1 0x50 0 0 0x30 0) p 7
  else if auditOk s then
    audit (sendKeyRoll s p 1) 3 0x52 [p, (portAt s p).peer.toNat] (portAt s p).peer.toNat []
  else portOut (auditFail s) p 7

/-- The next key, before the count of flits under the present one reaches 2^32 (R466). -/
def rollKey (s : State) (p : Nat) : State :=
  match (portAt s p).keyOut with
  | some (k, _) =>
    if 2 ^ 31 ≤ (portAt s p).txFlits && !s.lintel.entropyFault then sendKeyRoll s p (k + 1) else s
  | none => s

/-- A control message's alive check on its port (R331, R447): accepted, or counted, and after three
failures in succession the port retrains. -/
def checkAlive (s : State) (p : Nat) (v : Byte) (act : State → State) : State :=
  let q := portAt s p
  if q.aliveIn.isNone || q.aliveIn == some ((v.toNat + 255) % 256) then
    act (updPort s p fun q => { q with aliveIn := some v.toNat, aliveFails := 0 })
  else
    let s1 := { s with
      plumb := { s.plumb with mortarFails := sat 0xFFFF (s.plumb.mortarFails + 1) } }
    if 3 ≤ q.aliveFails + 1 then retrainPort s1 p
    else updPort s1 p fun q => { q with aliveFails := q.aliveFails + 1 }

/-- A control message over a port in service; before KEY_ROLL an encrypted port takes no other. -/
def controlIn (s : State) (port : BitVec 3) (alive : Byte) (act : State → State) : State :=
  let p := port.toNat
  if !portInService s p then s
  else if (portAt s p).encrypted && (portAt s p).keyIn.isNone then portOut s p 7
  else checkAlive s p alive act

/-- KEY_ROLL names the next identifier; a port that does not encrypt refuses (R465, R526, R527). -/
def execKeyRoll (port : BitVec 3) (alive : Byte) (keyId : BitVec 32) (salt : List Byte)
    (s : State) : Host.Outcome State Fault Refusal :=
  let p := port.toNat
  .next (if !portInService s p then s
    else if !(portAt s p).encrypted then portOut s p 7
    else checkAlive s p alive fun s =>
      let q := portAt s p
      if keyId.toNat != ((q.keyIn.map (·.1)).getD 0) + 1 then s
      else updPort s p fun q => { q with
        keyIn := some (keyId.toNat, Config.hkdf (q.fabricKey.getD [])
          (keyInfo q.peer.toNat (fabNum s) keyId.toNat salt))
        rxFlits := 0 })

/-! ### HELLO (R442, R448, R453) -/

/-- The Mortar range that the KV7 offers (R448). -/
def mortarOffer (s : State) : Nat × Nat :=
  if s.quoin.active.isSome then (bond s 10 2, bond s 12 2) else (256, 256)

/-- The state in which a port stays out of service, or its version (R442, R448, R465, R525). -/
def helloResult (s : State) (p : Nat) (b : List Byte) : Nat × Nat :=
  let lo := max (getLE b 6 2) (mortarOffer s).1
  let hi := min (getLE b 8 2) (mortarOffer s).2
  if farEnd s (fabNum s) p != some (getLE b 4 2 % 8192) then (6, 0)
  else if hi < lo then (5, 0)
  else if encryptBit s p && 257 ≤ hi && (portAt s p).fabricKey.isNone then (7, 0)
  else ((portAt s p).link.st, hi)

/-- What the KV7 puts into a control flit of a port, sealed on an encrypted one (R414, R466). -/
def portControl (q : Port) (bs : List Byte) : Port :=
  let bodies := portBodies (sealKey q) q.txFlits bs
  { q with link := bodies.foldl sendControl q.link, txFlits := q.txFlits + bodies.length }

/-- The 32-byte block of HELLO (R448): version 1.0, fabric number, the two ranges and the export size. -/
def helloBlock (s : State) : List Byte :=
  header 32 ++ leBytes 2 (fabNum s) ++ leBytes 2 (mortarOffer s).1 ++ leBytes 2 (mortarOffer s).2 ++
  bondBytes s 14 4 ++ zeros 2 ++ leBytes 8 (exportBytes s) ++ zeros 8

/-- The KV7's own HELLO leaves on a port (R439, R445, R447). -/
def sendHello (s : State) (q : Port) : Port :=
  { portControl { q with link := freshLink q.link }
      (mortarBytes (.mortar false 0x20 q.peer.toNat (fabNum s) q.aliveOut 0 0 0 0 true (helloBlock s))) with
    aliveOut := (q.aliveOut + 1) % 256 }

/-- Step 6 of a port's training: the initial credits leave (R439, R444). -/
def grantPort (q : Port) : Port :=
  if q.link.step == 6 then { q with link := returnCredits q.link } else q

/-- A port's training goes on with its peer known, and the KV7's own HELLO leaves. -/
def takeHello (s : State) (p : Nat) (b : List Byte) : State :=
  let r := helloResult s p b
  updPort s p fun q => grantPort <| sendHello s { q with
    peer := BitVec.ofNat 13 (getLE b 4 2)
    peerExport := getLE b 16 8
    peerCommands := [byteAt b 10, byteAt b 11, byteAt b 12, byteAt b 13]
    version := r.2 / 256 * 16 + r.2 % 256
    hello := r.1 == 1 || r.1 == 3
    encrypted := encryptBit s p && decide (257 ≤ r.2)
    link := { q.link with
      reversed := Config.portReversed p, polarity := Config.portPolarity p
      st := r.1, step := if r.1 == 1 || r.1 == 3 then 6 else 0 } }

def execHello (port : BitVec 3) (alive : Byte) (block : List Byte) (s : State) :
    Host.Outcome State Fault Refusal :=
  let p := port.toNat
  let st := (portAt s p).link.st
  .next (if (st == 1 || st == 3) && versionOk block 32 then
      checkAlive s p alive fun s =>
        let t := takeHello s p block
        if (portAt t p).hello then t else linksChanged s t
    else s)

/-! ### Flits (R443, R444, R447, R461) -/

/-- A module without valid time loads its parent's as that port completes training (R387, R461); what
it loads comes from the parent. -/
def loadTime (s : State) (p : Nat) : State :=
  let t := setTimeRoot s
  if s.time.valid || t.mortar.isRoot || t.mortar.parentPort != p || !portInService t p then t
  else if auditOk t then
    let v := Config.freeChoice t.drawn % 2 ^ 64
    let t1 := toServing { t with
      time := { t.time with ns := BitVec.ofNat 64 v, valid := true, source := true, acc := 0 }
      drawn := t.drawn + 1 }
    audit t1 3 0x51 [v, 1] (portAt t1 p).peer.toNat []
  else auditFail t

/-- The port is up (R439, R447, R449, R461, R468, R527). -/
def portActive (s : State) (p : Nat) : State :=
  let retrained := (portAt s p).link.st == 3
  let late := (portAt s p).link.waiting
  let s1 := updPort s p fun q => { q with link := linkUp { q.link with waiting := [] }, aliveIn := none }
  let s2 := if retrained then hwError s1 0 0x31 p 0 0 4 else s1
  let s3 := if (portAt s2 p).encrypted && (portAt s2 p).keyOut.isNone then firstKey s2 p else s2
  if portInService s3 p then
    let s4 := updPort s3 p fun q => portSend q late
    loadTime (linksChanged s s4) p |> fun t => flood t p (fabNum t) p true
  else s3

/-- The port has its initial credits. -/
def portCredits (s : State) (p : Nat) : State :=
  let l := (portAt s p).link
  if (l.st == 1 || l.st == 3) && l.step == 6 && creditsIn l then portActive s p
  else updPort s p fun q => portSend { q with
    link := if s.power.st == 2 then linkSleep q.link else q.link } []

/-- The key under which a flit is opened: payload and control flits of an encrypted port (R466). -/
def openKey (q : Port) (f : List Byte) : Option (Nat × List Byte) :=
  if q.encrypted && (flitKind f == 0 || flitKind f == 2) then q.keyIn else none

/-- An encrypted flit's tag holds, and its plain bytes (R466). -/
def openFlit (q : Port) (f : List Byte) : Option (List Byte) :=
  match openKey q f with
  | some (k, key) => (Config.gcmOpen key k q.rxFlits f).map fun d => f.take 8 ++ fit 240 d
  | none => some f

/-- A flit dropped, with a NAK for the first (R414), which an encrypted port seals (R466). -/
def dropPort (q : Port) : Port :=
  if q.link.discarding then q
  else portControl { q with link := { q.link with discarding := true, naksSent := q.link.naksSent + 1 } }
    (leBytes 2 q.link.rxNext.toNat)

/-- A flit's space on its virtual channel, whose number the flit does not carry (a free value): one flit
is owed for it (R444). -/
def channelWalk (channel : Nat) (l : Link) : SlotWalk :=
  { skip := 0, cls := 0, owed := modAt l.owed channel (· + 1) }

/-- A flit whose plain bytes are `d`: a payload flit out of sequence is dropped. -/
def takeFlit (channel : Nat) (q : Port) (d : List Byte) : Port :=
  let q1 := { q with link := takeCredits (flitClass d / 2) (flitCredits d) (takeAck (flitAck d) q.link) }
  if (flitKind d == 0 && !inSequence d q1.link) || 3 ≤ flitKind d then dropPort q1
  else { q1 with
    link := acceptFlit (channelWalk channel q1.link) d q1.link
    rxFlits := if (openKey q d).isSome then q.rxFlits + 1 else q.rxFlits }

/-- A flit that a port receives behind `errors` symbol errors by lane in the codeword that begins in it
(R409, R443). -/
def portFlit (channel : Nat) (q : Port) (f : List Byte) (errors : List Nat) : Port :=
  let c := codeStep q.cwBits q.cwErrors (codewordErrors (if q.link.degraded then 4 else 8) errors)
  let q1 := { q with link := freshLink q.link, cwBits := c.bits, cwErrors := c.errors }
  match (if c.lost || !flitOk f then none else openFlit q1 f) with
  | none => dropPort q1
  | some d => takeFlit channel q1 d

def execMortarFlitReceived (port : BitVec 3) (flit : List Byte) (errors : List Nat)
    (s : State) : Host.Outcome State Fault Refusal :=
  let p := port.toNat
  let l := (portAt s p).link
  .next (if l.st == 2 || ((l.st == 1 || l.st == 3) && l.step == 6) then
      let t := updPort s p fun q => portFlit (Config.freeChoice s.drawn % 2) q flit errors
      portCredits { t with drawn := t.drawn + 1 } p
    else s)

def execMortarNakReceived (port : BitVec 3) (seq : BitVec 12) (s : State) :
    Host.Outcome State Fault Refusal :=
  let p := port.toNat
  .next (if (portAt s p).link.st == 2 then
      let s1 := updPort s p fun q => { q with link := takeNak seq q.link }
      if 8 ≤ (portAt s1 p).link.nakRun then retrainPort s1 p else s1
    else s)

def execMortarFecLockLost (port lane : BitVec 3) (s : State) : Host.Outcome State Fault Refusal :=
  let l := (portAt s port.toNat).link
  .next (if l.st == 2 && laneActive 8 lane.toNat l then retrainPort s port.toNat else s)

def execMortarAckTimeout (port : BitVec 3) (s : State) : Host.Outcome State Fault Refusal :=
  let l := (portAt s port.toNat).link
  .next (if l.st == 2 && !l.kept.isEmpty then retrainPort s port.toNat else s)

/-! ### Link states (R449) -/

/-- A link's state as this module knows it. -/
def setLink (s : State) (number link : Nat) (up : Bool) : State :=
  { s with
    mortar := { s.mortar with
      links := if up then s.mortar.links.filter (· != (number, link))
        else s.mortar.links ++ [(number, link)] } }

def execLinkState (port : BitVec 3) (alive : Byte) (number : BitVec 13) (link : BitVec 3)
    (up : Bool) (s : State) : Host.Outcome State Fault Refusal :=
  .next (controlIn s port alive fun s =>
    if s.mortar.links.contains (number.toNat, link.toNat) == !up then s
    else linksChanged s (flood (setLink s number.toNat link.toNat up) port.toNat number.toNat
      link.toNat up))

/-! ### TIME_SYNC (R388, R462, R463) -/

/-- The four times of a message: left, arrived, left and arrived. -/
def syncBytes (t0 t1 t2 t3 : Nat) : List Byte :=
  leBytes 8 t0 ++ leBytes 8 t1 ++ leBytes 8 t2 ++ leBytes 8 t3

/-- The exchange begins; keys that are due change (R466). -/
def execTimeSyncTimer (s : State) : Host.Outcome State Fault Refusal :=
  let s1 := (List.range 8).foldl rollKey s
  .next (if s1.time.valid && !s1.mortar.isRoot && portInService s1 s1.mortar.parentPort then
      controlSend s1 s1.mortar.parentPort 0x21 (syncBytes s1.time.ns.toNat 0 0 0)
    else s1)

/-- The offset from the parent, taking the delay as half the round trip less the dwell (R462). -/
def syncOffset (t0 t1 t2 t3 : Nat) : Int := (((t0 : Int) - t1) + ((t3 : Int) - t2)) / 2

/-- The rate that cancels an offset: its size, within 200 ppm, the manual leaves open. -/
def syncRate (offset : Int) (draw : Nat) : Int :=
  let n : Int := (Config.freeChoice draw % 20001 : Nat)
  if 0 < offset then -n else if offset < 0 then n else 0

/-- The parent's answer sets the offset and the rate. -/
def takeSync (s : State) (t0 t1 t2 t3 : Nat) : State :=
  let o := syncOffset t0 t1 t2 t3
  { s with
    time := { s.time with rate := syncRate o s.drawn }
    drawn := s.drawn + 1
    mortar := { s.mortar with
      offsetNs := max (-8191) (min 8191 o)
      slewing := decide (200 < o) || decide (o < -200) } }

def execTimeSync (port : BitVec 3) (alive : Byte) (t0 t1 t2 t3 : BitVec 64) (s : State) :
    Host.Outcome State Fault Refusal :=
  .next (controlIn s port alive fun s =>
    if !s.time.valid then s
    else if !s.mortar.isRoot && port.toNat == s.mortar.parentPort then
      takeSync s t0.toNat t1.toNat t2.toNat t3.toNat
    else
      let n := s.time.ns.toNat
      controlSend s port.toNat 0x21 (syncBytes t0.toNat n n 0))

/-! ### Transit (R449, R450) -/

/-- A message from its bytes (R445). -/
def msgOf (vc : Bool) (m : List Byte) : Msg :=
  .mortar vc (byteAt m 0) (getLE m 2 2 % 8192) (getLE m 4 2 % 8192) (byteAt m 6) (getLE m 12 4) (getLE m 16 4)
    (getLE m 20 4) (getLE m 24 8) (bit (byteAt m 1) 0) (m.drop 32)

/-- A grid port, or the double that carries its pair (R442). -/
def doubledPort (s : State) (p src dest : Nat) : Nat :=
  let d := [6, 7].find? fun q => portRole s q == p + 1 && portInService s q
  if (src + dest) % 2 == 1 then d.getD p else p

/-- The primary of a doubled port. -/
def primary (s : State) (p : Nat) : Nat :=
  if 6 ≤ p && !meshMode s && 1 ≤ portRole s p && portRole s p ≤ 6 then portRole s p - 1 else p

/-- Where a transit message goes on, and on which channel (R449, R450). -/
def transitTo (s : State) (port : Nat) (vc : Bool) (m : List Byte) : Option (Nat × Bool) :=
  let me := fabNum s
  let src := getLE m 4 2 % 8192
  let dest := getLE m 2 2 % 8192
  let r := getLE m 20 4
  if meshMode s then some ((dest + 9 - me - 1) % 9, true)
  else
    ([0, 1, 2].find? fun d => coordOf s me d != coordOf s dest d).map fun d =>
      let p := 2 * d + b2n (bit r d)
      let same := primary s port / 2 == d
      (doubledPort s p src dest, (same && vc) || crossesWrap s p)

/-- A flit goes on when its channel has credit, and else waits (R444). -/
def execMortarTransitForward (port : BitVec 3) (vc : Bool) (message : List Byte) (s : State) :
    Host.Outcome State Fault Refusal :=
  let m := message
  .next (if !portInService s port.toNat || getLE m 2 2 % 8192 == fabNum s || 0x20 ≤ byteAt m 0 then s
    else
      match transitTo s port.toNat vc m with
      | none => s
      | some (p, c) => updPort s p fun q => portSend q [msgOf c m])

end Sys2Proof.Machine
end

