-- ==== Sys2Proof/Machine/Lintel.lean ====
section
/-!
DEFINITION. Lintel's mailbox requests (R508 to R523) and SECURE_ERASE (R528).
-/

namespace Sys2Proof.Machine

/-- The serial number (R503). -/
def serialBytes : List Byte := (List.range 16).map Config.serial

/-- The length of the object at the start of the input buffer: its own SIZE, and no less than the `n` bytes
of the version known (R15, R508). -/
def inSize (s : State) (n : Nat) : Nat := max n (getLE (getBuffer s.lintel.inBuf 0 4) 2 2)

/-- The signature block of the device over an object (R505, R506). -/
def deviceBlock (purpose draw : Nat) (obj : List Byte) : List Byte :=
  let m := BitVec.ofNat 8 purpose :: obj
  header 17072 ++ leBytes 1 purpose ++ leBytes 1 0x80 ++ zeros 26 ++ fit 384 Config.deviceModulus ++
  fit 384 (Config.deviceRsa draw m) ++ fit 48 Config.devicePublicKey ++ fit 16224 (Config.deviceSlh draw m)

/-- That object, and the signature block after it (R508). -/
def inObjectBytes (s : State) (n : Nat) : List Byte := getBuffer s.lintel.inBuf 0 (inSize s n)
def inSignature (s : State) (n : Nat) : List Byte := getBuffer s.lintel.inBuf (inSize s n) sigBytes

/-- The output buffer with an object and the device's signature over it (R510, R517). -/
def signOut (s : State) (purpose : Nat) (obj : List Byte) : State :=
  { s with
    lintel := { s.lintel with
      outBuf := putBuffer [] 0 (obj ++ deviceBlock purpose s.drawn obj) }
    drawn := s.drawn + 1 }

/-! ### LINTEL_STAGE, LINTEL_READ (R508) -/

def execLintelStage (r : MailReq) (s : State) : Host.Outcome State Fault Refusal :=
  .next (mailRun s r 0x40 false fun s req =>
    stageRequest s req 32768 s.lintel.inBuf fun s b =>
      { s with lintel := { s.lintel with inBuf := b } })

/-- The bytes of a LINTEL_READ's source. -/
def lintelSource (s : State) (sel : Nat) : List Byte :=
  if sel == 0 then Config.identityCertificate else getBuffer s.lintel.outBuf 0 32768

def execLintelRead (r : MailReq) (s : State) : Host.Outcome State Fault Refusal :=
  .next (mailRun s r 0x41 false fun s req =>
    let src := lintelSource s (rArg req 0)
    let off := rArg req 1
    let n := rArg req 2
    if 1 < rArg req 0 || n == 0 || 4064 < n || src.length < off + n then mailEnd s 0x10
    else mailDone s 0 (rArg req 0) off n ((src.drop off).take n))

/-! ### ATTEST (R510) -/

def boolBits (l : List Bool) : Nat := (l.zipIdx.map fun x => b2n x.1 * 2 ^ x.2).sum

/-- ANCHORS of the report: owner anchors written and revoked. -/
def anchorBits (s : State) : Nat :=
  boolBits (s.lintel.ownerAnchors.map (·.isSome)) + 16 * s.lintel.ownerRevoked.toNat

/-- BOOT_STATUS (R500). -/
def bootStatus (s : State) : Nat :=
  let q := s.quoin
  q.stage * 2 ^ 60 + q.failStep * 2 ^ 56 + q.failStatus * 2 ^ 48 + q.slot * 2 ^ 47 +
    b2n q.fallback * 2 ^ 46 + q.resetCause * 2 ^ 32 + q.bootMs

/-- A field of the active image's header, 0 with none. -/
def imageField (s : State) (off n : Nat) : Nat := (s.quoin.active.map fun i => getLE i off n).getD 0

/-- The attestation report (R510). -/
def attestBytes (s : State) (nonce : List Byte) : List Byte :=
  let fw := s.lintel.fwSlots.getD s.lintel.fwSlot []
  let last := s.lintel.audit.getLast?
  header 320 ++ leBytes 4 0x00070128 ++ serialBytes ++ leBytes 8 (bootStatus s) ++
  leBytes 4 (imageField s 8 4) ++ leBytes 4 s.lintel.fwVersion ++ leBytes 1 s.lintel.fwCounter ++
  leBytes 1 s.lintel.bondCounter ++ leBytes 1 s.lintel.debug ++ leBytes 1 (anchorBits s) ++
  zeros 4 ++ leBytes 8 (if s.time.valid then s.time.ns.toNat else 0) ++ fit 32 nonce ++
  fit 48 (Config.sha384 ((s.quoin.active.getD []).take (imageField s 24 4))) ++
  fit 48 (Config.sha384 (fw.take (getLE fw 20 4))) ++
  leBytes 8 ((last.map (·.number)).getD 0) ++ fit 48 ((last.map (·.hash)).getD []) ++
  fit 48 Config.transportKeyDigest ++ zeros 32

def execAttest (r : MailReq) (s : State) : Host.Outcome State Fault Refusal :=
  .next (mailRun s r 0x42 false fun s req =>
    if (rPayload req).length != 32 then mailEnd s 0x10
    else mailEnd (signOut s 4 (attestBytes s (rPayload req))) 0)

/-! ### ROLLBACK_COMMIT (R512) -/

def execRollbackCommit (r : MailReq) (s : State) : Host.Outcome State Fault Refusal :=
  .next (mailRun s r 0x43 false fun s req =>
    let which := rArg req 0
    let old := if which == 1 then s.lintel.fwCounter else s.lintel.bondCounter
    let new := if which == 1 then s.lintel.fwRollback else imageField s 12 4
    if (which != 1 && which != 2) || (which == 2 && s.quoin.active.isNone) || 128 < new then
      mailEnd s 0x10
    else if new ≤ old then mailEnd s 0
    else mailAudited s 0x12 [which, old, new] [] fun s => mailEnd { s with
      lintel := { s.lintel with
        fwCounter := if which == 1 then new else s.lintel.fwCounter
        bondCounter := if which == 2 then new else s.lintel.bondCounter } } 0)

/-! ### Debug (R516 to R520) -/

/-- The challenge (R517). -/
def challengeBytes (s : State) (nonce : List Byte) : List Byte :=
  header 128 ++ zeros 4 ++ serialBytes ++ fit 48 nonce ++
  leBytes 8 (if s.time.valid then s.time.ns.toNat else 0) ++ leBytes 4 s.lintel.fwVersion ++ zeros 44

/-- A request that needs a fresh key or nonce, which a failing entropy source does not give (R504). -/
def withEntropy (s : State) (act : State → State) : State :=
  if s.lintel.entropyFault then mailEnd (hwError s 1 0x50 0 0 0x30 0) 0x30 else act s

def execDebugChallenge (r : MailReq) (s : State) : Host.Outcome State Fault Refusal :=
  .next (mailRun s r 0x44 false fun s _ => withEntropy s fun s =>
    let nonce := fit 48 (Config.entropy s.lintel.draws 48)
    let s1 := signOut s 6 (challengeBytes s nonce)
    mailEnd { s1 with
      lintel := { s1.lintel with
        challenge := some (nonce, now s)
        draws := s1.lintel.draws + 1 } } 0)

def execChallengeExpiry (s : State) : Host.Outcome State Fault Refusal :=
  .next (match s.lintel.challenge with
    | some (_, t) => if t + 600000000000 ≤ now s then
        { s with lintel := { s.lintel with challenge := none } } else s
    | none => s)

/-- Who may sign a debug token (R507). -/
def tokenSigner (scope cls _ : Nat) : Bool := cls == 0 || (cls == 1 && scope == 1)

/-- The token matches the module and the current challenge, and is signed (R506, R518). -/
def tokenGood (s : State) (t : List Byte) : Bool :=
  (t.drop 16).take 16 == serialBytes &&
  (match s.lintel.challenge with
   | some (n, at') => (t.drop 32).take 48 == n && decide (now s < at' + 600000000000)
   | none => false) &&
  sigErr s 3 (tokenSigner (byteAt t 4)) t (inSignature s 128) == none

/-- Debug opens; FULL withholds the keys, and encrypted ports refuse (R518, R519). -/
def openDebug (s : State) (scope seconds : Nat) : State :=
  let full := scope == 2
  let s1 := { s with
    lintel := { s.lintel with
      debug := scope, debugExpiry := now s + seconds * 1000000000, challenge := none
      withheld := s.lintel.withheld || full } }
  if full then
    (List.range 8).foldl (fun s p => if (portAt s p).encrypted then portOut s p 7 else s) s1
  else s1

def execDebugUnlock (r : MailReq) (s : State) : Host.Outcome State Fault Refusal :=
  .next (mailRun s r 0x45 false fun s _ =>
    let t := inObjectBytes s 128
    let scope := byteAt t 4
    let secs := getLE t 8 4
    if !s.time.valid then mailEnd s 0x10
    else if !versionOk t 128 then mailEnd s 0x11
    else if (scope != 1 && scope != 2) || secs == 0 || 86400 < secs then mailEnd s 0x10
    else if tokenGood s t then
      mailAudited s 0x20 [scope, now s + secs * 1000000000] t fun s =>
        mailEnd (openDebug s scope secs) 0
    else mailFail { s with lintel := { s.lintel with challenge := none } } 0x50)

/-- Debug closed. -/
def shutDebug (s : State) : State := { s with lintel := { s.lintel with debug := 0, debugExpiry := 0 } }

def execDebugClose (r : MailReq) (s : State) : Host.Outcome State Fault Refusal :=
  .next (mailRun s r 0x46 false fun s _ =>
    if s.lintel.debug == 0 then mailEnd s 0
    else mailAudited s 0x21 [2] [] fun s => mailEnd (shutDebug s) 0)

def execDebugExpiry (s : State) : Host.Outcome State Fault Refusal :=
  .next (if s.lintel.debug != 0 && decide (s.lintel.debugExpiry ≤ now s) then
      if auditOk s then shutDebug (audit s 5 0x21 [1] 0 []) else auditFail s
    else s)

/-! ### Keys (R521 to R523) -/

/-- What KEY_INSTALL refuses a package with, or the key (R522). -/
def keyPackage (s : State) (p : List Byte) : Except Nat (List Byte) :=
  let kind := byteAt p 4
  let handle := getLE p 6 2
  if !(versionOk (inSignature s 416) sigBytes && byteAt (inSignature s 416) 4 == 7) then .error 0x10
  else if !sigGood s 7 ownerOnly p (inSignature s 416) then .error 0x50
  else
    match Config.oaepUnwrap ((p.drop 32).take 384) with
    | none => .error 0x10
    | some k =>
      if versionOk p 416 && (p.drop 8).take 16 == serialBytes && decide (s.lintel.keySeq < getLE p 24 4) &&
          (if kind == 1 then k.length == 64 && decide (1 ≤ handle) && decide (handle ≤ 4095) &&
              !(s.lintel.keys.any (·.1 == handle))
            else kind == 2 && k.length == 32) then .ok k
      else .error 0x10

def execKeyInstall (r : MailReq) (s : State) : Host.Outcome State Fault Refusal :=
  .next (mailRun s r 0x47 false fun s _ =>
    let p := inObjectBytes s 416
    let kind := byteAt p 4
    let handle := if kind == 1 then getLE p 6 2 else 0
    match keyPackage s p with
    | .error st => mailFail s st
    | .ok k => mailAudited s 0x30 [kind, handle, getLE p 24 4] p fun s => mailEnd { s with
        lintel := { s.lintel with
          keys := if kind == 1 then s.lintel.keys ++ [(handle, k)] else s.lintel.keys
          fabricKey := if kind == 2 then some k else s.lintel.fabricKey
          keySeq := getLE p 24 4 } } 0)

/-- A collection or a sequence names a handle (R523). -/
def handleUsed (s : State) (h : Nat) : Bool :=
  s.index.colls.any (fun k => dKey k.desc == h) || s.kv.seqs.any fun q => kvKey q.desc == h

/-- An empty handle is left as it is. -/
def execKeyDestroy (r : MailReq) (s : State) : Host.Outcome State Fault Refusal :=
  .next (mailRun s r 0x48 false fun s req =>
    let h := rArg req 0
    if h == 0 || 4095 < h || handleUsed s h then mailEnd s 0x10
    else if !(s.lintel.keys.any (·.1 == h)) then mailEnd s 0
    else mailAudited s 0x31 [h] [] fun s => mailEnd { s with
      lintel := { s.lintel with keys := s.lintel.keys.filter (·.1 != h) } } 0)

/-! ### ANCHOR_UPDATE (R514, R515) -/

/-- Who may sign an update (R515). -/
def anchorSigner (s : State) (action slot cls by' : Nat) : Bool :=
  if action == 1 then
    cls == (if s.lintel.ownerAnchors.any (·.isSome) then 1 else 0)
  else if action == 2 then cls == 0 || (cls == 1 && by' != slot)
  else cls == 0 && by' != slot

/-- What an update is refused with. -/
def anchorErr (s : State) (u : List Byte) : Option Nat :=
  let action := byteAt u 4
  let slot := byteAt u 5
  if !versionOk u 96 then some 0x11
  else if action == 0 || 3 < action || 3 < slot || (u.drop 8).take 16 != serialBytes then some 0x10
  else
    match sigErr s 8 (anchorSigner s action slot) u (inSignature s 96) with
    | some e => some e
    | none =>
      if action == 1 && (s.lintel.ownerAnchors.getD slot none).isSome then some 0x10
      else if action == 3 && (s.lintel.vendorRevoked ||| BitVec.ofNat 4 (2 ^ slot)) == 15 then some 0x10
      else none

def execAnchorUpdate (r : MailReq) (s : State) : Host.Outcome State Fault Refusal :=
  .next (mailRun s r 0x49 false fun s _ =>
    let u := inObjectBytes s 96
    let action := byteAt u 4
    let slot := byteAt u 5
    let b : BitVec 4 := BitVec.ofNat 4 (2 ^ slot)
    match anchorErr s u with
    | some st => mailFail s st
    | none => mailAudited s 0x32 [action, slot] u fun s => mailEnd { s with
        lintel := { s.lintel with
          ownerAnchors := if action == 1 then
              modAt s.lintel.ownerAnchors slot fun _ => some ((u.drop 24).take 48)
            else s.lintel.ownerAnchors
          ownerRevoked := if action == 2 then s.lintel.ownerRevoked ||| b else s.lintel.ownerRevoked
          vendorRevoked := if action == 3 then s.lintel.vendorRevoked ||| b
            else s.lintel.vendorRevoked } } 0)

/-! ### SECURE_ERASE (R528) -/

/-- Every data key destroyed (R528 step 2). -/
def destroyKeys (l : Lintel) : Lintel :=
  { l with keys := [], coKeys := [], fabricKey := none, stagingKey := none, dataKey := none }

/-- The units whose contents stood in NAND. -/
def nandUnits (s : State) : List Nat :=
  (s.tiers.entries.filter fun e => e.home == .bulk || e.home == .tile).map (·.unit)

/-- NAND erased but for what R528 keeps: no object stands in it, and a unit homed there has no
contents that the manual states. -/
def eraseNand (s : State) : State :=
  { s with
    index := {}
    kv := {}
    bricks := s.bricks.map fun b => { retired := b.retired, deadDies := b.deadDies }
    mem := (nandUnits s).zipIdx.foldl (fun m u => freeUnit m u.1 (s.drawn + u.2)) s.mem
    drawn := s.drawn + (nandUnits s).length
    hw := { s.hw with log := [] }
    epochs := {} }

/-- The erasure and the reset that follows it. -/
def execSecureErase (r : MailReq) (s : State) : Host.Outcome State Fault Refusal :=
  .next (mailRun s r 0x30 false fun s _ =>
    mailAudited s 0x33 [] [] fun s =>
      let s1 := dropCommands { s with lintel := destroyKeys s.lintel }
      moduleReset (eraseNand s1) 2 true)

end Sys2Proof.Machine
end

