-- ==== Sys2Proof/Machine/Time.lean ====
section
/-!
DEFINITION. The fabric time keeper (R384 to R388, R402).
-/

namespace Sys2Proof.Machine

/-- The nanoseconds of one reference period, in the pattern 6, 6, 7, 6, 7 (R384). -/
def period (phase : Nat) : Nat := if phase % 5 == 2 || phase % 5 == 4 then 7 else 6

/-- One reference period of the keeper (R384), its rate adjusted in units of 0.01 ppm (R388). -/
def tick (t : FabricTime) : FabricTime :=
  let n := period t.phase
  let acc := t.acc + n * t.rate
  let more : Int := if 100000000 ≤ acc then 1 else if acc ≤ -100000000 then -1 else 0
  { t with
    phase := (t.phase + 1) % 5
    acc := if t.valid then acc - 100000000 * more else 0
    ns := if t.valid then BitVec.ofNat 64 (min (2 ^ 64 - 1) (t.ns.toNat + (n + more).toNat))
      else t.ns }

def execFabricTimeTick (s : State) : Host.Outcome State Fault Refusal :=
  .next { s with time := tick s.time }

/-- FABRIC_TIME_SET (R387): it loads and makes valid while not valid, with the records of R529, and
does nothing else. -/
def setTime (s : State) (origin detail : Nat) (digest : List Byte) (v : Nat) : State :=
  if s.time.valid then s
  else if auditOk s then
    let s1 := toServing s
    let s2 := audit s1 origin 0x50 [0x90008, 0, v] detail digest
    let s3 := { s2 with
      time := { s2.time with ns := BitVec.ofNat 64 v, valid := true, source := false, acc := 0 } }
    setTimeRoot (audit s3 origin 0x51 [v, 0] detail digest)
  else auditFail s

end Sys2Proof.Machine
end

