-- ==== Sys2Proof/Machine/Uzone.lean ====
section
/-!
DEFINITION. The Uzone link: training, parameters and sessions, flits, replay, and the companion's
answers and snoops (R407 to R432).
-/

namespace Sys2Proof.Machine

/-! ### Link events -/

/-- Training puts the link on half its lanes (R411): a record, and the event. -/
def uzDegraded (s : State) (lanes : Nat) : State := linkEvent (hwError s 0 0x30 0 lanes 0 5)

/-- A message that a link going DOWN ends: an access without caching, or a read of a result slot for its
command (R432). The agents' own requests stay. -/
def endsDown (kind : Nat) (owner : Option Owner) : Bool :=
  kind == 3 || kind == 4 || kind == 5 || owner.isSome
def msgEnds (m : Msg) : Bool := (msgRequest m).elim false fun k => endsDown k.1 (msgFor m).2

/-- What those messages serve. -/
def downOwners (u : Uzone) : List Owner :=
  ((u.reqs.filter fun r => endsDown r.kind r.owner).filterMap (·.owner) ++
    (u.link.waiting.filter msgEnds).filterMap fun m => (msgFor m).2).eraseDups

/-- The link DOWN, without those messages. -/
def downUzone (u : Uzone) : Uzone :=
  { u with
    link := linkDown { u.link with
      waiting := u.link.waiting.filter fun m => !msgEnds m
      kept := mapIf (fun k => k.msg.elim false msgEnds) (fun k => { k with msg := none }) u.link.kept }
    reqs := u.reqs.filter fun r => !endsDown r.kind r.owner }

/-- The link goes DOWN for good until a retry: accesses to the companion end with LINK_DOWN (R415, R432). -/
def uzFailed (s : State) (lanes : Nat) : State :=
  (downOwners s.uzone).foldl (fun s o => endOwner s o { status := 0x40 })
    (hwError { s with uzone := downUzone s.uzone } 1 0x30 0 lanes 0x40 0)

def execUzoneTrainingTimeout (lanes : BitVec 16) (s : State) : Host.Outcome State Fault Refusal :=
  let l := s.uzone.link
  .next (if l.st == 1 then
      let t := trainTimeout 16 lanes.toNat l
      let s1 := { s with uzone := { s.uzone with link := t } }
      if t.degraded && !l.degraded then uzDegraded s1 lanes.toNat else s1
    else if l.st == 3 then
      if l.retrainFails + 1 == 3 then uzFailed s lanes.toNat
      else { s with
        uzone := { s.uzone with link := { l with step := 3, retrainFails := l.retrainFails + 1 } } }
    else s)

/-! ### Parameters (R426 to R428) -/

/-- The range that the KV7 offers, lowest and highest, as 256 × major + minor (R427, R496). -/
def uzOffer (s : State) : Nat × Nat :=
  if s.quoin.active.isSome then (bond s 6 2, bond s 8 2) else (256, 256)

/-- A parameter block is one that the KV7 takes (R426). -/
def paramOk (b : List Byte) : Bool :=
  versionOk b 64 && getLE b 16 8 % unitBytes == 0 && decide (getLE b 16 8 ≤ 2 ^ 48)

/-- The 64-byte parameter block of the KV7 (R426): version 1.0, its range, the session it last accepted,
nothing exposed, and 256 requests accepted. -/
def paramBlock (s : State) : List Byte :=
  header 64 ++ leBytes 2 (uzOffer s).1 ++ leBytes 2 (uzOffer s).2 ++ leBytes 4 s.uzone.session.toNat ++
  zeros 4 ++ leBytes 8 0 ++ leBytes 2 256 ++ zeros 38

/-- The KV7's own block leaves in control flits of 240 bytes, and in step 6 its initial credits (R410, R416,
R426). -/
def sendParams (s : State) (l : Link) : Link :=
  let l1 := sendControl (freshLink l) fun _ => paramBlock s
  if l.step == 6 then returnCredits l1 else l1

/-- The exchange without the session: the version, or a refusal. The lane order and polarity that the
board gives have been found by then (R408, R410). -/
def takeParams (s : State) (b : List Byte) : Uzone :=
  let lo := max (getLE b 4 2) (uzOffer s).1
  let hi := min (getLE b 6 2) (uzOffer s).2
  let session := getLE b 8 4
  { s.uzone with
    peerMaxMajor := byteAt b 7
    peerMaxMinor := byteAt b 6
    negMajor := if lo ≤ hi then hi / 256 else 0
    negMinor := if lo ≤ hi then hi % 256 else 0
    session := if session == 0 then s.uzone.session else BitVec.ofNat 32 session
    exposed := getLE b 16 8
    peerRequests := getLE b 24 2
    link := sendParams s { s.uzone.link with
      reversed := Config.uzoneReversed
      polarity := Config.uzonePolarity
      st := if lo ≤ hi then s.uzone.link.st else 5
      step := if lo ≤ hi then 6 else 0 } }

/-- A session other than the one held resets the module (R428). -/
def newSession (s : State) (b : List Byte) : Bool :=
  s.uzone.session != 0 && getLE b 8 4 != 0 && s.uzone.session.toNat != getLE b 8 4

def execUzoneParameterBlock (block : List Byte) (s : State) : Host.Outcome State Fault Refusal :=
  .next (if (s.uzone.link.st == 1 || s.uzone.link.st == 3) && paramOk block then
      if newSession s block then moduleReset s 5 false
      else { s with uzone := takeParams s block }
    else s)

/-! ### Flits (R409, R412 to R416, R419) -/

/-- The opcodes that the companion sends, each from version 1.0 on (R419). -/
def companionOps : List Nat := [0x10, 0x11, 0x12, 0x13, 0x14, 0x20, 0x21, 0x30, 0x33, 0x40]

/-- The class of a header of the companion and the slots that follow it, or none for an opcode that it may
not send (R418, R419). A slot that opens no message holds opcode 0 and takes no class's space. -/
def uzSlots (h : List Byte) : Option (Nat × Nat) :=
  let x := headOf h
  if x.opcode == 0 then some (4, 0)
  else if companionOps.contains x.opcode then opcodeShape x
  else none

/-- The link has its initial credits: ACTIVE (R410, R416). A retrain that completes is an event, with
its record (R430). -/
def uzCredits (s : State) : State :=
  let l := s.uzone.link
  if (l.st == 1 || l.st == 3) && l.step == 6 && creditsIn l then
    let s1 := drainOut (uzoneActive { s with uzone := { s.uzone with link := linkUp l } })
    if l.st == 3 then linkEvent (hwError s1 0 0x30 0 0 0 4) else s1
  else s

/-- What waits goes out, and in Banked the link sleeps once nothing is left (R431). -/
def uzSettle (s : State) : State :=
  let u := pumpUzone s.uzone
  { s with uzone := { u with link := if s.power.st == 2 then linkSleep u.link else u.link } }

/-- A counter of UZONE_ERROR_COUNTS that has reached its limit is an event (R430, R437). -/
def countEvent (old new : Nat) (s : State) : State :=
  if old != new && new == 0xFFFF then linkEvent s else s

/-- A flit's bits enter their codewords: where one begins, its corrected symbols or its loss are counted
(R409, R437, R438). -/
def uzCodeword (s : State) (errors : List Nat) : State × Bool :=
  let u := s.uzone
  let e := codewordErrors (if u.link.degraded then 8 else 16) errors
  let c := codeStep u.cwBits u.cwErrors e
  let n := if c.begun && decide (15 < e) then sat 0xFFFF (u.uncorrectable + 1) else u.uncorrectable
  (countEvent u.uncorrectable n { s with
    uzone := { u with
      link := freshLink u.link
      cwBits := c.bits
      cwErrors := c.errors
      uncorrectable := n
      fecCorrected := if c.begun && decide (e ≤ 15) then (u.fecCorrected + e) % 2 ^ 64
        else u.fecCorrected } }, c.lost)

/-- A flit that the receiver drops; one whose CHECK fails is counted (R437). -/
def uzDrop (s : State) (check : Bool) : State :=
  let u := s.uzone
  let n := sat 0xFFFF (u.checkErrors + b2n check)
  countEvent u.checkErrors n { s with uzone := { u with link := dropFlit u.link, checkErrors := n } }

/-- A flit that checks. -/
def uzAccept (s : State) (f : List Byte) : State :=
  let l0 := takeCredits (flitClass f) (flitCredits f) (takeAck (flitAck f) s.uzone.link)
  if badMessage uzSlots f l0 then
    retrainUzone { s with uzone := { s.uzone with link := l0 } }
  else uzSettle (uzCredits { s with uzone := { s.uzone with link := takePayload uzSlots f l0 } })

/-- The link receives: ACTIVE, or in the credit exchange. -/
def uzReceives (l : Link) : Bool := l.st == 2 || ((l.st == 1 || l.st == 3) && l.step == 6)

/-- The symbol errors of a codeword by active lane: of the first eight, and of the others. -/
def laneErrors (low high : List Nat) : List Nat := (List.range 8).map (fun i => low.getD i 0) ++ high

/-- A flit of the companion, with the symbol errors by lane of the codeword that begins in it (R409). -/
def uzFlit (s : State) (flit : List Byte) (errors : List Nat) : State :=
  if uzReceives s.uzone.link then
    let x := uzCodeword s errors
    if x.2 then uzDrop x.1 false else if flitOk flit then uzAccept x.1 flit else uzDrop x.1 true
  else s

def execUzoneNakReceived (seq : BitVec 12) (s : State) : Host.Outcome State Fault Refusal :=
  .next (if s.uzone.link.st == 2 then
      let l := takeNak seq s.uzone.link
      let s1 := { s with
        uzone := { s.uzone with link := l, replays := sat 0xFFFF (s.uzone.replays + 1) } }
      let s2 := if s.uzone.replays == 0xFFFE then linkEvent s1 else s1
      if 8 ≤ l.nakRun then retrainUzone s2 else s2
    else s)

def execUzoneFecLockLost (lane : BitVec 4) (s : State) : Host.Outcome State Fault Refusal :=
  .next (if s.uzone.link.st == 2 && laneActive 16 lane.toNat s.uzone.link then retrainUzone s else s)

def execUzoneAckTimeout (s : State) : Host.Outcome State Fault Refusal :=
  .next (if s.uzone.link.st == 2 && !s.uzone.link.kept.isEmpty then retrainUzone s else s)

/-- Every 100 ms a link that is DOWN tries full training, with its domain powered and boot step 6
reached or the module in MANAGEMENT_ONLY (R432, R492). -/
def execUzoneDownRetry (s : State) : Host.Outcome State Fault Refusal :=
  .next (if s.uzone.link.st == 0 && s.power.domains.getLsbD 20 && decide (6 ≤ s.quoin.stage) then
      { s with uzone := trainUzone s.uzone }
    else s)

def execUzoneLowPowerExit (s : State) : Host.Outcome State Fault Refusal :=
  .next (if s.uzone.link.st == 4 then
      { s with uzone := pumpUzone { s.uzone with link := linkWake s.uzone.link } }
    else s)

/-- The companion retrains the link: the exchange is repeated, and VERSION_REFUSED is left (R427). -/
def execUzoneCompanionRetrain (s : State) : Host.Outcome State Fault Refusal :=
  .next (if s.uzone.link.st == 2 || s.uzone.link.st == 5 then
      { s with uzone := { s.uzone with link := retrainLink s.uzone.link, cwBits := 0, cwErrors := 0 } }
    else s)

/-! ### Snoops (R424, R425) -/

/-- The link carries a message of the companion; out of LOW_POWER it wakes first (R431). -/
def uzAwake (s : State) : Bool := s.uzone.link.st == 2 || s.uzone.link.st == 4

/-- The greatest state in which an agent holds a line: 0 I, 1 S, 2 E, 3 M. -/
def lineState (u : Uzone) (line : Nat) : Nat :=
  ((u.lines.filter (·.addr == line)).map (·.st)).foldl max 0

/-- A snoop answered from the line's present state (R424). -/
def snoop (s : State) (addr tag : Nat) (share : Bool) : State :=
  let line := addr / 64 * 64
  let st := lineState s.uzone line
  let reply : Msg := if st == 3 then .snpRspData tag (lineBytes s.mem line)
    else if share && st != 0 then .snpRspS tag else .snpRspI tag
  let lines := if share then mapIf (·.addr == line) (fun l => { l with st := 1 }) s.uzone.lines
    else s.uzone.lines.filter (·.addr != line)
  drainOut { s with
    uzone := uzSend { s.uzone with lines := lines, link := linkWake s.uzone.link } [reply] }

def execSnpShare (addr : Addr) (tag : BitVec 12) (s : State) : Host.Outcome State Fault Refusal :=
  .next (if uzAwake s then snoop s addr.toNat tag.toNat true else s)

def execSnpInv (addr : Addr) (tag : BitVec 12) (s : State) : Host.Outcome State Fault Refusal :=
  .next (if uzAwake s then snoop s addr.toNat tag.toNat false else s)

/-! ### Responses (R420, R422, R424) -/

/-- The name of a byte of companion memory: of the unit that has its home there, or of the byte
itself (R271, R296). -/
def hostName (s : State) (a : Nat) : Nat :=
  match s.tiers.entries.find? (fun e => e.home == .companion (unitOf a)) with
  | some e => e.unit + a % unitBytes
  | none => companionBase + a

/-- A request's tag is free again. -/
def dropReq (s : State) (tag : Nat) : State :=
  { s with uzone := pumpUzone { s.uzone with reqs := s.uzone.reqs.filter (·.tag != tag) } }

/-- What an access served goes on, or ends with LINK_DOWN or with MEDIA_ERROR where the response was
poisoned (R422). -/
def settleReq (s : State) (r : UzReq) (status : Nat) : State :=
  match r.owner with
  | none => s
  | some o =>
    if status == 0 then wakeOwner s o else endOwner s o { status := if status == 2 then 0x32 else 0x40 }

/-- A line granted to an agent: the submission queue agent holds it in S, the others in E until they write
it (R423, R424). -/
def grantLine (s : State) (r : UzReq) : State :=
  { s with uzone := setLine s.mem s.uzone r.agent r.addr (if r.kind == 1 then 1 else 2) }

/-- A DATA response with STATUS OK: bytes without caching, under their name, or a line. -/
def takeData (s : State) (r : UzReq) (bytes : List Byte) : State :=
  if r.kind == 3 then { s with mem := writeBytes s.mem (hostName s r.addr) (bytes.take 256) }
  else if r.kind == 1 || r.kind == 2 then
    grantLine { s with mem := writeBytes s.mem (companionBase + r.addr) (bytes.take 64) } r
  else s

/-- A response of the companion for a tag. The agents then write what they can (R424, R425). -/
def respondTo (s : State) (tag status : Nat) (act : State → UzReq → State) : State :=
  if uzAwake s then
    match s.uzone.reqs.find? (·.tag == tag) with
    | none => s
    | some r =>
      let s1 := dropReq { s with uzone := { s.uzone with link := linkWake s.uzone.link } } tag
      settleReq (drainOut (if status == 0 then act s1 r else s1)) r status
  else s

/-- GRANT_E for a line that the agent holds in S. -/
def grantIn (s : State) (tag : Nat) : State :=
  respondTo s tag 0 fun s r => if r.kind == 2 then grantLine s r else s

def dataIn (s : State) (tag status : Nat) (bytes : List Byte) : State :=
  respondTo s tag status fun s r => takeData s r bytes

def cmpIn (s : State) (tag status : Nat) : State := respondTo s tag status fun s _ => s

end Sys2Proof.Machine
end

