-- ==== Sys2Proof/Machine/Registers.lean ====
section
/-!
DEFINITION. The control space: its blocks and accesses (R591 to R597), every register of R601, the
capability block (R599, R600), and IDENTIFY (R368).
-/

namespace Sys2Proof.Machine

/-! ### Blocks (R591, R592) -/

/-- A block of the control space. -/
inductive RegBlock where
  | sched | doorbell | slab | tier | plumb | uzone | mortar | xf | time | quoin | lintel
  | grout (c : Nat) | riddle (c : Nat) | hod (e : Nat) | stack (c : Nat) | brick (b : Nat)
  deriving DecidableEq, Repr

/-- The block of an address in a course window, with its offset there. -/
def courseBlock (c o : Nat) : RegBlock × Nat :=
  if o < 0x10000 then (.grout c, o)
  else if o < 0x20000 then (.riddle c, o - 0x10000)
  else if o < 0x40000 then (.hod (2 * c + (o - 0x20000) / 0x10000), o % 0x10000)
  else if o < 0x80000 then (.stack c, o - 0x40000)
  else (.brick (8 * c + (o - 0x80000) / 0x10000), o % 0x10000)

/-- The block of an address and the offset in it; none outside every window. -/
def blockAt (a : Nat) : Option (RegBlock × Nat) :=
  if a < 0x20000 then some (.sched, a)
  else if a < 0xC0000 then
    ([RegBlock.doorbell, .slab, .tier, .plumb, .uzone, .mortar, .xf, .time, .quoin, .lintel][a / 0x10000 - 2]?).map
      fun b => (b, a % 0x10000)
  else if 0x1000000 ≤ a && a < 0x1800000 then
    some (courseBlock ((a - 0x1000000) / 0x100000) (a % 0x100000))
  else none

/-- The power domain that serves a block (R591, R592, R595); none is the always-on domain. -/
def blockDomain : RegBlock → Option Nat
  | .sched | .slab | .tier | .plumb | .mortar => some 23
  | .doorbell | .uzone => some 20
  | .xf => some 22
  | .time | .quoin | .lintel => none
  | .grout c | .riddle c | .stack c => some (4 + c)
  | .hod e => some (4 + e / 2)
  | .brick b => some (12 + b / 8)

/-- The block answers (R31). -/
def blockUp (s : State) (b : RegBlock) : Bool :=
  match blockDomain b with
  | none => true
  | some d => s.power.domains.getLsbD d

/-! ### What registers hold -/

/-- A register's value, and whether it is 64 bits wide. -/
abbrev RegVal := Option (Nat × Bool)

def r32 (v : Nat) : RegVal := some (v % 2 ^ 32, false)
def r64 (v : Nat) : RegVal := some (v % 2 ^ 64, true)

/-- A signed value in `n` bits. -/
def signedBits (n : Nat) (v : Int) : Nat := (v % (2 ^ n : Int)).toNat

/-- SQ_STATUS (R381). -/
def sqStatus (s : State) (id : Nat) : Nat :=
  match findSq s id with
  | none => 0
  | some q => (if q.deletedBy.isSome then 3 else if q.frozen then 2 else 1) * 2 ^ 62 + q.cls * 2 ^ 59 +
    b2n q.dbErr * 2 ^ 58 + q.cq * 2 ^ 46 + inFlight s id * 2 ^ 40 + q.tail * 2 ^ 24 +
    q.head * 2 ^ 12 + (q.depth - 1)

/-- CQ_STATUS (R382). -/
def cqStatus (s : State) (id : Nat) : Nat :=
  match findCq s id with
  | none => 0
  | some q => 1 * 2 ^ 62 + b2n q.dbErr * 2 ^ 58 + b2n q.phase * 2 ^ 48 + sat 4095 q.held.length * 2 ^ 36 +
    q.head * 2 ^ 24 + q.tail * 2 ^ 12 + (q.depth - 1)

/-- Chains that wait for links (R335). -/
def chainsWaiting (s : State) : Nat := (s.sched.cmds.filter (·.phase == .waiting .linkPool)).length

/-- Command scheduler (R180 to R184, R268, R334, R335, R376 to R382, R404 to R406). -/
def schedReg (s : State) (o : Nat) : RegVal :=
  if o == 0x0 then r64 (adminSqAddr s)
  else if o == 0x8 then r64 (adminCqAddr s)
  else if o == 0x10 then
    r32 (b2n s.sched.adminEnable * 2 ^ 31 + s.sched.adminCqDepth * 2 ^ 12 + s.sched.adminSqDepth)
  else if o == 0x18 then r32 s.sched.cmds.length
  else if o == 0x20 then
    r32 (weight s 3 * 2 ^ 24 + weight s 2 * 2 ^ 16 + weight s 1 * 2 ^ 8 + weight s 0)
  else if o == 0x28 then r64 s.sched.errNext
  else if o == 0x400 then r64 s.epochs.published
  else if o == 0x408 then r64 s.epochs.floor
  else if o == 0x410 then
    r32 (b2n s.epochs.schedule.isSome * 2 ^ 31 + b2n s.epochs.manual * 2 ^ 30 + s.epochs.retain * 2 ^ 16)
  else if o == 0x418 then r64 (s.index.locks.length * 2 ^ 32 + s.index.changes.length)
  else if o == 0x420 then r64 s.sched.waits
  else if o == 0x500 then r32 s.kv.seqs.length
  else if o == 0x600 then r32 s.sched.watchdog
  else if o == 0x608 then r32 (chainsWaiting s * 2 ^ 16 + s.hod.links.length)
  else if o == 0x700 then r64 s.sched.truncations
  else if o == 0x708 then r64 s.epochs.boundaryTime
  else if o == 0x710 then r32 (sat 0xFFFF s.epochs.delayMax * 2 ^ 16 + sat 0xFFFF s.epochs.delayLast)
  else if 0x8000 ≤ o && o < 0x18000 then
    let q := (o - 0x8000) / 16
    if o % 16 == 0 then r64 (sqStatus s q) else r64 (cqStatus s q)
  else none

def pairBusy : PairState → Bool
  | .compute _ => true
  | _ => false

/-- Slab (R223 to R226). -/
def slabReg (s : State) (o : Nat) : RegVal :=
  if o == 0x0 then
    r32 (b2n (pairBusy s.slab.pair0 || pairBusy s.slab.pair1) * 2 ^ 31 +
      b2n s.slab.rescaleLoading * 2 ^ 30 + s.slab.queue.length)
  else if o == 0x8 then r64 s.slab.opsDone
  else if o == 0x10 then r64 s.slab.packedOps
  else if o == 0x18 then r64 s.slab.busyCycles
  else none

/-- Tier translator (R301 to R305). -/
def tierReg (s : State) (o : Nat) : RegVal :=
  let t := s.tiers
  if o == 0x0 then r64 t.queueBase.toNat
  else if o == 0x8 then
    r32 (b2n t.enable * 2 ^ 31 + b2n (t.faults.any fun f => !f.posted) * 2 ^ 30 + t.head.toNat * 2 ^ 12 +
      t.tail.toNat)
  else if o == 0x10 then r32 t.timeout
  else if o == 0x18 then r64 (entriesInUse s * 2 ^ 32 + sat 4096 t.faults.length)
  else none

/-- Plumb block (R338 to R341). -/
def plumbReg (s : State) (o : Nat) : RegVal :=
  let p := s.plumb.units.getD (o / 0x40) {}
  let k := o % 0x40
  if o == 0x200 then
    r64 (s.plumb.auditFails * 2 ^ 32 + s.plumb.mortarFails * 2 ^ 16 + s.plumb.insertFails)
  else if o < 0x100 then
    if k == 0x0 then r32 p.config.toNat
    else if k == 0x8 then r64 p.poly.toNat
    else if k == 0x10 then r64 p.init.toNat
    else if k == 0x18 then r64 p.result.toNat
    else if k == 0x20 then r32 (b2n p.busy * 2 ^ 31 + p.scans)
    else none
  else none

/-- The link has been ACTIVE since its training: the version is in force. -/
def uzVersion (s : State) : Nat × Nat :=
  let st := s.uzone.link.st
  if st == 2 || st == 3 || st == 4 then (s.uzone.negMajor, s.uzone.negMinor) else (0, 0)

/-- Uzone controller (R433 to R438). -/
def uzoneReg (s : State) (o : Nat) : RegVal :=
  let u := s.uzone
  if o == 0x0 then
    r32 (u.link.st * 2 ^ 28 + b2n u.link.reversed * 2 ^ 27 + b2n u.link.degraded * 2 ^ 26 +
      b2n u.link.upperHalf * 2 ^ 25 + u.link.polarity.toNat)
  else if o == 0x8 then
    r64 ((uzVersion s).1 * 2 ^ 56 + (uzVersion s).2 * 2 ^ 48 + u.peerMaxMajor * 2 ^ 40 +
      u.peerMaxMinor * 2 ^ 32 + (uzOffer s).2 * 2 ^ 16 + (uzOffer s).1)
  else if o == 0x10 then r32 u.session.toNat
  else if o == 0x18 then r64 u.exposed
  else if o == 0x20 then
    r64 (sat 0xFFFF u.retrains * 2 ^ 48 + sat 0xFFFF u.replays * 2 ^ 32 +
      sat 0xFFFF u.checkErrors * 2 ^ 16 + sat 0xFFFF u.uncorrectable)
  else if o == 0x28 then r64 u.fecCorrected
  else none

/-- MORTAR_PORT_STATUS (R470, R595). -/
def portStatus (s : State) (p : Nat) : Nat :=
  let q := portAt s p
  if s.power.domains.getLsbD 21 then
    q.link.st * 2 ^ 28 + b2n q.link.degraded * 2 ^ 27 + b2n q.encrypted * 2 ^ 26 + q.version * 2 ^ 16 +
      q.peer.toNat
  else 0

/-- MORTAR_TIME_STATUS (R476, R595). -/
def timeStatus (s : State) : Nat :=
  let m := s.mortar
  if s.power.domains.getLsbD 21 then
    b2n m.slewing * 2 ^ 31 + b2n m.isRoot * 2 ^ 30 +
      signedBits 14 (max (-8191) (min 8191 m.offsetNs)) * 2 ^ 16 + m.parentPort * 2 ^ 13 + m.root.toNat
  else 0

/-- Mortar controller (R469 to R476). -/
def mortarReg (s : State) (o : Nat) : RegVal :=
  let m := s.mortar
  if o == 0x0 then r64 m.topology.toNat
  else if o == 0x8 then r32 m.control.toNat
  else if o == 0x10 then r64 m.shardBase.toNat
  else if o == 0x18 then r64 m.exportReg.toNat
  else if o == 0x20 then r32 m.timeout
  else if o == 0x28 then
    r64 (sat 0xFFFF m.lostCount * 2 ^ 48 + sat 0xFFFF m.regained * 2 ^ 32 + m.lastLost.toNat)
  else if o == 0x30 then r32 (timeStatus s)
  else if 0x100 ≤ o && o < 0x180 && o % 16 == 0 then r32 (portStatus s ((o - 0x100) / 16))
  else none

/-- Fabric time keeper (R401 to R403). -/
def timeReg (s : State) (o : Nat) : RegVal :=
  let t := s.time
  if o == 0x0 then r64 (if t.valid then t.ns.toNat else 0)
  else if o == 0x8 then r64 0
  else if o == 0x10 then
    r32 (b2n t.valid * 2 ^ 31 + b2n t.source * 2 ^ 30 + signedBits 16 t.rate)
  else none

/-- MAILBOX_STATUS (R499). -/
def mailStatus (s : State) : Nat :=
  let q := s.quoin
  q.mbState * 2 ^ 30 + q.mbOpcode * 2 ^ 22 + q.mbStatus * 2 ^ 14 + q.mbProgress

/-- BOND_ACTIVE (R501). -/
def bondActive (s : State) : Nat :=
  imageField s 8 4 * 2 ^ 32 + imageField s 1 1 * 2 ^ 24 + imageField s 0 1 * 2 ^ 16 +
  tileSixteenths s * 2 ^ 8 + b2n (kv5Mode s)

/-- POWER_STATUS (R561). -/
def powerStatus (s : State) : Nat :=
  let p := s.power
  p.st * 2 ^ 62 + p.target * 2 ^ 60 + b2n p.entering.isSome * 2 ^ 59 + b2n p.automatic * 2 ^ 58 +
  b2n (p.capDuty != 0) * 2 ^ 57 + b2n (thermalDuty s.thermal != 0) * 2 ^ 56 + b2n p.capUnmet * 2 ^ 55 +
  max p.capDuty (thermalDuty s.thermal) * 2 ^ 48 + p.domains.toNat

/-- POWER_INPUT (R563). -/
def powerInput (s : State) : Nat :=
  s.power.mainMv * 2 ^ 48 + s.power.auxMv * 2 ^ 32 + b2n s.power.mainOver * 2 ^ 31 + s.power.inputMw

/-- HOLDUP_STATUS (R564). -/
def holdupStatus (s : State) : Nat :=
  let h := s.holdup
  b2n h.below * 2 ^ 63 + b2n h.testing * 2 ^ 62 + b2n h.charging * 2 ^ 61 + sat 0xFFFFF h.health * 2 ^ 20 +
  sat 0xFFFFF h.stored

/-- ERROR_COUNTS (R566). -/
def errorCounts (s : State) : Nat :=
  sat 0xFFFF s.hw.deferred * 2 ^ 32 + sat 0xFFFFFFFF s.hw.corrected

/-- THERMAL_TEMPERATURES (R588). -/
def temperatures (s : State) : Nat :=
  let t := s.thermal
  signedBits 8 t.kiln * 2 ^ 56 + signedBits 8 t.stack * 2 ^ 48 + signedBits 8 t.nand * 2 ^ 40 +
  signedBits 8 t.bank * 2 ^ 32 + signedBits 8 t.coolantIn * 2 ^ 24 + signedBits 8 t.coolantOut * 2 ^ 16 +
  t.hottestStack.toNat * 2 ^ 13 + t.hottestPackage.toNat * 2 ^ 8

/-- THERMAL_STATUS (R589). -/
def thermalStatus (s : State) : Nat :=
  let t := s.thermal
  b2n t.crit * 2 ^ 31 + b2n t.chargePaused * 2 ^ 30 + b2n t.inletHigh * 2 ^ 29 + t.dutyKiln * 2 ^ 20 +
  t.dutyStack * 2 ^ 16 + t.dutyNand * 2 ^ 12 + thermalDuty t

/-- CLOCK_STATUS (R590). -/
def clockStatus (s : State) : Nat :=
  b2n s.clock.refLost * 2 ^ 31 + b2n s.clock.refLostSeen * 2 ^ 30 + s.clock.lossCount

/-- Quoin (R498 to R501, R561 to R567, R588 to R590), its byte structures apart. -/
def quoinReg (s : State) (o : Nat) : RegVal :=
  if o == 0x0 then r32 (b2n s.quoin.busyRefused * 2 ^ 30)
  else if o == 0x8 then r32 (mailStatus s)
  else if o == 0x100 then r64 (bootStatus s)
  else if o == 0x108 then r64 (bondActive s)
  else if o == 0x200 then r64 (powerStatus s)
  else if o == 0x208 then r32 (b2n s.power.wakeReg * 2 ^ 31)
  else if o == 0x210 then r64 (powerInput s)
  else if o == 0x218 then r64 (holdupStatus s)
  else if o == 0x220 then r64 s.holdup.testTime
  else if o == 0x300 then r64 (errorCounts s)
  else if o == 0x308 then r64 s.hw.next
  else if o == 0x400 then r64 (temperatures s)
  else if o == 0x408 then r32 (thermalStatus s)
  else if o == 0x410 then r32 (clockStatus s)
  else none

/-- Lintel (R533 to R535). -/
def lintelReg (s : State) (o : Nat) : RegVal :=
  let l := s.lintel
  if o == 0x0 then
    r64 (l.debug * 2 ^ 62 + b2n l.withheld * 2 ^ 61 + b2n l.fabricKey.isSome * 2 ^ 60 +
      b2n l.entropyFault * 2 ^ 59 + l.fwCounter * 2 ^ 48 + l.bondCounter * 2 ^ 40 +
      boolBits (l.ownerAnchors.map (·.isSome)) * 2 ^ 36 + l.ownerRevoked.toNat * 2 ^ 32 +
      l.vendorRevoked.toNat * 2 ^ 28 + l.keys.length)
  else if o == 0x8 then r64 l.auditNext
  else if o == 0x10 then r64 l.debugExpiry
  else none

/-- Grout (R269, R270). -/
def groutReg (s : State) (c o : Nat) : RegVal :=
  if o == 0x100 then r64 ((kvUnits s c).length * 2 ^ 17 + partKv s c)
  else if o == 0x108 then r64 (s.kv.merged.getD c 0)
  else none

/-- Hod engines (R336, R337). -/
def hodReg (s : State) (e o : Nat) : RegVal :=
  if o == 0x0 then
    let l := boundTo s e
    r32 (sat 0xFFF l.length * 2 ^ 8 + sat 15 (l.filter (·.st == 2)).length * 2 ^ 4 +
      (l.map (·.inFlight.length)).sum)
  else if o == 0x8 then r64 (s.hod.delivered.getD e 0)
  else none

/-- Bricks (R101 to R104, R185). -/
def brickReg (s : State) (b o : Nat) : RegVal :=
  let k := s.bricks.getD b {}
  if o == 0x200 then r32 ((k.urgentQ.length + k.normalQ.length) * 2 ^ 16 + k.slotsInUse)
  else if o == 0x208 then r64 k.hops
  else if o == 0x210 then r64 k.remoteReads
  else if o == 0x218 then r64 k.stalls
  else if o == 0x220 then r32 (s.index.patches.filter (·.brick == b)).length
  else none

/-- The register at an 8-aligned offset of a block (R601). -/
def regAt (s : State) (b : RegBlock) (o : Nat) : RegVal :=
  match b with
  | .sched => schedReg s o
  | .doorbell => if o % 8 == 0 then r32 0 else none
  | .slab => slabReg s o
  | .tier => tierReg s o
  | .plumb => plumbReg s o
  | .uzone => uzoneReg s o
  | .mortar => mortarReg s o
  | .xf => none
  | .time => timeReg s o
  | .quoin => quoinReg s o
  | .lintel => lintelReg s o
  | .grout c => groutReg s c o
  | .riddle _ => none
  | .hod e => hodReg s e o
  | .stack _ => none
  | .brick k => brickReg s k o

/-! ### The capability block (R599, R600) -/

/-- The capability block; reserved bits of the image read 0 (R10). -/
def capability (s : State) : List Byte :=
  let image := s.quoin.active.isSome
  fit 256 (
    header 256 ++ leBytes 4 0x00070128 ++ serialBytes ++ [1, 0] ++ leBytes 2 0x2B3 ++ leBytes 4 60417 ++
    leBytes 4 s.lintel.fwVersion ++ leBytes 4 (imageField s 8 4) ++
    leBytes 2 (uzOffer s).1 ++ leBytes 2 (uzOffer s).2 ++ bondBytes s 10 4 ++ bondBytes s 14 4 ++
    [0, 1, 0, 1] ++ leBytes 1 (uzVersion s).2 ++ leBytes 1 (uzVersion s).1 ++ zeros 6 ++
    [8, 64] ++ leBytes 2 (if kv5Mode s then 128 else 1024) ++ [32, 2, 4, 14, 8] ++
    leBytes 1 (if s.uzone.link.degraded then 8 else 16) ++ zeros 2 ++
    leBytes 2 128 ++ leBytes 2 (512 - deadDies s) ++
    leBytes 8 (if image then tileBytes s else 0) ++ leBytes 8 (if image then bulkShare s else 0) ++
    bondBytes s 0 1 ++ leBytes 1 (bond s 1 1 % 8) ++ zeros 2 ++ bondBytes s 2 4 ++ bondBytes s 20 7 ++ zeros 1 ++
    bondBytes s 28 2 ++ zeros 2 ++ leBytes 1 s.tiers.xfMode ++ zeros 3 ++
    ((List.range 4).flatMap fun i => leBytes 8 (s.tiers.xfBytes.getD i 0)) ++
    leBytes 2 256 ++ leBytes 2 4096 ++ leBytes 2 32 ++ leBytes 2 16384 ++ leBytes 4 1048576 ++
    leBytes 2 4096 ++ [20, 0x0F] ++ leBytes 2 256 ++ leBytes 2 1024 ++ leBytes 4 65536 ++
    leBytes 4 16777216 ++ leBytes 4 1048576 ++ leBytes 2 4096 ++ leBytes 2 4032)

/-! ### Reads (R593, R594) -/

/-- All ones in `n` bytes. -/
def allOnes (n : Nat) : Nat := 2 ^ (8 * n) - 1

/-- MAILBOX_BUFFER and the capability block, which are byte structures. -/
def byteStruct (s : State) (b : RegBlock) (o n : Nat) : Option Nat :=
  if b == .quoin && decide (0x1000 ≤ o) && decide (o < 0x2000) then
    some (fromLE (mailBytes s (o - 0x1000) n))
  else if b == .quoin && decide (0x8000 ≤ o) && decide (o < 0x8100) then
    some (getLE (capability s) (o - 0x8000) n)
  else none

/-- A part of a register, by the access's size. -/
def regPart (eight : Bool) (o : Nat) : RegVal → Nat
  | none => 0
  | some (v, wide) =>
    if eight then v
    else if wide then (if o % 8 == 0 then v % 2 ^ 32 else v / 2 ^ 32)
    else if o % 8 == 0 then v else 0

/-- An access's bytes. -/
def accessBytes (eight : Bool) : Nat := if eight then 8 else 4

/-- What a read returns. -/
def readReg (s : State) (a : Nat) (eight : Bool) : Nat :=
  let n := accessBytes eight
  if a % n != 0 then allOnes n
  else
    match blockAt a with
    | none => allOnes n
    | some (b, o) =>
      if !blockUp s b then allOnes n
      else
        match byteStruct s b o n with
        | some v => v
        | none => regPart eight o (regAt s b (o / 8 * 8))

/-- The RC fields that a read clears (R12, R593): of a 64-bit register only by a read of 8 bytes. -/
def readClears (s : State) (a : Nat) (eight : Bool) : State :=
  if a == 0x60020 && eight then
    { s with uzone := { s.uzone with retrains := 0, replays := 0, checkErrors := 0, uncorrectable := 0 } }
  else if a == 0x50200 && eight then
    { s with plumb := { s.plumb with auditFails := 0, mortarFails := 0, insertFails := 0 } }
  else if a == 0x70028 && eight then
    { s with mortar := { s.mortar with lostCount := 0, regained := 0 } }
  else if a == 0xA0300 && eight then
    { s with hw := { s.hw with corrected := 0, deferred := 0 } }
  else if a == 0x710 then { s with epochs := { s.epochs with delayMax := 0 } }
  else if a == 0xA0410 then { s with clock := { s.clock with lossCount := 0 } }
  else s

/-- The access reaches its block. -/
def reaches (s : State) (a : Nat) (eight : Bool) : Bool :=
  a % accessBytes eight == 0 && ((blockAt a).map fun x => blockUp s x.1).getD false

/-- A read with its effect; the value returned stands in `lastRead`. -/
def readAccess (s : State) (a : Nat) (eight : Bool) : State :=
  let s1 := if reaches s a eight then readClears s a eight else s
  { s1 with lastRead := BitVec.ofNat 64 (readReg s a eight) }

/-! ### Writes (R593 to R597) -/

/-- Where a write comes from, for its audit record (R530). -/
structure Source where
  origin : Nat
  detail : Nat
  digest : List Byte
  deriving DecidableEq, Repr

/-- A write that R529 audits, made with its record and in Serving (R540). -/
def auditedWrite (s : State) (w : Source) (a old new : Nat) (act : State → State) : State :=
  if auditOk s then act (audit (toServing s) w.origin 0x50 [a, old, new] w.detail w.digest)
  else auditFail s

/-- The bits of a mask kept. -/
def maskTo (m v : Nat) : BitVec 64 := BitVec.ofNat 64 (v &&& m)

/-- Writes to the command scheduler. -/
def writeSched (s : State) (w : Source) (a v : Nat) : State :=
  if a == 0x0 then
    (if s.sched.adminEnable then s
     else { s with sched := { s.sched with adminSqBase := maskTo 0xFFFFFFFFFF000 v } })
  else if a == 0x8 then
    (if s.sched.adminEnable then s
     else { s with sched := { s.sched with adminCqBase := maskTo 0xFFFFFFFFFF000 v } })
  else if a == 0x10 then writeAdminControl s v
  else if a == 0x600 then
    auditedWrite s w a s.sched.watchdog v fun s => { s with sched := { s.sched with watchdog := v } }
  else if 0x8000 ≤ a && a < 0x18000 && bit v 58 then
    let q := (a - 0x8000) / 16
    if a % 16 == 0 then updSq s q fun x => { x with dbErr := false }
    else updCq s q fun x => { x with dbErr := false }
  else s

/-- Writes to the tier translator (R301 to R304). -/
def writeTier (s : State) (w : Source) (a o v : Nat) : State :=
  if o == 0x0 then
    (if s.tiers.enable || !s.tiers.faults.isEmpty then s
     else auditedWrite s w a s.tiers.queueBase.toNat (v &&& 0xFFFFFFFFFF000) fun s =>
      { s with tiers := { s.tiers with queueBase := maskTo 0xFFFFFFFFFF000 v } })
  else if o == 0x8 then writeTierControl s (BitVec.ofNat 32 v)
  else if o == 0x10 then
    auditedWrite s w a s.tiers.timeout v fun s => { s with tiers := { s.tiers with timeout := v } }
  else s

/-- Writes to the Plumb block (R326, R338, R339). -/
def writePlumb (s : State) (o v : Nat) : State :=
  let u := o / 0x40
  let k := o % 0x40
  if 0x100 ≤ o then s
  else if k == 0x0 then updUnit s u fun p => { p with config := BitVec.ofNat 32 (v % 1024) }
  else if k == 0x8 then updUnit s u fun p => { p with poly := BitVec.ofNat 64 v }
  else if k == 0x10 then updUnit s u fun p => { p with init := BitVec.ofNat 64 v }
  else s

/-- MORTAR_EXPORT may take a value (R473, R597). -/
def exportOk (s : State) (v : Nat) : Bool :=
  decide (bits v 17 0 ≤ 131072) &&
  (!s.mortar.exportReg.getLsbD 63 ||
    (bits v 39 21 == bits s.mortar.exportReg.toNat 39 21 && bits v 17 0 == bits s.mortar.exportReg.toNat 17 0))

/-- A value of MORTAR_TOPOLOGY whose MODE and roles R469 lists. -/
def topologyOk (v : Nat) : Bool :=
  decide (bits v 63 62 ≤ 1) && decide (bits v 61 58 ≤ 7) && decide (bits v 57 54 ≤ 7)

/-- Writes to the Mortar controller (R11, R469 to R474). -/
def writeMortar (s : State) (w : Source) (a o v : Nat) : State :=
  let m := s.mortar
  if o == 0x0 then
    let n := v &&& 0xFFFFFFFFFFFF9FFF
    if portEnable s != 0 || !topologyOk v then s
    else auditedWrite s w a m.topology.toNat n fun s =>
      { s with mortar := { s.mortar with topology := BitVec.ofNat 64 n } }
  else if o == 0x8 then
    auditedWrite s w a m.control.toNat (v % 65536) fun s => writePortControl s v
  else if o == 0x10 then
    let n := v &&& 0xFFFFFFFFFE001
    auditedWrite s w a m.shardBase.toNat n fun s =>
      { s with mortar := { s.mortar with shardBase := BitVec.ofNat 64 n } }
  else if o == 0x18 then
    let n := v &&& 0x800000FFFFE3FFFF
    if !exportOk s v then s
    else auditedWrite s w a m.exportReg.toNat n fun s =>
      { s with mortar := { s.mortar with exportReg := BitVec.ofNat 64 n } }
  else if o == 0x20 then
    auditedWrite s w a m.timeout v fun s => { s with mortar := { s.mortar with timeout := v } }
  else s

/-- MAILBOX_CONTROL (R498): the bit is cleared before the GO of the same write acts (R13). -/
def writeMailControl (s : State) (v : Nat) : State :=
  let s1 := { s with quoin := { s.quoin with busyRefused := s.quoin.busyRefused && !bit v 30 } }
  if bit v 31 && mailUp s then writeGo s1 else s1

/-- Bytes into MAILBOX_BUFFER, ignored while a request runs (R485). -/
def writeMailBuffer (s : State) (off n v : Nat) : State :=
  if s.quoin.mbState == 1 then s
  else { s with quoin := { s.quoin with mailbox := putBuffer s.quoin.mailbox off (leBytes n v) } }

/-- Writes to Quoin. -/
def writeQuoin (s : State) (o v : Nat) : State :=
  if o == 0x0 then writeMailControl s v
  else if o == 0x208 then (if bit v 31 then writeWake s else s)
  else if o == 0x410 then
    { s with clock := { s.clock with refLostSeen := s.clock.refLostSeen && !bit v 30 } }
  else s

/-- Writes to the doorbells (R383, R497). -/
def writeDoorbell (s : State) (o v : Nat) : State :=
  if s.quoin.stage != 7 then s
  else if o % 16 == 0 then ringTail s (o / 16) (v % 4096)
  else ringHead s (o / 16) (v % 4096)

/-- A write of a whole register. -/
def writeRegOf (s : State) (w : Source) (b : RegBlock) (a o v : Nat) : State :=
  match b with
  | .sched => writeSched s w a v
  | .doorbell => writeDoorbell s o v
  | .slab => s
  | .tier => writeTier s w a o v
  | .plumb => writePlumb s o v
  | .uzone => s
  | .mortar => writeMortar s w a o v
  | .xf => s
  | .time => if o == 0x8 then setTime s w.origin w.detail w.digest v else s
  | .quoin => writeQuoin s o v
  | .lintel => s
  | .grout _ => s
  | .riddle _ => s
  | .hod _ => s
  | .stack _ => s
  | .brick _ => s

/-- The value that a write gives a register of which `cur` is the contents: none where the access's
size does not write it (R593). -/
def writeValue (eight : Bool) (o v : Nat) : RegVal → Option Nat
  | none => none
  | some (_, wide) =>
    if o % 8 != 0 then none
    else if wide then (if eight then some v else none)
    else some (v % 2 ^ 32)

/-- A write. -/
def writeReg (s : State) (w : Source) (a : Nat) (eight : Bool) (v : Nat) : State :=
  if !reaches s a eight then s
  else
    match blockAt a with
    | none => s
    | some (b, o) =>
      if b == .quoin && decide (0x1000 ≤ o) && decide (o < 0x2000) then
        writeMailBuffer s (o - 0x1000) (accessBytes eight) v
      else
        match writeValue eight o v (regAt s b (o / 8 * 8)) with
        | none => s
        | some v => writeRegOf s w b a o v

/-- A write that reaches its register with a value outside a field's range, which is refused whole (R11). -/
def valueRefused (s : State) (a : Nat) (eight : Bool) (v : Nat) : Bool :=
  reaches s a eight && eight && a == 0x70000 && !topologyOk v

/-! ### MMIO over Uzone (R496, R497, R595) -/

/-- Requests of the companion arrive at all. -/
def mmioIn (s : State) : Bool :=
  decide (3 ≤ s.quoin.stage) && !s.pins.scanned && s.power.domains.getLsbD 20

/-- It reaches an address: before READY only Quoin and the Uzone controller. -/
def mmioServed (s : State) (a : Nat) : Bool :=
  s.quoin.stage == 7 || ((blockAt a).map fun x => x.1 == .quoin || x.1 == .uzone).getD false

/-- A read over Uzone. -/
def mmioRead (s : State) (a : Nat) (eight : Bool) : State :=
  if !mmioIn s then s
  else if mmioServed s a then readAccess s a eight
  else { s with lastRead := BitVec.ofNat 64 (allOnes (accessBytes eight)) }

/-- A write over Uzone. -/
def mmioWrite (s : State) (a : Nat) (eight : Bool) (v : Nat) : State :=
  if mmioIn s && mmioServed s a then
    writeReg s { origin := 4, detail := 0, digest := leBytes 4 a ++ leBytes (accessBytes eight) v }
      a eight v
  else s

/-! ### IDENTIFY (R368) -/

def identSelector (c : Cmd) : Nat := entField c 64 1

def identifyErr (s : State) (c : Cmd) : Option Err :=
  firstErr [must (identSelector c != 1 || (findColl s (entColl c)).isSome) noColl, resultErr c,
    must (decide (identSelector c ≤ 1)) (invalid 0 0 64)]

/-- A collection descriptor as it reads back: its reserved bits 0 (R10, R38). -/
def shownDesc (d : List Byte) : List Byte :=
  d.take 13 ++ leBytes 1 (byteAt d 13 % 2) ++ (d.drop 14).take 38 ++ zeros 12

/-- The collection description. -/
def describe (s : State) (k : Coll) : List Byte :=
  header 640 ++ leBytes 4 k.segments.length ++ leBytes 8 k.nextSlot ++
  leBytes 8 (k.slots.filter fun x => visible s k s.epochs.published x.num == .live).length ++
  leBytes 8 s.epochs.published ++ fit 64 (shownDesc k.desc) ++
  fit 512 (k.extents.flatMap (leBytes 8)) ++ zeros 32

/-- What IDENTIFY returns. -/
def identPayload (s : State) (c : Cmd) : List Byte :=
  if identSelector c == 0 then capability s
  else ((findColl s (entColl c)).map (describe s)).getD []

def actIdentify (s : State) (c : Cmd) : State :=
  succeed (slotReady s c.id (entResult c) 0 (identPayload s c) 0xFFFFFFFF) c 0 0 0 0 0

def execIdentify (q : QueueId) (s : State) : Host.Outcome State Fault Refusal :=
  .next (runCommand s q.toNat (opIs 0x6F) identifyErr noRanges noErr
    (fun _ c => oneSlot (if identSelector c == 0 then 256 else 640) c) actIdentify)

end Sys2Proof.Machine
end

