-- ==== Sys2Proof/Machine/Quoin.lean ====
section
/-!
DEFINITION. Quoin's own mailbox requests (R484, R488 to R491, R493, R513, R549), register access by the
mailbox (R484), and what travels over SMBus beside the mailbox (R487, R572, R580 to R582).
-/

namespace Sys2Proof.Machine

/-! ### READ_REGISTER and WRITE_REGISTER (R484) -/

/-- ARG1 of a register request. -/
def regSizeOk (req : List Byte) : Bool := rArg req 1 == 4 || rArg req 1 == 8

/-- A request over SMBus whose opcode no row takes ends here too (R484). -/
def execReadRegister (r : MailReq) (s : State) : Host.Outcome State Fault Refusal :=
  .next (mailRun s r 0x01 true fun s req =>
    if !regSizeOk req then mailEnd s 0x10
    else
      let s1 := readAccess s (rArg req 0) (rArg req 1 == 8)
      mailDone s1 0 (rArg req 0) (rArg req 1) s1.lastRead.toNat [])

/-- What a register write leaves the request with: INTEGRITY where the audit stream has failed (R532). -/
def writeStatus (before after : State) : Nat :=
  if !auditOk before && before.hw.next != after.hw.next then 0x30 else 0

def execWriteRegister (r : MailReq) (s : State) : Host.Outcome State Fault Refusal :=
  .next (mailRun s r 0x02 false fun s req =>
    if !regSizeOk req then mailEnd s 0x10
    else
      let n := rArg req 1
      if valueRefused s (rArg req 0) (n == 8) (rArg req 2) then mailEnd s 0x10
      else
      let s1 := writeReg s { origin := mailOrigin s, detail := rOpcode req, digest := req }
        (rArg req 0) (n == 8) (rArg req 2 % 2 ^ (8 * n))
      mailEnd s1 (writeStatus s s1))

/-! ### Staging (R484, R488) -/

def execBondStage (r : MailReq) (s : State) : Host.Outcome State Fault Refusal :=
  .next (mailRun s r 0x10 false fun s req =>
    stageRequest s req 65536 s.quoin.bondStaging fun s b =>
      { s with quoin := { s.quoin with bondStaging := b } })

def execFirmwareStage (r : MailReq) (s : State) : Host.Outcome State Fault Refusal :=
  .next (mailRun s r 0x21 false fun s req =>
    stageRequest s req 65536 s.quoin.fwStaging fun s b =>
      { s with quoin := { s.quoin with fwStaging := b } })

/-! ### Draining (R489 step 8, R491, R493) -/

/-- Nothing is fetched any more; a drain begins, or, with none asked for or nothing in flight, the
request goes on at once. -/
def stopFetching (s : State) (drain : Bool) (go : State → State) : State :=
  let s1 := { s with sched := { s.sched with stopped := true } }
  if drain && !s.sched.cmds.isEmpty then
    { s1 with quoin := { s1.quoin with drain := some (now s) } }
  else go s1

/-! ### BOND_APPLY (R489) -/

/-- The module as an image would make it. -/
def underImage (s : State) (img : List Byte) : State :=
  { s with quoin := { s.quoin with active := some img } }

/-- Units named in a course's index-cache or key-value partition have a home. -/
def courseHomes (s : State) (c : Nat) : Bool :=
  let here := fun (u : Nat) => decide (kvLo s c ≤ u) && decide (u < indexHi c)
  let names := (s.index.colls.flatMap fun k => k.areas.flatMap fun a =>
    unitsOf { addr := a.name, len := a.bytes }) ++ kvUnits s c
  s.tiers.entries.any (fun e => here e.unit && e.home != .vacant) ||
  names.any fun u => here u && homeOf s u != .vacant

/-- Some boundary of a course's partitions moves. -/
def partsMove (s n : State) (c : Nat) : Bool :=
  partStaging s c != partStaging n c || partKv s c != partKv n c || partIndex s c != partIndex n c

/-- The flush target of one Brick: two areas of 64 MiB (R546). -/
def flushBytes : Nat := 2 * 64 * 2 ^ 20

/-- Some Brick's Tile space in use, or the Bulk space in use, exceeds the new shares. -/
def sharesShort (s n : State) : Bool :=
  ((List.range 64).any fun b => decide (tileOf n b < (s.bricks.getD b {}).tileUsed + flushBytes)) ||
  decide (bulkShare n < bulkInUse s)

/-- Steps 2 to 5: what refuses an image of `n` bytes. -/
def applyErr (s : State) (img : List Byte) (n : Nat) : Option Nat :=
  if 65536 < n then some 0x10
  else
    match imageErr s img n with
    | some e => some e
    | none =>
      let t := underImage s img
      if !kv5Mode t && s.index.colls.any (fun k => dKv5 k.desc) then some 0x10
      else if s.quoin.active.isSome &&
        (List.range 8).any (fun c => partsMove s t c && courseHomes s c) then some 0x14
      else if sharesShort s t then some 0x14
      else none

/-- The slot that holds no active image. -/
def inactiveSlot (s : State) : Nat :=
  1 - (if s.quoin.active.isSome then s.quoin.slot else s.quoin.selector)

/-- Steps 9 and 10. -/
def applySwitch (s : State) : State :=
  let n := inactiveSlot s
  let img := s.quoin.slots.getD n []
  mailAudited { s with sched := { s.sched with stopped := false } } 0x10
    [getLE img 8 4, byteAt img 64] img fun s =>
      moduleReset { s with quoin := { s.quoin with selector := n } } 3 true

def execBondApply (r : MailReq) (s : State) : Host.Outcome State Fault Refusal :=
  .next (mailRun s r 0x11 false fun s req =>
    let n := rArg req 0
    let img := getBuffer s.quoin.bondStaging 0 (min n 65536)
    match applyErr s img n with
    | some st => mailFail s st
    | none =>
      let s1 := { s with
        quoin := { s.quoin with slots := modAt s.quoin.slots (inactiveSlot s) fun _ => img } }
      stopFetching s1 (bit (rArg req 1) 0) applySwitch)

/-! ### MODULE_RESET, and the end of a drain (R489, R493) -/

/-- The reset of MODULE_RESET. -/
def requestReset (s : State) : State := moduleReset s 2 true

def execModuleReset (r : MailReq) (s : State) : Host.Outcome State Fault Refusal :=
  .next (mailRun s r 0x20 false fun s req =>
    if bit (rArg req 1) 0 then stopFetching s true requestReset else requestReset s)

/-- The drain ends, by its second or with nothing left in flight. -/
def execDrainTimeout (s : State) : Host.Outcome State Fault Refusal :=
  .next (if s.quoin.drain.isNone then s
    else
      let s1 := { s with quoin := { s.quoin with drain := none } }
      if s.quoin.mbOpcode == 0x11 then applySwitch s1 else requestReset s1)

/-! ### FIRMWARE_ACTIVATE (R513) -/

/-- The staged package, by its PACKAGE_BYTES. -/
def stagedPackage (s : State) : List Byte :=
  getBuffer s.quoin.fwStaging 0 (min 65536 (fromLE (getBuffer s.quoin.fwStaging 4 4)))

def execFirmwareActivate (r : MailReq) (s : State) : Host.Outcome State Fault Refusal :=
  .next (mailRun s r 0x22 false fun s _ =>
    let p := stagedPackage s
    match packageErr s p p.length with
    | some st => mailFail s st
    | none =>
      let n := 1 - s.lintel.fwSlot
      mailAudited s 0x11 [getLE p 8 4] p fun s =>
        moduleReset { s with
          lintel := { s.lintel with
            fwSlots := modAt s.lintel.fwSlots n fun _ => p
            fwSelector := n } } 4 true)

/-! ### Hold-up tests (R549) -/

/-- A test, or the one that runs. -/
def execHoldupTest (r : MailReq) (s : State) : Host.Outcome State Fault Refusal :=
  .next (mailRun s r 0x31 false fun s _ =>
    { s with holdup := { s.holdup with testing := true, mailTest := true } })

/-- HEALTH in mJ from the voltages in mV: ½ C (35² - 15²), with C = 20 J / (V1² - V2²). -/
def healthOf (v1 v2 : Nat) : Nat := sat 0xFFFFF (10 ^ 13 / (v1 * v1 - v2 * v2))

/-- HEALTH after a test; a test whose voltage does not fall has failed and leaves it. -/
def newHealth (s : State) (v1 v2 : Nat) : Nat := if v2 < v1 then healthOf v1 v2 else s.holdup.health

/-- A HOLDUP_BANK record is written: HEALTH has crossed its floor, or the test has failed (R559). -/
def bankRecord (s : State) (v1 v2 : Nat) : Bool :=
  decide (v1 ≤ v2) || (decide (30000 ≤ s.holdup.health) && decide (newHealth s v1 v2 < 30000))

/-- The figures of a test that has ended. -/
def testEnd (s : State) (v1 v2 storedMj : Nat) : State :=
  let h := newHealth s v1 v2
  let stored := sat 0xFFFFF storedMj
  { s with
    holdup := { s.holdup with
      health := h
      stored := stored
      below := belowFloor h stored
      testing := false
      mailTest := false
      charging := false
      testTime := now s } }

def execHoldupTestEnd (v1 v2 storedMj : Nat) (s : State) : Host.Outcome State Fault Refusal :=
  .next (if s.holdup.testing then
      let s1 := testEnd s v1 v2 storedMj
      let s2 := if bankRecord s v1 v2 then hwError s1 1 0x40 0 s1.holdup.health 0 0 else s1
      if s.holdup.mailTest && s.quoin.mbState == 1 && s.quoin.mbOpcode == 0x31 then
        mailDone s2 0 s2.holdup.health s2.holdup.stored (rArg s.quoin.mbRequest 2) []
      else s2
    else s)

/-! ### Telemetry (R487, R582) -/

/-- The body of a telemetry response. -/
def telemetryBody (s : State) : List Byte :=
  header 80 ++ leBytes 4 (mailStatus s) ++ leBytes 8 (bootStatus s) ++ leBytes 8 (bondActive s) ++
  leBytes 8 (powerStatus s) ++ leBytes 8 (powerInput s) ++ leBytes 8 (holdupStatus s) ++
  leBytes 8 (errorCounts s) ++ leBytes 8 (temperatures s) ++ leBytes 4 (thermalStatus s) ++
  leBytes 4 (clockStatus s) ++ leBytes 8 (if s.time.valid then s.time.ns.toNat else 0)

def execTelemetryRequest (s : State) : Host.Outcome State Fault Refusal :=
  .next (if mailUp s then
      { s with quoin := { s.quoin with telemetry := vendorMessage 2 (telemetryBody s) } }
    else s)

/-! ### MCTP control messages (R580) -/

/-- A response to a control message, its completion code first (DSP0236, PRESUMED, log 61). -/
def mctpAnswer (s : State) (bs : List Byte) : State :=
  if mailUp s then { s with quoin := { s.quoin with mctpReply := bs } } else s

/-- Bytes of a response that the manual does not state. -/
def freeBytes (s : State) (n : Nat) : List Byte := (List.range n).map fun i => Config.freeByte s.drawn i

/-- The endpoint identifiers 0 and 0xFF are refused as invalid data (DSP0236, PRESUMED, log 61). -/
def execSetEndpointId (eid : Byte) (s : State) : Host.Outcome State Fault Refusal :=
  .next (if eid == 0 || eid == 0xFF then mctpAnswer s [2]
    else mctpAnswer { s with
      quoin := { s.quoin with endpointId := if mailUp s then eid else s.quoin.endpointId } } [0, 0, eid, 0])

def execGetEndpointId (s : State) : Host.Outcome State Fault Refusal :=
  .next (mctpAnswer s [0, s.quoin.endpointId, 0, 0])

/-- One version entry, which the manual does not state. -/
def execGetMctpVersionSupport (s : State) : Host.Outcome State Fault Refusal :=
  .next (mctpAnswer { s with drawn := s.drawn + 1 } ([0, 1] ++ freeBytes s 4))

/-- The one type beside control messages (R581). -/
def execGetMessageTypeSupport (s : State) : Host.Outcome State Fault Refusal :=
  .next (mctpAnswer s [0, 1, 0x7F])

/-- The enterprise number of R581 in the byte order of DSP0236; the version word after it is not
stated. -/
def execGetVendorDefinedMessageSupport (s : State) : Host.Outcome State Fault Refusal :=
  .next (mctpAnswer { s with drawn := s.drawn + 1 } ([0, 0xFF, 1, 0, 0, 0xEC, 0x01] ++ freeBytes s 2))

/-! ### SMB_ALERT# (R572) -/

def execSmbusAlertResponse (s : State) : Host.Outcome State Fault Refusal :=
  .next { s with pins := { s.pins with smbAlert := false } }

end Sys2Proof.Machine
end

