-- ==== Sys2Proof/Machine/Pins.lean ====
section
/-!
DEFINITION. The test access port and its boundary scan (R583, R584).
-/

namespace Sys2Proof.Machine

/-- EXTEST, CLAMP and HIGHZ are executed: in MANAGEMENT_ONLY, or in a cold boot before step 3 (R584). -/
def scanAllowed (s : State) : Bool :=
  s.quoin.stage == 8 || (decide (s.quoin.stage < 3) && s.quoin.resetCause == 0)

/-- The TAP runs from the always-on domain. -/
def tapOn (s : State) : Bool := s.power.aonOn

/-- Another of the port's public instructions. -/
def tapSet (s : State) (ir : Nat) (tdr : BitVec 32) : State :=
  if tapOn s then { s with pins := { s.pins with ir := ir, tdr := tdr, highz := false } } else s

/-- One of the three: executed, or as BYPASS. An executed one stops every service until RST# or a
cold boot. -/
def scanIns (s : State) (ir : Nat) : State :=
  if !tapOn s then s
  else if scanAllowed s then
    { s with pins := { s.pins with ir := ir, tdr := 0, highz := ir == 5, scanned := true } }
  else { s with pins := { s.pins with ir := 0, tdr := 0, highz := false } }

def execExtest (s : State) : Host.Outcome State Fault Refusal := .next (scanIns s 3)
def execClamp (s : State) : Host.Outcome State Fault Refusal := .next (scanIns s 4)
def execHighz (s : State) : Host.Outcome State Fault Refusal := .next (scanIns s 5)

/-- SAMPLE/PRELOAD: the pins' values stand in the boundary register. -/
def execSamplePreload (pins : List Bool) (s : State) : Host.Outcome State Fault Refusal :=
  .next (if tapOn s then
      { s with pins := { s.pins with ir := 2, boundary := pins, highz := false } }
    else s)

/-- IDCODE: silicon revision 1, part 0x7128, manufacturer 0x2B3 (R583, R599). -/
def idcodeValue : BitVec 32 := 0x17128567

def execIdcode (s : State) : Host.Outcome State Fault Refusal := .next (tapSet s 1 idcodeValue)

/-- BYPASS puts one bit, 0, between TDI and TDO. -/
def execBypass (s : State) : Host.Outcome State Fault Refusal := .next (tapSet s 0 0)

/-- TRST#: the controller is reset, and IDCODE is the instruction (IEEE 1149.1). -/
def execTapReset (s : State) : Host.Outcome State Fault Refusal := .next (tapSet s 1 idcodeValue)

end Sys2Proof.Machine
end

