-- ==== Sys2Proof/Machine/Serve.lean ====
section
/-!
DEFINITION. The companion's requests, in arrival order (R419 to R421, R431, R596), and the commands that let
a held one go on.
-/

namespace Sys2Proof.Machine

/-! ### MMIO requests (R419, R593) -/

/-- An access of the companion to the control space: its address and size, and the value that it writes
with its TAG. -/
structure Mmio where
  addr : Nat
  eight : Bool
  write : Option (Nat × Nat)
  deriving DecidableEq, Repr

/-- The access that a command is: the doorbells (R383), ADMIN_QUEUE_CONTROL (R377), the fault queue (R302),
FABRIC_TIME_SET (R402), MORTAR_PORT_CONTROL (R471), any write, and the reads that clear. -/
def mmioOf : Instr → Option Mmio
  | .sqTailDoorbell q w => some ⟨0x20000 + 16 * q.toNat, false, some (w.value.toNat, w.tag.toNat)⟩
  | .cqHeadDoorbell q w => some ⟨0x20008 + 16 * q.toNat, false, some (w.value.toNat, w.tag.toNat)⟩
  | .adminQueueEnable w => some ⟨0x10, false, some ((w.value ||| 0x80000000).toNat, w.tag.toNat)⟩
  | .adminQueueRetry w => some ⟨0x10, false, some ((w.value ||| 0x40000000).toNat, w.tag.toNat)⟩
  | .adminQueueSkip w => some ⟨0x10, false, some ((w.value ||| 0x20000000).toNat, w.tag.toNat)⟩
  | .tierFaultQueueHead w => some ⟨0x40008, false, some (w.value.toNat, w.tag.toNat)⟩
  | .tierFaultQueueEnable w => some ⟨0x40008, false, some ((w.value ||| 0x80000000).toNat, w.tag.toNat)⟩
  | .fabricTimeSet w => some ⟨0x90008, true, some (w.value.toNat, w.tag.toNat)⟩
  | .mortarPortEnable w => some ⟨0x70008, false, some (w.value.toNat, w.tag.toNat)⟩
  | .registerWrite a e w => some ⟨a.toNat, e,
      some (w.value.toNat % 2 ^ (8 * accessBytes e), w.tag.toNat)⟩
  | .uzoneErrorCountsRead => some ⟨0x60020, true, none⟩
  | .plumbAliveFailuresRead => some ⟨0x50200, true, none⟩
  | .mortarPeerEventsRead => some ⟨0x70028, true, none⟩
  | .errorCountsRead => some ⟨0xA0300, true, none⟩
  | .epochPublishDelayRead => some ⟨0x710, false, none⟩
  | .clockStatusRead => some ⟨0xA0410, false, none⟩
  | _ => none

/-- An access made, with its CMP or MMIO_DATA (R419, R421); the rows of reads do not bring the TAG of theirs,
which is a free value (log 141). -/
def mmioOne (s : State) (x : Mmio) : State :=
  match x.write with
  | some (v, tag) => answer (mmioWrite s x.addr x.eight v) (.cmpResp tag 0)
  | none =>
    let s1 := mmioRead s x.addr x.eight
    answer { s1 with drawn := s1.drawn + 1 }
      (.mmioData (Config.freeChoice s1.drawn % 4096) x.eight s1.lastRead)

/-! ### Requests in order (R420, R421) -/

/-- One request served, and whether it is over. -/
def serveOne (s : State) (i : Instr) : State × Bool :=
  match mmioOf i with
  | some x => (mmioOne s x, true)
  | none => devOne s i

/-- The held requests are served in arrival order, up to one that must wait (R421). -/
def serveHeld (s : State) : State := serveWith serveOne s.uzone.heldDev.length s

/-- An answer to a request of the companion. -/
def isAnswer : Msg → Bool
  | .dataResp _ _ _ => true
  | .cmpResp _ _ => true
  | .mmioData _ _ _ => true
  | _ => false

/-- The requests of the companion that are outstanding: held, or with an answer that has not been sent. -/
def outstanding (s : State) : Nat :=
  s.uzone.heldDev.length + (s.uzone.link.waiting.filter isAnswer).length

/-- A request of the companion arrives, once Uzone can be up and no scan has stopped the module (R496,
R584), over a link that is ACTIVE or wakes for it (R431). One beyond 256 is
a protocol error: the link retrains, and it is not executed (R415, R420). -/
def companionRequest (s : State) (i : Instr) : State :=
  if !(mmioIn s && uzAwake s) then s
  else if 256 ≤ outstanding s then retrainUzone s
  else serveHeld { s with
    uzone := pumpUzone { s.uzone with
      link := linkWake s.uzone.link, heldDev := s.uzone.heldDev ++ [i] } }

def execDevRd (addr : Addr) (lines : BitVec 2) (tag : BitVec 12) (s : State) :
    Host.Outcome State Fault Refusal :=
  .next (companionRequest s (.devRd addr lines tag))

def execDevWr (addr : Addr) (data : List Byte) (tag : BitVec 12) (s : State) :
    Host.Outcome State Fault Refusal :=
  .next (companionRequest s (.devWr addr data tag))

def execDevWrPartial (addr : Addr) (mask : BitVec 64) (data : List Byte) (tag : BitVec 12)
    (s : State) : Host.Outcome State Fault Refusal :=
  .next (companionRequest s (.devWrPartial addr mask data tag))

def execSqTailDoorbell (q : QueueId) (w : Written 32) (s : State) :
    Host.Outcome State Fault Refusal :=
  .next (companionRequest s (.sqTailDoorbell q w))

def execCqHeadDoorbell (q : QueueId) (w : Written 32) (s : State) :
    Host.Outcome State Fault Refusal :=
  .next (companionRequest s (.cqHeadDoorbell q w))

def execAdminQueueEnable (w : Written 32) (s : State) :
    Host.Outcome State Fault Refusal :=
  .next (companionRequest s (.adminQueueEnable w))

def execAdminQueueRetry (w : Written 32) (s : State) :
    Host.Outcome State Fault Refusal :=
  .next (companionRequest s (.adminQueueRetry w))

def execAdminQueueSkip (w : Written 32) (s : State) :
    Host.Outcome State Fault Refusal :=
  .next (companionRequest s (.adminQueueSkip w))

def execTierFaultQueueHead (w : Written 32) (s : State) :
    Host.Outcome State Fault Refusal :=
  .next (companionRequest s (.tierFaultQueueHead w))

def execTierFaultQueueEnable (w : Written 32) (s : State) :
    Host.Outcome State Fault Refusal :=
  .next (companionRequest s (.tierFaultQueueEnable w))

def execFabricTimeSet (w : Written 64) (s : State) :
    Host.Outcome State Fault Refusal :=
  .next (companionRequest s (.fabricTimeSet w))

def execMortarPortEnable (w : Written 32) (s : State) :
    Host.Outcome State Fault Refusal :=
  .next (companionRequest s (.mortarPortEnable w))

def execRegisterWrite (addr : BitVec 32) (eight : Bool) (w : Written 64)
    (s : State) : Host.Outcome State Fault Refusal :=
  .next (companionRequest s (.registerWrite addr eight w))

def execUzoneErrorCountsRead (s : State) : Host.Outcome State Fault Refusal :=
  .next (companionRequest s .uzoneErrorCountsRead)

def execPlumbAliveFailuresRead (s : State) : Host.Outcome State Fault Refusal :=
  .next (companionRequest s .plumbAliveFailuresRead)

def execMortarPeerEventsRead (s : State) : Host.Outcome State Fault Refusal :=
  .next (companionRequest s .mortarPeerEventsRead)

def execErrorCountsRead (s : State) : Host.Outcome State Fault Refusal :=
  .next (companionRequest s .errorCountsRead)

def execEpochPublishDelayRead (s : State) : Host.Outcome State Fault Refusal :=
  .next (companionRequest s .epochPublishDelayRead)

def execClockStatusRead (s : State) : Host.Outcome State Fault Refusal :=
  .next (companionRequest s .clockStatusRead)

/-! ### What lets a held request go on -/

/-- A course with power (R32). -/
def execDomainReady (domain : Nat) (s : State) : Host.Outcome State Fault Refusal :=
  .next (serveHeld (domainReady s domain))

/-- A unit that has been moved (R294). -/
def execMigrateUnitDone (cmd : Nat) (result : CopyEnd) (s : State) :
    Host.Outcome State Fault Refusal :=
  .next (serveHeld (unitDone s cmd result))

/-- A flit that brings the link to ACTIVE. -/
def execUzoneFlitReceived (flit : List Byte) (low high : List Nat) (s : State) :
    Host.Outcome State Fault Refusal :=
  .next (serveHeld (uzFlit s flit (laneErrors low high)))

/-- The answers of the companion, of a neighbour or of an expander to an access that a request has made. -/
def execGrantE (tag : BitVec 12) (s : State) : Host.Outcome State Fault Refusal :=
  .next (serveHeld (grantIn s tag.toNat))

def execData (tag : BitVec 12) (_grant : BitVec 2) (status : BitVec 16) (bytes : List Byte)
    (s : State) : Host.Outcome State Fault Refusal :=
  .next (serveHeld (dataIn s tag.toNat status.toNat bytes))

def execCmp (tag : BitVec 12) (status : BitVec 16) (s : State) :
    Host.Outcome State Fault Refusal :=
  .next (serveHeld (cmpIn s tag.toNat status.toNat))

def execRemoteData (h : MortarHeader) (bytes : List Byte) (s : State) :
    Host.Outcome State Fault Refusal :=
  .next (serveHeld (mortarIn s h fun s =>
    match reqOf s h with
    | none => s
    | some r => withPieces s h bytes fun s all => takeRemote s r all))

def execRemoteCmp (h : MortarHeader) (status : Byte) (s : State) :
    Host.Outcome State Fault Refusal :=
  .next (serveHeld (mortarIn s h fun s =>
    match reqOf s h with
    | none => s
    | some r => takeStatus s r status.toNat))

def execXfReadResponse (who : FarRead) (poison : Bool) (s : State) :
    Host.Outcome State Fault Refusal :=
  .next (serveHeld (farAnswer s who poison))

/-- An XF link goes down, with its record (R298, R559). -/
def execXfLinkDown (link : BitVec 2) (s : State) : Host.Outcome State Fault Refusal :=
  let l := link.toNat
  .next (if s.tiers.xfUp.getD l false then serveHeld (farLost (hwError s 1 0x32 l 0 0x40 0) l) else s)

end Sys2Proof.Machine
end

