-- ==== Sys2Proof/Machine/Dispatch.lean ====
section
/-!
DEFINITION. The dispatch of commands: one arm per row of spec/opcode_table.json.
-/

namespace Sys2Proof.Machine

def exec (i : Instr) (s : State) : Host.Outcome State Fault Refusal :=
  match i with
  | .search q => Sys2Proof.Machine.execSearch q s
  | .searchBatch q => Sys2Proof.Machine.execSearchBatch q s
  | .rerank q => Sys2Proof.Machine.execRerank q s
  | .scan q => Sys2Proof.Machine.execScan q s
  | .project q => Sys2Proof.Machine.execProject q s
  | .insert q => Sys2Proof.Machine.execInsert q s
  | .delete q => Sys2Proof.Machine.execDelete q s
  | .update q => Sys2Proof.Machine.execUpdate q s
  | .epochSetSchedule q => Sys2Proof.Machine.execEpochSetSchedule q s
  | .epochCancelSchedule q => Sys2Proof.Machine.execEpochCancelSchedule q s
  | .epochPublishNow q => Sys2Proof.Machine.execEpochPublishNow q s
  | .epochSetFloor q => Sys2Proof.Machine.execEpochSetFloor q s
  | .compact q => Sys2Proof.Machine.execCompact q s
  | .repair q => Sys2Proof.Machine.execRepair q s
  | .collectionCreate q => Sys2Proof.Machine.execCollectionCreate q s
  | .collectionDrop q => Sys2Proof.Machine.execCollectionDrop q s
  | .kvCreate q => Sys2Proof.Machine.execKvCreate q s
  | .kvAppend q => Sys2Proof.Machine.execKvAppend q s
  | .kvAttend q => Sys2Proof.Machine.execKvAttend q s
  | .kvEvict q => Sys2Proof.Machine.execKvEvict q s
  | .kvEvictAll q => Sys2Proof.Machine.execKvEvictAll q s
  | .kvSwapOut q => Sys2Proof.Machine.execKvSwapOut q s
  | .kvSwapIn q => Sys2Proof.Machine.execKvSwapIn q s
  | .kvDestroy q => Sys2Proof.Machine.execKvDestroy q s
  | .matmul q => Sys2Proof.Machine.execMatmul q s
  | .rescaleLoad q => Sys2Proof.Machine.execRescaleLoad q s
  | .hodStream q => Sys2Proof.Machine.execHodStream q s
  | .hodChain q => Sys2Proof.Machine.execHodChain q s
  | .plumbScan q => Sys2Proof.Machine.execPlumbScan q s
  | .migrateMove q => Sys2Proof.Machine.execMigrateMove q s
  | .migratePlace q => Sys2Proof.Machine.execMigratePlace q s
  | .migrateVacate q => Sys2Proof.Machine.execMigrateVacate q s
  | .migrateFaultOn q => Sys2Proof.Machine.execMigrateFaultOn q s
  | .migrateFaultOff q => Sys2Proof.Machine.execMigrateFaultOff q s
  | .queueCreate q => Sys2Proof.Machine.execQueueCreate q s
  | .queueDelete q => Sys2Proof.Machine.execQueueDelete q s
  | .queueRestartRetry q => Sys2Proof.Machine.execQueueRestartRetry q s
  | .queueRestartSkip q => Sys2Proof.Machine.execQueueRestartSkip q s
  | .logRead q => Sys2Proof.Machine.execLogRead q s
  | .powerState q => Sys2Proof.Machine.execPowerState q s
  | .identify q => Sys2Proof.Machine.execIdentify q s
  | .commandFetch => Sys2Proof.Machine.execCommandFetch s
  | .coalesceTimeout cq => Sys2Proof.Machine.execCoalesceTimeout cq s
  | .sqTailDoorbell q w => Sys2Proof.Machine.execSqTailDoorbell q w s
  | .cqHeadDoorbell q w => Sys2Proof.Machine.execCqHeadDoorbell q w s
  | .adminQueueEnable w => Sys2Proof.Machine.execAdminQueueEnable w s
  | .adminQueueRetry w => Sys2Proof.Machine.execAdminQueueRetry w s
  | .adminQueueSkip w => Sys2Proof.Machine.execAdminQueueSkip w s
  | .rangeLockGrant cmd => Sys2Proof.Machine.execRangeLockGrant cmd s
  | .dispatchWaitEnd cmd => Sys2Proof.Machine.execDispatchWaitEnd cmd s
  | .domainReady domain => Sys2Proof.Machine.execDomainReady domain s
  | .walkAdmission brick => Sys2Proof.Machine.execWalkAdmission brick s
  | .admissionQueueRoom brick => Sys2Proof.Machine.execAdmissionQueueRoom brick s
  | .landingBufferGrant brick => Sys2Proof.Machine.execLandingBufferGrant brick s
  | .remoteBlockReadRequest brick => Sys2Proof.Machine.execRemoteBlockReadRequest brick s
  | .flashReadComplete brick plane retries mismatch => Sys2Proof.Machine.execFlashReadComplete brick plane retries mismatch s
  | .blockLanded walk entry => Sys2Proof.Machine.execBlockLanded walk entry s
  | .walkDeadline walk => Sys2Proof.Machine.execWalkDeadline walk s
  | .rerankTileClose tile => Sys2Proof.Machine.execRerankTileClose tile s
  | .slabPairAdmit => Sys2Proof.Machine.execSlabPairAdmit s
  | .slabQueueRoom => Sys2Proof.Machine.execSlabQueueRoom s
  | .slabPrologueEnd pair => Sys2Proof.Machine.execSlabPrologueEnd pair s
  | .slabComputeEnd => Sys2Proof.Machine.execSlabComputeEnd s
  | .slabEpilogueEnd => Sys2Proof.Machine.execSlabEpilogueEnd s
  | .kvAttendMerge cmd => Sys2Proof.Machine.execKvAttendMerge cmd s
  | .sealDurable cmd => Sys2Proof.Machine.execSealDurable cmd s
  | .epochBoundary => Sys2Proof.Machine.execEpochBoundary s
  | .epochPublicationComplete => Sys2Proof.Machine.execEpochPublicationComplete s
  | .patchFold brick => Sys2Proof.Machine.execPatchFold brick s
  | .changeEntryWaitEnd cmd => Sys2Proof.Machine.execChangeEntryWaitEnd cmd s
  | .patchLogWaitEnd cmd => Sys2Proof.Machine.execPatchLogWaitEnd cmd s
  | .insertStagingWaitEnd cmd => Sys2Proof.Machine.execInsertStagingWaitEnd cmd s
  | .compactSwitchWaitEnd cmd => Sys2Proof.Machine.execCompactSwitchWaitEnd cmd s
  | .tierFaultResolved unit => Sys2Proof.Machine.execTierFaultResolved unit s
  | .tierFaultTimeout unit => Sys2Proof.Machine.execTierFaultTimeout unit s
  | .tierFaultQueueHead w => Sys2Proof.Machine.execTierFaultQueueHead w s
  | .tierFaultQueueEnable w => Sys2Proof.Machine.execTierFaultQueueEnable w s
  | .migrateUnitDone cmd result => Sys2Proof.Machine.execMigrateUnitDone cmd result s
  | .hodTileIssue engine => Sys2Proof.Machine.execHodTileIssue engine s
  | .hodTileDelivered stream => Sys2Proof.Machine.execHodTileDelivered stream s
  | .hodLinkPoolWaitEnd cmd => Sys2Proof.Machine.execHodLinkPoolWaitEnd cmd s
  | .plumbUnitWaitEnd cmd => Sys2Proof.Machine.execPlumbUnitWaitEnd cmd s
  | .hodWatchdogExpiry stream => Sys2Proof.Machine.execHodWatchdogExpiry stream s
  | .fabricTimeTick => Sys2Proof.Machine.execFabricTimeTick s
  | .fabricTimeSet w => Sys2Proof.Machine.execFabricTimeSet w s
  | .uzoneTrainingTimeout lanes => Sys2Proof.Machine.execUzoneTrainingTimeout lanes s
  | .uzoneParameterBlock block => Sys2Proof.Machine.execUzoneParameterBlock block s
  | .uzoneFlitReceived flit low high => Sys2Proof.Machine.execUzoneFlitReceived flit low high s
  | .uzoneNakReceived seq => Sys2Proof.Machine.execUzoneNakReceived seq s
  | .uzoneFecLockLost lane => Sys2Proof.Machine.execUzoneFecLockLost lane s
  | .uzoneAckTimeout => Sys2Proof.Machine.execUzoneAckTimeout s
  | .uzoneDownRetry => Sys2Proof.Machine.execUzoneDownRetry s
  | .uzoneLowPowerExit => Sys2Proof.Machine.execUzoneLowPowerExit s
  | .devRd addr lines tag => Sys2Proof.Machine.execDevRd addr lines tag s
  | .devWr addr data tag => Sys2Proof.Machine.execDevWr addr data tag s
  | .devWrPartial addr mask data tag => Sys2Proof.Machine.execDevWrPartial addr mask data tag s
  | .snpShare addr tag => Sys2Proof.Machine.execSnpShare addr tag s
  | .snpInv addr tag => Sys2Proof.Machine.execSnpInv addr tag s
  | .grantE tag => Sys2Proof.Machine.execGrantE tag s
  | .data tag grant status bytes => Sys2Proof.Machine.execData tag grant status bytes s
  | .cmp tag status => Sys2Proof.Machine.execCmp tag status s
  | .mortarPortEnable w => Sys2Proof.Machine.execMortarPortEnable w s
  | .mortarTrainingTimeout port lanes => Sys2Proof.Machine.execMortarTrainingTimeout port lanes s
  | .mortarDownRetry port => Sys2Proof.Machine.execMortarDownRetry port s
  | .hello port alive block => Sys2Proof.Machine.execHello port alive block s
  | .timeSyncTimer => Sys2Proof.Machine.execTimeSyncTimer s
  | .timeSync port alive t0 t1 t2 t3 => Sys2Proof.Machine.execTimeSync port alive t0 t1 t2 t3 s
  | .linkState port alive number link up => Sys2Proof.Machine.execLinkState port alive number link up s
  | .keyRoll port alive keyId salt => Sys2Proof.Machine.execKeyRoll port alive keyId salt s
  | .mortarTransitForward port vc message => Sys2Proof.Machine.execMortarTransitForward port vc message s
  | .remoteRd h length => Sys2Proof.Machine.execRemoteRd h length s
  | .remoteWr h bytes => Sys2Proof.Machine.execRemoteWr h bytes s
  | .remoteData h bytes => Sys2Proof.Machine.execRemoteData h bytes s
  | .remoteCmp h status => Sys2Proof.Machine.execRemoteCmp h status s
  | .backoff h => Sys2Proof.Machine.execBackoff h s
  | .backoffResend dest => Sys2Proof.Machine.execBackoffResend dest s
  | .fanout h payload => Sys2Proof.Machine.execFanout h payload s
  | .fanoutEpochWaitTimeout fan => Sys2Proof.Machine.execFanoutEpochWaitTimeout fan s
  | .partialList h payload => Sys2Proof.Machine.execPartialList h payload s
  | .mortarRequestTimeout tag => Sys2Proof.Machine.execMortarRequestTimeout tag s
  | .mortarLinkDown port => Sys2Proof.Machine.execMortarLinkDown port s
  | .xfLinkDown link => Sys2Proof.Machine.execXfLinkDown link s
  | .xfCapacityChange link bytes => Sys2Proof.Machine.execXfCapacityChange link bytes s
  | .coldBoot findings => Sys2Proof.Machine.execColdBoot findings s
  | .mainInputReturn findings => Sys2Proof.Machine.execMainInputReturn findings s
  | .rstPin => Sys2Proof.Machine.execRstPin s
  | .powerFailure => Sys2Proof.Machine.execPowerFailure s
  | .auxInputLoss => Sys2Proof.Machine.execAuxInputLoss s
  | .wakePin => Sys2Proof.Machine.execWakePin s
  | .powerControlWake => Sys2Proof.Machine.execPowerControlWake s
  | .powerStateEntry => Sys2Proof.Machine.execPowerStateEntry s
  | .powerStateExit => Sys2Proof.Machine.execPowerStateExit s
  | .drowseIdleTimer => Sys2Proof.Machine.execDrowseIdleTimer s
  | .bankedIdleTimer => Sys2Proof.Machine.execBankedIdleTimer s
  | .targetStateReturn => Sys2Proof.Machine.execTargetStateReturn s
  | .holdupTestTimer => Sys2Proof.Machine.execHoldupTestTimer s
  | .thermalSample reading => Sys2Proof.Machine.execThermalSample reading s
  | .refclkLost => Sys2Proof.Machine.execRefclkLost s
  | .refclkRestored => Sys2Proof.Machine.execRefclkRestored s
  | .memoryScrub stack findings => Sys2Proof.Machine.execMemoryScrub stack findings s
  | .blockRefresh brick => Sys2Proof.Machine.execBlockRefresh brick s
  | .nandProgramComplete brick erase ok => Sys2Proof.Machine.execNandProgramComplete brick erase ok s
  | .nandDieFailure brick die => Sys2Proof.Machine.execNandDieFailure brick die s
  | .entropyHealthFail => Sys2Proof.Machine.execEntropyHealthFail s
  | .readRegister r => Sys2Proof.Machine.execReadRegister r s
  | .writeRegister r => Sys2Proof.Machine.execWriteRegister r s
  | .bondStage r => Sys2Proof.Machine.execBondStage r s
  | .bondApply r => Sys2Proof.Machine.execBondApply r s
  | .drainTimeout => Sys2Proof.Machine.execDrainTimeout s
  | .moduleReset r => Sys2Proof.Machine.execModuleReset r s
  | .firmwareStage r => Sys2Proof.Machine.execFirmwareStage r s
  | .firmwareActivate r => Sys2Proof.Machine.execFirmwareActivate r s
  | .secureErase r => Sys2Proof.Machine.execSecureErase r s
  | .holdupTest r => Sys2Proof.Machine.execHoldupTest r s
  | .telemetryRequest => Sys2Proof.Machine.execTelemetryRequest s
  | .setEndpointId eid => Sys2Proof.Machine.execSetEndpointId eid s
  | .getEndpointId => Sys2Proof.Machine.execGetEndpointId s
  | .getMctpVersionSupport => Sys2Proof.Machine.execGetMctpVersionSupport s
  | .getMessageTypeSupport => Sys2Proof.Machine.execGetMessageTypeSupport s
  | .getVendorDefinedMessageSupport => Sys2Proof.Machine.execGetVendorDefinedMessageSupport s
  | .smbusAlertResponse => Sys2Proof.Machine.execSmbusAlertResponse s
  | .lintelStage r => Sys2Proof.Machine.execLintelStage r s
  | .lintelRead r => Sys2Proof.Machine.execLintelRead r s
  | .attest r => Sys2Proof.Machine.execAttest r s
  | .rollbackCommit r => Sys2Proof.Machine.execRollbackCommit r s
  | .debugChallenge r => Sys2Proof.Machine.execDebugChallenge r s
  | .debugUnlock r => Sys2Proof.Machine.execDebugUnlock r s
  | .debugClose r => Sys2Proof.Machine.execDebugClose r s
  | .debugExpiry => Sys2Proof.Machine.execDebugExpiry s
  | .challengeExpiry => Sys2Proof.Machine.execChallengeExpiry s
  | .keyInstall r => Sys2Proof.Machine.execKeyInstall r s
  | .keyDestroy r => Sys2Proof.Machine.execKeyDestroy r s
  | .anchorUpdate r => Sys2Proof.Machine.execAnchorUpdate r s
  | .extest => Sys2Proof.Machine.execExtest s
  | .clamp => Sys2Proof.Machine.execClamp s
  | .highz => Sys2Proof.Machine.execHighz s
  | .samplePreload pins => Sys2Proof.Machine.execSamplePreload pins s
  | .idcode => Sys2Proof.Machine.execIdcode s
  | .bypass => Sys2Proof.Machine.execBypass s
  | .tapReset => Sys2Proof.Machine.execTapReset s
  | .uzoneErrorCountsRead => Sys2Proof.Machine.execUzoneErrorCountsRead s
  | .plumbAliveFailuresRead => Sys2Proof.Machine.execPlumbAliveFailuresRead s
  | .mortarPeerEventsRead => Sys2Proof.Machine.execMortarPeerEventsRead s
  | .errorCountsRead => Sys2Proof.Machine.execErrorCountsRead s
  | .epochPublishDelayRead => Sys2Proof.Machine.execEpochPublishDelayRead s
  | .clockStatusRead => Sys2Proof.Machine.execClockStatusRead s
  | .registerWrite addr eight w => Sys2Proof.Machine.execRegisterWrite addr eight w s
  | .mortarFlitReceived port flit errors => Sys2Proof.Machine.execMortarFlitReceived port flit errors s
  | .mortarNakReceived port seq => Sys2Proof.Machine.execMortarNakReceived port seq s
  | .mortarFecLockLost port lane => Sys2Proof.Machine.execMortarFecLockLost port lane s
  | .mortarAckTimeout port => Sys2Proof.Machine.execMortarAckTimeout port s
  | .uzoneCompanionRetrain => Sys2Proof.Machine.execUzoneCompanionRetrain s
  | .xfReadResponse who poison => Sys2Proof.Machine.execXfReadResponse who poison s
  | .holdupTestEnd v1 v2 storedMj => Sys2Proof.Machine.execHoldupTestEnd v1 v2 storedMj s
  | .holdupFloorCrossing storedMj => Sys2Proof.Machine.execHoldupFloorCrossing storedMj s
  | .entropyHealthPass => Sys2Proof.Machine.execEntropyHealthPass s
  | .railFault rail millivolts => Sys2Proof.Machine.execRailFault rail millivolts s
  | .powerCapThrottle inputMw mainMv auxMv mainOver capDuty => Sys2Proof.Machine.execPowerCapThrottle inputMw mainMv auxMv mainOver capDuty s

end Sys2Proof.Machine
end

