-- ==== Sys2Proof/Safety.lean ====
section
/-!
DEFINITION. The terms in which claims about the module are stated: what counts as a safe step, a queue
command that is dispatched and passes its checks (R353), and which parts of the state two states share.
-/

namespace Sys2Proof.Machine

/-- A step answers a next state. The KV7 reports what goes wrong in completions, records and registers,
so no step of the block stops the machine. -/
def SafeStep (s : State) : Prop := ∃ t, step s = .next t

/-- The next command of a queue for a row is `c`, and the module can dispatch it: Serving, with the
domains that dispatch needs (R30, R351, R375). Where it is the copy that RETRY dispatches, its queue fetches
again already (R372). -/
def Taken (s : State) (q : QueueId) (mine : Cmd → Bool) (c : Cmd) : Prop :=
  pick s q.toNat mine = some c ∧ notServing s = false ∧
  (c.retry = true → resumeFetch s q.toNat = s)

/-- `c` is dispatched and passes every check of R353: its entry, the row's own checks, the ranges those
read, and its result slots. -/
def Passes (s : State) (pre : State → Cmd → Option Err) (ranges : State → Cmd → List Range)
    (check : State → Cmd → Option Err) (slots : State → Cmd → List (Nat × Nat)) (c : Cmd) : Prop :=
  c.checked = false ∧ entryErr s c = none ∧ pre s c = none ∧
  reachRanges s c.loaded (ranges s c) = none ∧ check s c = none ∧
  slotMissing s c (slots s c) = [] ∧ slotsErr s c (slots s c) = none

/-- A command once it runs. -/
def ran (c : Cmd) : Cmd := { c with phase := .running, checked := true }

/-- The state in which a command that has passed its checks acts: it runs, and its slots are BUSY. -/
def begun (s : State) (c : Cmd) (slots : List (Nat × Nat)) : State :=
  busySlots (updCmd s c.id fun c => { c with phase := .running, checked := true }) (ran c) slots

/-- Every part of the state but the scheduler, memory with the poison of its lines, and Uzone, which carry
completions and result slots, is the same. -/
def SameBeside (s t : State) : Prop :=
  { t with
    sched := s.sched, mem := s.mem, uzone := s.uzone
    hw := { t.hw with poisoned := s.hw.poisoned } } = s

/-- The range-lock entry that a command takes over vector IDs of its collection (R173). -/
def idLock (c : Cmd) (ids : List Nat) : Lock :=
  { cmd := c.id, kv := false, obj := entColl c, lo := (idSpan ids).1, hi := (idSpan ids).2,
    held := true }

/-- An entry for a command that has none is held at once: the table has room, no command waits for an
entry, and none of those taken overlaps it (R174). -/
def LockAtOnce (s : State) (l : Lock) : Prop :=
  lockOf s l.cmd = none ∧ s.index.locks.length < 256 ∧ s.index.lockQueue = [] ∧
  s.index.locks.any (fun x => lockOverlap x l) = false

/-- The state in which a command that was dispatched to a collection holds its entry. -/
def holding (s : State) (c : Cmd) (k : Coll) (l : Lock) : State :=
  let s1 := updCmd s c.id fun x => { x with born := some k.born }
  { s1 with index := { s1.index with locks := s1.index.locks ++ [l] } }

/-- The range-lock entry of a key-value command over pages of a sequence (R238). -/
def pageLock (c : Cmd) (seq lo hi : Nat) : Lock :=
  { cmd := c.id, kv := true, obj := seq, lo := lo, hi := hi, held := true }

/-- The state in which an entry is held. -/
def withLock (s : State) (l : Lock) : State :=
  { s with index := { s.index with locks := s.index.locks ++ [l] } }

/-- The state in which a command of R261 that waits for no KV_ATTEND holds its whole sequence. -/
def evictState (s : State) (c : Cmd) (seq : Nat) : State :=
  withLock (updCmd (begun s c []) c.id fun x => { x with
    born := some 0, after := [], lens := [] }) (pageLock c seq 0 allPages)

/-- A command of R261 as it is once it has noted that it waits for none. -/
def ranNoted (c : Cmd) : Cmd := { ran c with born := some 0, after := [], lens := [] }

/-- A command of R261 that is dispatched, passes its checks, waits for no KV_ATTEND and takes its whole
sequence at once (R238, R261). -/
def Evicts (s : State) (q : QueueId) (mine : Cmd → Bool) (c : Cmd) (x : KvSeq) : Prop :=
  Taken s q mine c ∧ Passes s evictPre evictRange evictErr noSlots c ∧ c.born = none ∧
  x.id = kvSeqId (kvBlock s c 32) ∧ findSeq s x.id = some x ∧
  attendsOn (begun s c []) x.id = [] ∧ LockAtOnce s (pageLock c x.id 0 allPages)

/-- The units of a chain taken, and its stages bound (R326). -/
def unitsBound (s : State) (c : Cmd) (d : List Byte) : State :=
  bindStages (setPhase ((chainUnits d).foldl (fun s u =>
    if (unitAt s u).busy then s else updUnit s u (latchUnit false)) s) c.id .running) c d

/-- The links and units of a chain taken, and its stages bound (R316 to R318, R326). -/
def chainBound (s : State) (c : Cmd) (d : List Byte) : State :=
  unitsBound ((List.range (chLinks d)).foldl (takeLink d c) s) c d

/-- A chain finds its links in the pool, agrees with the shared links that exist, and finds its Plumb
units free and set to a width of R327 (R317, R318, R326). -/
def ChainStarts (s : State) (c : Cmd) (d : List Byte) : Prop :=
  let s1 := (List.range (chLinks d)).foldl (takeLink d c) s
  (∀ l ∈ s.hod.links, (l.producer.map (·.1)) ≠ some c.id ∧ (l.consumer.map (·.1)) ≠ some c.id) ∧
  (∀ x ∈ earlier s c.id, x.phase ≠ .waiting .linkPool) ∧
  s.hod.links.length + newLinks s d ≤ 1024 ∧
  firstErr ((List.range (chLinks d)).map (linkShareErr s d)) = none ∧
  busyUnit s1 c.id (chainUnits d) = none ∧ (∀ u ∈ chainUnits d, widthOk (unitAt s1 u) = true)

/-- The state in which a command of Hod is dispatched: in order after those before it, with its
descriptor. -/
def inOrder (s : State) (c : Cmd) (d : List Byte) : State :=
  { s with hod := { s.hod with
      order := s.hod.order ++ [c.id], descs := s.hod.descs ++ [(c.id, d)] } }

/-- A request of the companion arrives and is served at once: Uzone can be up, its link is ACTIVE or wakes,
no request is held before it, and fewer than 256 are outstanding (R420, R421, R431, R496). -/
def RequestArrives (s : State) : Prop :=
  mmioIn s = true ∧ uzAwake s = true ∧ s.uzone.heldDev = [] ∧ outstanding s < 256

/-- The state in which such a request is served: the link is ACTIVE, and what it can send has been sent. -/
def awoken (s : State) : State :=
  { s with uzone := pumpUzone { s.uzone with link := linkWake s.uzone.link } }

/-- A message arrives for this module over a port in service that does not encrypt and is awake
(R445, R465). -/
def Arrives (s : State) (h : MortarHeader) : Prop :=
  portInService s h.port.toNat = true ∧ h.dest.toNat = fabNum s ∧
  (portAt s h.port.toNat).encrypted = false ∧ (portAt s h.port.toNat).link.st ≠ 4

/-- A request arrives in its turn and finds the inbound store empty (R452). -/
def ArrivesInTurn (s : State) (h : MortarHeader) : Prop :=
  Arrives s h ∧ s.mortar.inbound = [] ∧ s.mortar.refused = [] ∧
  nextSeq s.mortar.inSeq h.source.toNat = h.pairSeq.toNat

/-- The state in which a request alone stands in the inbound store. -/
def stored (s : State) (i : Instr) : State :=
  { s with mortar := { s.mortar with inbound := [i] } }

/-- The state after a request of a source that stood there alone was executed: the store is empty, and
the next request of the pair is awaited (R452). -/
def executed (t : State) (h : MortarHeader) : State :=
  { t with
    mortar := { t.mortar with
      inbound := [], inSeq := bumpSeq t.mortar.inSeq h.source.toNat } }

/-- A control message of a port is in its turn (R331, R447). -/
def ControlArrives (s : State) (p : Nat) (alive : Byte) : Prop :=
  portInService s p = true ∧ (portAt s p).encrypted = false ∧
  ((portAt s p).aliveIn = none ∨ (portAt s p).aliveIn = some ((alive.toNat + 255) % 256))

/-- The state once its alive value is taken. -/
def aliveTaken (s : State) (p : Nat) (alive : Byte) : State :=
  updPort s p fun q => { q with aliveIn := some alive.toNat, aliveFails := 0 }

/-- The completion queue agent can write the 32 bytes of an entry at once: no item waits before it, and it
lies in the module's own memory, on the stack of a course with power, or in one line of the companion that
the agent has in E or M or writes back with STASH (R32, R424, R425). -/
def EntryWritable (s : State) (a : Nat) : Prop :=
  s.uzone.out = [] ∧
  (linesOf a 32 = [] ∧ storeHeld s a = false ∨
    ∃ l, linesOf a 32 = [l] ∧
      (2 ≤ ((agentLine s.uzone 1 l).map (·.st)).getD 0 ∨
        stashVersion s.uzone = true ∧ lineAsked s.uzone l = false))

/-- A completion is posted at once: its queue has room and holds none, its command has no write to be
answered, no queue is being deleted, no entry of the change table waits for the end of a pinned command, and
the entry can be written (R148, R358, R373, R422). -/
def Posts (s : State) (x : Completion) (sq : SubQ) (q : ComplQ) : Prop :=
  findSq s x.sq = some sq ∧ findCq s sq.cq = some q ∧ q.held = [] ∧ cqRoom q = true ∧
  writesOut s (.cmd x.cmd) = false ∧ (∀ y ∈ s.sched.sqs, y.deletedBy = none) ∧
  ((findCmd s x.cmd).bind (·.pin) = none ∨ s.index.changes = []) ∧
  EntryWritable s (q.base + 32 * q.tail)

/-- A module of which the control space is served, with each of its domains on, and whose audit stream
is sound (R31, R497, R532). -/
def Served (s : State) : Prop :=
  s.quoin.stage = 7 ∧ s.pins.scanned = false ∧ s.power.domains.getLsbD 20 = true ∧
  s.power.domains.getLsbD 23 = true ∧ auditOk s = true ∧ s.power.st = 0 ∧ s.power.entering = none

/-- A mailbox request runs: over either path the one that has been accepted, which goes on with the block
it came with, or one over SMBus while none runs (R483 to R487); `b` marks one over SMBus. -/
def Requested (s : State) (r : MailReq) (op : Nat) (req : List Byte) (b : Bool) : Prop :=
  mailUp s = true ∧ rOpcode req = op ∧
  (r = .uzone ∧ b = s.quoin.mbSmbus ∧ s.quoin.goPending = true ∧ s.quoin.mbRequest = req ∨
    r = .smbus req ∧ b = true ∧ s.quoin.mbState ≠ 1 ∧ mailErr req = none)

end Sys2Proof.Machine
end

