-- ==== Sys2Proof/Certificates/Slice0/Obligations.lean ====
section
/-!
DEFINITION. The statements about the model, for the provers.
-/

open Sys2Proof Sys2Proof.Machine

/-! ### Searches and walks (R69 to R137) -/

/-- SEARCH, SEARCH_BATCH and SCAN pin the epoch that R144 gives and begin one query for each of their
vectors, at that epoch, with their K and the result slot of its index; RERANK gathers the slots of its
IDs that are LIVE at that epoch and pass, in list order, once their ID-map entries can be read (R111,
R144, R281, R346, R367). -/
def Obligations.SearchesPinAndBegin : Prop :=
  ∀ (s : State) (q : QueueId) (c : Cmd) (k : Coll),
    let b := begun s c (searchSlots s c)
    let pinned := updCmd b c.id fun x => { x with pin := some (pinOf s (entEpoch c)) }
    Passes s searchPre searchRanges searchCheck searchSlots c → c.pin = none →
    fansOut b (ran c) = false → findColl s (entColl c) = some k →
    (Taken s q (opIs 0x10) c → exec (.search q) s = .next
      (startQuery pinned (newQuery b (ran c) k 0) c.urgent)) ∧
    (Taken s q (opIs 0x13) c → exec (.scan q) s = .next
      (startQuery pinned (newQuery b (ran c) k 0) c.urgent)) ∧
    (Taken s q (opIs 0x11) c → exec (.searchBatch q) s = .next
      ((List.range (entCount c)).foldl
        (fun s i => startQuery s (newQuery b (ran c) k i) c.urgent) pinned)) ∧
    (Taken s q (opIs 0x12) c → reachRanges pinned c.loaded (idRanges pinned c k) = none →
      (∀ r ∈ idRanges pinned c k, bulkHomed pinned r = false) → exec (.rerank q) s = .next
      (startRerank pinned { newQuery b (ran c) k 0 with
        path := 2, nodes := entCount c, vec := vecAt b (ran c) 0 }
        (rerankRow b (ran c) k (pinOf s (entEpoch c))) c.urgent)) ∧
    (∀ i, (newQuery b (ran c) k i).epoch = pinOf s (entEpoch c) ∧
      (newQuery b (ran c) k i).k = inK c ∧
      (newQuery b (ran c) k i).slot = entResult c + i * entStride c)

/-- Every selection, of a piece, of a row or of merged lists, is in the order of R112: a number before
every NaN, numbers by value (−0 equal to +0, −Inf least and +Inf greatest), NaNs equal, and equal
distances by ascending vector ID. A selection of one piece lists no vector ID twice and holds the first K
of the row's vector IDs in that order: an ID that it leaves out comes with no element before its last. A
merge does not depend on the order of its lists (R112, R114, R116, R126; which of two copies that R112
makes equal is kept is the model's choice, log 112). -/
def Obligations.SelectionIsOrderedAndDistinct : Prop :=
  let ordered := fun (l : List (Nat × F32)) => l.Pairwise (fun a b => selLt b a = false)
  (∀ (k : Nat) (row : List (Nat × F32)),
    let l := (selectPiece k row).entries
    l.length ≤ k ∧ (∀ x ∈ l, x ∈ row) ∧ (l.map (·.1)).Nodup ∧ ordered l ∧
    (∀ x ∈ row, x.1 ∉ l.map (·.1) → l.length = k ∧ ∀ y ∈ l, selLt x y = false)) ∧
  (∀ k row, ordered (selectRow k row).entries) ∧
  (∀ k ls, ordered (mergeLists k ls).entries) ∧
  (∀ (k : Nat) (ls ms : List PList), ls.Perm ms → mergeLists k ls = mergeLists k ms) ∧
  (∀ (i j : Nat) (a b : F32),
    (isNaN32 a = false → isNaN32 b = true →
      selLt (i, a) (j, b) = true ∧ selLt (j, b) (i, a) = false) ∧
    (isFin32 a = true → isFin32 b = true → selLt (i, a) (j, b) =
      (decide (exactTerm a < exactTerm b) ||
        decide (exactTerm a = exactTerm b) && decide (i < j))) ∧
    exactTerm 0x80000000 = exactTerm 0 ∧
    (isNaN32 b = false → b ≠ negInf32 →
      selLt (i, negInf32) (j, b) = true ∧ selLt (j, b) (i, negInf32) = false) ∧
    (isNaN32 a = false → a ≠ posInf32 →
      selLt (i, a) (j, posInf32) = true ∧ selLt (j, posInf32) (i, a) = false) ∧
    (isNaN32 a = true → isNaN32 b = true → selLt (i, a) (j, b) = decide (i < j)) ∧
    selLt (i, a) (j, a) = decide (i < j))

/-- WALK_ADMISSION gives the walk at the head of its class its slots and starts its first round of the
W nearest unexpanded candidates; ADMISSION_QUEUE_ROOM takes a held hand-off into the queue of its class
(R75, R81). -/
def Obligations.WalkAdmission : Prop :=
  ∀ (s : State) (brick : BitVec 6) (w : Walk), s.bricks.length = 64 →
    findWalk s w.id = some w → w.brick = brick.toNat → w.round = [] → brickOn s brick.toNat = true →
    (admissionHead (s.bricks.getD brick.toNat {}) = some w.id → w.stage = .queued →
      slotsHeld s brick.toNat + w.slots ≤ slotTotal s → w.core.hops < w.params.budget →
      pastDeadline s w.params = false → (roundOf w.params w.core).isEmpty = false →
      ∃ t, exec (.walkAdmission brick) s = .next t ∧
        (t.bricks.getD brick.toNat {}).slotsInUse =
          (s.bricks.getD brick.toNat {}).slotsInUse + w.slots ∧
        w.id ∉ (t.bricks.getD brick.toNat {}).urgentQ ++ (t.bricks.getD brick.toNat {}).normalQ ∧
        (∃ v, findWalk t w.id = some v ∧ v.stage = .running ∧ v.core = w.core ∧
          v.round.map (·.cand) = roundOf w.params w.core) ∧
        t.mem = s.mem ∧ t.sched = s.sched) ∧
    (s.walks = [w] → w.stage = .handoff →
      admissionDepth (s.bricks.getD brick.toNat {}) < 2048 →
      exec (.admissionQueueRoom brick) s = .next { s with
        walks := [{ w with stage := .queued }]
        bricks := modAt s.bricks brick.toNat fun k =>
          if w.urgent then { k with urgentQ := k.urgentQ ++ [w.id] }
          else { k with normalQ := k.normalQ ++ [w.id] } })

/-- A granted landing buffer, the lowest free one (the model's choice, log 123), sends its read to the
Brick that owns the block; the owner of a Tile block puts it at the end of the block's plane queue; a read
that ends well leaves its plane, waits for the channel bus behind those that completed before it, counts
where another Brick asked for it, and is on its way back with status 0 (R77, R78, R88, R90, R103). -/
def Obligations.BlockReadsGoThroughTheirOwners : Prop :=
  ∀ (s : State) (b : BitVec 6) (r : ReadReq) (rest : List ReadReq) (w e : Nat),
    s.bricks.length = 64 → brickOn s b.toNat = true → r.owner = .walk w e → r.dead = false →
    (∀ i, (s.bricks.getD b.toNat {}).asks = r :: rest →
      freeBuffer (s.bricks.getD b.toNat {}) = some i → brickOf r.slot ≠ b.toNat →
      i < 256 ∧ i ∉ (s.bricks.getD b.toNat {}).buffers ∧
      exec (.landingBufferGrant b) s = .next { s with
        bricks := modAt (modAt s.bricks b.toNat fun k => { k with
          asks := rest, buffers := k.buffers ++ [i] }) (brickOf r.slot) fun k => { k with
          remote := k.remote ++ [{ r with buffer := some i }] }
        walks := mapIf (·.id == w) (fun w => { w with
          round := modAt w.round e fun e => { e with st := .issued, buffer := some i } }) s.walks }) ∧
    ((s.bricks.getD b.toNat {}).remote = r :: rest → brickOf r.slot = b.toNat →
      homeOf s (unitOf (readRange s r).addr) = .tile →
      faultOn s (unitOf (readRange s r).addr) = false →
      exec (.remoteBlockReadRequest b) s = .next { s with
        bricks := modAt s.bricks b.toNat fun k => { k with
          remote := rest, planes := modAt k.planes (planeOf r.slot) (· ++ [r]) } }) ∧
    (∀ (p : BitVec 5) (n : Nat) (x : Block),
      (s.bricks.getD b.toNat {}).planes.getD p.toNat [] = r :: rest → n < 3 →
      planeBusy (s.bricks.getD b.toNat {}) p.toNat = false → s.lintel.withheld = false →
      (s.bricks.getD b.toNat {}).deadDies.contains (p.toNat / 4) = false →
      blockOf s r = some x → x.corrupt = false → x.lost = false →
      ∃ t, exec (.flashReadComplete b p n false) s = .next t ∧
        t.bricks = modAt s.bricks b.toNat (fun k => { k with
          planes := modAt k.planes p.toNat fun _ => rest
          bus := k.bus ++ [{ r with result := 0 }]
          programs := (startPrograms { k with planes := modAt k.planes p.toNat fun _ => rest }).programs
          remoteReads := (k.remoteReads + b2n (r.origin != b.toNat)) % 2 ^ 64 }) ∧
        t.walks = mapIf (·.id == w) (fun w => { w with
          round := modAt w.round e fun e => { e with st := .returned, result := 0 } }) s.walks ∧
        t.mem = s.mem ∧ t.sched = s.sched ∧ t.hw = s.hw ∧ t.slab = s.slab)

/-- A block that lands out of its turn only waits in its buffer; one that lands in its turn is
processed, and with it the walk goes on (R82, R83). Those that completed before it on its channel have
crossed the bus (R90). Processing counts one hop, expands its candidate and never shrinks the set of visited
slots (R83, R86, R91). -/
def Obligations.LandedBlocksAreProcessedInOrder : Prop :=
  (∀ (s : State) (w : Walk) (i j : Nat) (x y : REntry),
    findWalk s w.id = some w → w.round[i]? = some x → x.st = .returned → x.result = 0 →
    brickOn s w.brick = true →
    nextEntry w = some (j, y) → j ≠ i → y.st ≠ .landed → w.core.hops < w.params.budget →
    exec (.blockLanded w.id i) s = .next { takeLanded s w.id i false with
      walks := mapIf (·.id == w.id) (fun w => { w with
        round := modAt w.round i fun e => { e with st := .landed } }) s.walks }) ∧
  (∀ (s : State) (w : Walk) (i : Nat) (x : REntry),
    findWalk s w.id = some w → w.round[i]? = some x → x.st = .returned → x.result = 0 →
    brickOn s w.brick = true →
    nextEntry w = some (i, x) → w.core.hops < w.params.budget → pastDeadline s w.params = false →
    let s1 := updWalk (takeLanded s w.id i false) w.id fun w => { w with
      round := modAt w.round i fun e => { e with st := .landed } }
    exec (.blockLanded w.id i) s = .next (walkOn 17 (processEntry s1
      { w with round := modAt w.round i fun e => { e with st := .landed } } i
      { x with st := .landed }) w.id)) ∧
  (∀ (s : State) (walk entry : Nat) (free : Bool),
    (∀ k ∈ (takeLanded s walk entry free).bricks, ∀ r ∈ k.incoming, isRead walk entry r = false) ∧
    (takeLanded s walk entry free).mem = s.mem ∧ (takeLanded s walk entry free).walks = s.walks ∧
    (takeLanded s walk entry free).sched = s.sched) ∧
  (∀ (p : WalkParams) (pred : Option Pred) (vis : Nat → Vis) (sc : Scorer) (x : Cand)
      (es : List BEntry) (own : BitVec 64) (k : WalkCore),
    let k' := processBlock p pred vis sc x es own k
    k'.hops = k.hops + 1 ∧ k'.visited &&& k.visited = k.visited ∧
    (∀ y ∈ k'.cq, y.d = x.d → y.slot = x.slot → y.expanded = true))

/-- A running walk whose deadline has come stops: it leaves its Brick, is counted in
DEADLINE_TRUNCATIONS, and hands its result queue to re-rank as TRUNCATED (R91 to R94). A re-rank tile
open for 2 µs closes into one Slab operation at the end of the queue (R109). -/
def Obligations.WalkDeadlineAndTileClose : Prop :=
  (∀ (s : State) (w : Walk) (c : Coll), findWalk s w.id = some w → w.stage = .running →
    pastDeadline s w.params = true → findColl s w.query.coll = some c →
    let s1 := leaveBrick s w
    exec (.walkDeadline w.id) s = .next (startRerank { s1 with
      sched := { s1.sched with truncations := (s1.sched.truncations + 1) % 2 ^ 64 } }
      { w.query with hops := w.core.hops, nodes := w.core.nodes, truncated := true }
      (w.core.rq.filterMap fun x => (findSlot c x.2).map fun y => (x.2, y.vid)) w.urgent)) ∧
  (∀ (s : State) (t : Tile), s.slab.tiles.find? (·.id == t.id) = some t → t.since + 2000 ≤ now s →
    s.slab.heldWork = [] → s.slab.queue.length < 4096 →
    ∃ op : SlabOp, op.id = s.slab.nextOp ∧ op.work = .tile t.reqs ∧
      op.M = t.reqs.length ∧ op.N = (tileCols t).length ∧
      exec (.rerankTileClose t.id) s = .next { s with
        slab := { s.slab with
          tiles := s.slab.tiles.filter (·.id != t.id)
          nextOp := s.slab.nextOp + 1
          queue := s.slab.queue ++ [op] } })

/-- A scheduled boundary that is due closes the open epoch at its own instant, and opens the next. A
publication raises P to the oldest closed epoch, takes that epoch from those closed, and moves the floor
as R143 says. A member of a fan-out that has waited 100 ms for its epoch fails with INVALID_FIELD (R138,
R139, R141 to R143, R405, R406, R457). -/
def Obligations.EpochsCloseAndArePublished : Prop :=
  ((∀ (s : State) (e t : Nat) (l : List (Nat × Nat × Option Nat)),
     s.epochs.closing = (e, t, none) :: l → s.mortar.fans = [] → s.power.st ≤ 1 →
     s.quoin.stage = 7 →
     ∃ u, exec .epochPublicationComplete s = .next u ∧ u.epochs = { s.epochs with
         published := e
         floor := nextFloor s.epochs e
         closing := l
         pubs := s.epochs.pubs.filter (fun p => nextFloor s.epochs e ≤ p) ++ [e]
         delayLast := min 0xFFFF (now s - t)
         delayMax := max s.epochs.delayMax (min 0xFFFF (now s - t)) } ∧
       u.sched = s.sched ∧ u.kv = s.kv) ∧
   (∀ (s : State) (f : Fan) (t : Nat), findFan s f.id = some f → f.epochWait = some t →
     t + 100000 ≤ now s →
     exec (.fanoutEpochWaitTimeout f.id) s =
       .next (fanFail (updFan s f.id fun f => { f with epochWait := none }) f.id 0x10 0))) ∧
  (∀ (s : State) (x : Schedule), s.epochs.schedule = some x → s.time.valid = true →
     x.base + x.n * x.period ≤ now s →
     exec .epochBoundary s = .next { s with
       epochs := { s.epochs with
         closing := s.epochs.closing ++ [(s.epochs.opened, x.base + x.n * x.period, none)]
         opened := s.epochs.opened + 1
         boundaryTime := x.base + x.n * x.period
         schedule := some { x with n := x.n + 1 } } })/-! ### Collections and epochs (R35 to R68, R138 to R185) -/

/-- COLLECTION_CREATE writes its audit record and adds a collection with its descriptor, no slot, no
block and an empty ID map; no other collection changes (R38, R64, R529). -/
def Obligations.CollectionCreateAddsAnEmptyCollection : Prop :=
  ∀ (s : State) (q : QueueId) (c : Cmd) (names areas : List Nat),
    let d := readBytes s.mem (entDesc c) 64
    let b := begun s c []
    let a := audit b 0 0x40 [byteAt d 4, dKey d] (c.sq + entTag c * 65536) (c.entry ++ d)
    Taken s q (opIs 0x26) c →
    Passes s (fun _ c => descErr c 64) createRanges createErr noSlots c →
    s.lintel.withheld = false → s.lintel.entropyFault = false → auditOk b = true →
    allotExtents b d = some names → allotIndex b (dHome d) (collSizes b d) = some areas →
    ∃ p k, exec (.collectionCreate q) s = .next (sealed p (ran c) 0 0 0) ∧
      p.index.colls = s.index.colls ++ [k] ∧ k.id = byteAt d 4 ∧ k.desc = d ∧ k.slots = [] ∧
      k.blocks = [] ∧ k.extents = names ∧ (∀ v, idLookup k v = none) ∧
      p.lintel.audit = a.lintel.audit ∧ p.epochs = s.epochs ∧ p.kv = s.kv ∧ p.tiers = s.tiers

/-- COLLECTION_DROP, once it holds its range and no command dispatched before runs on the collection,
removes the collection, its change-table entries and its patches, and no other collection (R176). -/
def Obligations.CollectionDropRemovesItsCollectionAlone : Prop :=
  ∀ (s : State) (q : QueueId) (c : Cmd) (k : Coll),
    Taken s q (opIs 0x27) c → Passes s collPre noRanges noErr noSlots c →
    findColl s (entColl c) = some k → c.born = none → c.after = [] →
    s.index.locks = [] → s.index.lockQueue = [] → auditOk s = true →
    (∀ x ∈ s.sched.cmds, x.id ≠ c.id → x.phase = .fetched ∧ x.checked = false) →
    ∃ p c', c'.id = c.id ∧ c'.sq = c.sq ∧ c'.entry = c.entry ∧
      exec (.collectionDrop q) s = .next (sealed p c' 0 0 0) ∧
      findColl p k.id = none ∧ (∀ j, j ≠ k.id → findColl p j = findColl s j) ∧
      (∀ x, x ∈ p.index.changes ↔ x ∈ s.index.changes ∧ x.coll ≠ k.id) ∧
      (∀ x, x ∈ p.index.patches ↔ x ∈ s.index.patches ∧ x.coll ≠ k.id) ∧
      p.epochs = s.epochs ∧ p.kv = s.kv

/-- A command of R168 with the SEAL flag, or with the hold-up bank below its floor, waits for NAND with
its completion ready, which carries SEAL_FORCED in the second case alone; any other completes at once
(R168, R169, R170). -/
def Obligations.SealWaitsForNand : Prop :=
  ∀ (s : State) (c : Cmd) (n a b : Nat),
    (entSeal c = true → sealed s c n a b = setPhase s c.id (.sealing (completionOf c 0 0 n a b))) ∧
    (entSeal c = false → s.holdup.below = true →
      sealed s c n a b = setPhase s c.id (.sealing (completionOf c 0 4 n a b))) ∧
    (entSeal c = false → s.holdup.below = false →
      sealed s c n a b = post s (completionOf c 0 0 n a b))

/-- EPOCH_PUBLISH: action 0, behind the boundaries that are due, sets a schedule whose next boundary is
BASE_TIME, or cancels it; action 1 closes the open epoch at once, whose publication the command awaits; action 2 sets the floor
(R140, R141, R143, R399, R529). -/
def Obligations.EpochPublishActions : Prop :=
  ∀ (s : State) (q : QueueId) (c : Cmd),
    let d := readBytes s.mem (entDesc c) 32
    let b := begun s c []
    let a := fun x => audit b 0 0x42 [x, getLE d 24 8] (c.sq + entTag c * 65536) (c.entry ++ d)
    Passes s epochPre epochRange epochErr noSlots c → auditOk b = true →
    (Taken s q (isSchedule s) c → byteAt d 4 = 0 →
      exec (.epochSetSchedule q) s = .next (succeed { a 0 with
        epochs := { (closeDue s).epochs with
          manual := byteAt d 5 == 1
          retain := if byteAt d 6 = 0 then 8 else byteAt d 6
          opened := getLE d 24 8
          schedule := some {
          base := getLE d 8 8, n := 0, epoch := getLE d 24 8,
            period := if getLE d 16 4 = 0 then 1000000 else getLE d 16 4 } } }
        (ran c) 0 0 0 s.epochs.published s.epochs.floor)) ∧
    (Taken s q (isCancel s) c →
      exec (.epochCancelSchedule q) s = .next (succeed { a 0 with
        epochs := { (closeDue s).epochs with
          manual := byteAt d 5 == 1
          retain := if byteAt d 6 = 0 then 8 else byteAt d 6
          schedule := none } }
        (ran c) 0 0 0 s.epochs.published s.epochs.floor)) ∧
    (Taken s q (isAction s 1) c → s.epochs.schedule = none →
      exec (.epochPublishNow q) s = .next { b with
        epochs := { s.epochs with
          closing := s.epochs.closing ++ [(s.epochs.opened, now s, some c.id)]
          opened := s.epochs.opened + 1
          boundaryTime := now s } }) ∧
    (Taken s q (isAction s 2) c → ∃ p,
      exec (.epochSetFloor q) s =
        .next (succeed p (ran c) 0 0 0 s.epochs.published (getLE d 24 8)) ∧
      p.epochs.floor = getLE d 24 8 ∧ p.epochs.published = s.epochs.published ∧
      p.epochs.opened = s.epochs.opened ∧ (∀ e ∈ p.epochs.pubs, getLE d 24 8 ≤ e))

/-- A fold stores a block as its view at the release epoch and takes its older patches out of the log,
so that its view at every epoch from the release epoch on stays what it was (R158, R159). -/
def Obligations.FoldKeepsTheView : Prop :=
  ∀ (s : State) (brick : BitVec 6) (c : Coll) (b : Block) (n : Nat) (l : List (Coll × Block × Nat)),
    let r := retire s
    foldChoice r brick.toNat = (c, b, n) :: l → findColl r c.id = some c →
    8 ≤ n → b.corrupt = false → b.lost = false →
    ∃ t k x, exec (.patchFold brick) s = .next t ∧ findColl t c.id = some k ∧ x ∈ k.blocks ∧
      x.slot = b.slot ∧ x.fold = max b.fold (release r) ∧ x.entries = viewAt r c b (release r) ∧
      (∀ p, p ∈ t.index.patches ↔ p ∈ r.index.patches ∧
        ¬(p.coll = c.id ∧ p.target = b.slot ∧ p.tag ≤ release r)) ∧
      (∀ e, release r ≤ e → viewAt t k x e = viewAt r c b e)

/-- Visibility is read from the epochs of the change table: ABSENT before the insert epoch and from the
repair epoch on, DELETED from the delete epoch on, else LIVE; without an entry the state map decides
(R146, R147). -/
def Obligations.VisibilityFollowsTheChangeTable : Prop :=
  ∀ (s : State) (c : Coll) (e slot : Nat),
    (∀ x, changeOf s c.id slot = some x →
      (e < x.ins → visible s c e slot = .absent) ∧
      (∀ r, x.rep = some r → r ≤ e → visible s c e slot = .absent) ∧
      (x.ins ≤ e → (∀ r, x.rep = some r → e < r) → (∀ d, x.del = some d → e < d) →
        visible s c e slot = .live) ∧
      (∀ d, x.del = some d → d ≤ e → x.ins ≤ e → (∀ r, x.rep = some r → e < r) →
        visible s c e slot = .deleted)) ∧
    (changeOf s c.id slot = none →
      (codeOf c slot = 1 → visible s c e slot = .live) ∧
      (codeOf c slot = 2 → visible s c e slot = .deleted) ∧
      (codeOf c slot = 0 ∨ codeOf c slot = 3 → visible s c e slot = .absent))

/-! ### The Slab (R186 to R226) -/

/-- MATMUL queues the operations that its operands split into, RESCALE_LOAD and PROJECT one each, in
the order of dispatch; nothing else of the module changes (R189, R191, R214, R221). -/
def Obligations.SlabCommandsQueueTheirOperations : Prop :=
  ∀ (s : State) (q : QueueId) (c : Cmd), c.count = 0 →
    (Taken s q (opIs 0x40) c → Passes s (fun _ c => descErr c 64) mmRanges mmErr noSlots c →
      let b := begun s c []
      let x := mmHeaders s c
      let ops := mmOps b (ran c) x.1 x.2.1 x.2.2
      exec (.matmul q) s = .next (ops.foldl slabEnqueue
        (updCmd b c.id fun c => { c with count := ops.length }))) ∧
    (Taken s q (opIs 0x41) c → Passes s (fun _ c => descErr c 32)
        (fun _ c => [{ addr := entDesc c, len := 32 }]) rescaleErr noSlots c →
      s.slab.heldWork = [] → s.slab.queue.length < 4096 →
      ∃ (t : State) (op : SlabOp), exec (.rescaleLoad q) s = .next t ∧
        op.work = .rescale c.id (getLE (readBytes s.mem (entDesc c) 32) 4 4) [] ∧ op.id = s.slab.nextOp ∧
        t.slab = { s.slab with nextOp := s.slab.nextOp + 1, queue := s.slab.queue ++ [op] } ∧
        t.mem = s.mem ∧ SameBeside { s with slab := t.slab } t) ∧
    (∀ k, Taken s q (opIs 0x14) c →
      Passes s projectPre (fun s c => [vecRange s c (entCount c) (inStride c)]) projectErr
        projectSlot c →
      findColl s (entColl c) = some k → s.slab.heldWork = [] → s.slab.queue.length < 4096 →
      ∃ (t : State) (op : SlabOp), exec (.project q) s = .next t ∧
        op.work = .project c.id k.id [] ∧
        op.M = entCount c ∧ op.N = dSketch k.desc ∧ op.K = dDim k.desc ∧
        t.slab = { s.slab with nextOp := s.slab.nextOp + 1, queue := s.slab.queue ++ [op] } ∧
        SameBeside { s with slab := t.slab } t)

/-- The scoreboard admits the oldest operation of the urgent class, else the oldest, to a free pair, and
binds the stream that loads its operands; a prologue that ends with its operands resident leaves its pair
loaded, and the array takes it when no other pair computes, with the rescale entries as they then stand; held
work enters the queue as far as it has room (R190 to R192, R215, R314). -/
def Obligations.SlabAdmitsAndLoads : Prop :=
  (∀ (s : State) (op : SlabOp) (rest : List SlabOp), s.slab.pair0 = .free →
    admitOrder s.slab.queue = op :: rest → op.mayPack = false → slabOn s = true →
    opBlocked s op = none →
    ∃ t, exec .slabPairAdmit s = .next t ∧
      t.slab = { s.slab with
        queue := s.slab.queue.filter (fun x => !([op.id].contains x.id))
        pair0 := .prologue [op]
        pair0First := s.slab.pair1 == .free
        rescaleLoading := s.slab.rescaleLoading || isLoad op } ∧
      (findOwn t (.load op.id)).isSome = true ∧ { t with slab := s.slab, hod := s.hod } = s) ∧
  (∀ (s : State) (ops : List SlabOp), s.slab.pair0 = .prologue ops → s.slab.pair1 = .free →
    slabOn s = true →
    (∀ op ∈ ops, ownInFlight s (.load op.id) = true ∧ opAwaits s op = false ∧ opBlocked s op = none) →
    let x := takeRescale s.slab.rescale (ops.map (fillOp s))
    ∃ t, exec (.slabPrologueEnd 0) s = .next t ∧
      t.slab = { s.slab with rescale := x.1, pair0 := .compute x.2 } ∧
      { t with slab := s.slab, hod := s.hod } = s) ∧
  (∀ (s : State), exec .slabQueueRoom s = .next { s with
    slab := { s.slab with
      queue := s.slab.queue ++ s.slab.heldWork.take (4096 - s.slab.queue.length)
      heldWork := s.slab.heldWork.drop (4096 - s.slab.queue.length) } }) ∧
  (∀ (q : List SlabOp) (op : SlabOp) (rest : List SlabOp), admitOrder q = op :: rest →
    op.urgent = false → ∀ x ∈ q, x.urgent = false)

/-- Compute that ends frees its pair, starts the epilogue and counts the cycles of R194; an epilogue that
ends counts its operation and gives its results: a tile's to its query, a part's to its request, a sketch to
the query that waits for it, a command with no operation left its completion. The rescale memory after a load
holds the entries at the channels loaded, and at every other channel what it held; a channel never loaded
reads scale 1.0 and offset 0 (R190, R194, R213 to R215, R222 to R226). -/
def Obligations.SlabComputesAndFinishes : Prop :=
  ((∀ (s : State) (ops : List SlabOp), s.slab.pair0 = .compute ops → s.slab.pair1 = .free →
     slabOn s = true →
     exec .slabComputeEnd s = .next { s with
       slab := { s.slab with
         pair0 := .free
         epilogue := s.slab.epilogue ++ [ops]
         busyCycles := (s.slab.busyCycles + holdCycles ops) % 2 ^ 64 } }) ∧
   (∀ (s : State) (op : SlabOp) (rest : List (List SlabOp)), s.slab.epilogue = [op] :: rest →
     slabOn s = true → epilogueBlock s [op] = none →
     let s1 := { s with
       slab := { s.slab with
         epilogue := rest, rescaleLoading := loadsLeft { s.slab with epilogue := rest }
         opsDone := (s.slab.opsDone + 1) % 2 ^ 64
         packedOps := s.slab.packedOps % 2 ^ 64 } }
     (∀ r part n, op.work = .rows r part n →
       exec .slabEpilogueEnd s = .next (endPart s1 r part n none)) ∧
     (∀ r, op.work = .tile [r] →
       exec .slabEpilogueEnd s = .next (selectQuery s1 r.query r.dists)) ∧
     (∀ id coll v, op.work = .sketch id coll v → exec .slabEpilogueEnd s = .next (sketchDone s1 id)) ∧
     (∀ (c : Cmd) base es, op.work = .rescale c.id base es → findCmd s c.id = some c → c.count ≤ 1 →
       exec .slabEpilogueEnd s = .next (succeed s1 c 0 0 0 0 0)))) ∧
  (∀ (m : List (Nat × F32 × BitVec 32)) (base : Nat) (es : List (F32 × BitVec 32)) (i : Nat),
     (i < base ∨ base + es.length ≤ i → channel (loadRescale m base es) i = channel m i) ∧
     (∀ j e, es[j]? = some e → channel (loadRescale m base es) (base + j) = e) ∧
     channel [] i = (one32, 0))

/-! ### The live index (R150 to R185) and its NAND (R554 to R559) -/

/-- An INSERT or UPDATE takes its range and asks the Slab for the sketches of its records; once it has them,
and nothing holds it up, it takes its slots and its neighbours and commits at O, behind the boundaries that are
due: one node per record, in order, then its completion (R139, R151 to R156, R162, R174, R222). -/
def Obligations.InsertAndUpdateCommitAtTheOpenEpoch : Prop :=
  ∀ (s : State) (q : QueueId) (c : Cmd) (k : Coll),
    let recs := insRecs s c
    (∀ b2, c.born = none → insDispatch (begun s c []) (ran c) recs = (b2, none) →
      findColl b2 (entColl c) = some k → LockAtOnce b2 (idLock (ran c) (recs.map (·.vid))) →
      b2.lintel.withheld = false → stagingRoom b2 k.desc recs.length = true →
      c.projected = false → k.proj.kv5 = false →
      Passes s insPre insRanges (fun s c => (insLocate s c).2) noSlots c →
      let h := holding b2 (ran c) k (idLock (ran c) (recs.map (·.vid)))
      let cmd : Cmd := { ran c with born := some k.born }
      (Taken s q (opIs 0x20) c → liveErr k recs = none →
        exec (.insert q) s = .next (slabEnqueue h (sketchOp k cmd recs.length))) ∧
      (Taken s q (opIs 0x22) c →
        exec (.update q) s = .next (slabEnqueue h (sketchOp k cmd recs.length)))) ∧
    (∀ (k1 : Coll) (places : List Place) (l : Lock),
      let run : Cmd := { c with phase := .running, born := some k.born }
      let g := updCmd (setPhase s c.id .running) c.id fun x => { x with born := some k.born }
      let a := assignSlots k.id (closeDue (retire g))
        (recs.map fun r => !(recCopy k.desc r).side.isEmpty) []
      let built := buildNodes a.1 c.loaded k1 (recs.zip places)
      let ns := pruned a.1 k1 built
      let old := replaced k1 recs
      let fresh := old.filter fun x => (changeOf a.1 k1.id x).isNone
      let e := a.1.epochs.opened
      let reads := nodeRanges a.1.mem k1 ns
      let done := ns.foldl (commitNode e c.id k1.id) (ns.foldl countBuild a.1)
      c.checked = true → c.born = some k.born → findColl s (entColl c) = some k →
      lockOf s c.id = some l → l.held = true → s.lintel.withheld = false →
      stagingRoom s k.desc recs.length = true → (c.projected = true ∨ k.proj.kv5 = true) →
      a.2 = some places → findColl a.1 k.id = some k1 →
      (places.map (·.slot) ++ old).any (compactingSlot k1) = false →
      built.findSome? (·.err) = none → built.findSome? (·.stop) = none →
      (∀ n ∈ built, ∀ y ∈ n.cands, ∀ r ∈ copyRanges k1 y.num, bulkHomed a.1 r = false) →
      changeRoom a.1 (fresh ++ ns.map (·.place.slot)) = true →
      patchRoom a.1 k1.desc (ns.flatMap (nodePatches k1 e)) = true →
      reachRanges a.1 c.loaded reads = none →
      (∀ r ∈ reads, r.write = false → bulkHomed a.1 r = false) →
      (Taken s q (opIs 0x20) c → liveErr k recs = none →
        exec (.insert q) s = .next (sealed done run recs.length e 0)) ∧
      (Taken s q (opIs 0x22) c →
        exec (.update q) s = .next (sealed done run old.length e (recs.length - old.length))))

/-- The commit of one node: its slot is added, its ID leads to it, its change-table entry has the insert
epoch, its back-edges go to the patch logs, and the slot that an UPDATE replaces is given that epoch as
its delete epoch (R147, R155, R156, R162). No epoch, key-value object or queue changes. -/
def Obligations.CommitGivesTheNodeItsSlotAndEpoch : Prop :=
  ∀ (s : State) (e cmd : Nat) (k : Coll) (n : NewNode),
    findColl s k.id = some k →
    let t := commitNode e cmd k.id s n
    t.index.patches = s.index.patches ++ nodePatches k e n ∧
    (∃ k', findColl t k.id = some k' ∧ k'.desc = k.desc ∧
      k'.slots = k.slots ++ [{
      num := n.place.slot, vid := n.vid, attr := n.attr, sketch := n.code,
        copy := n.copy, sideRow := n.place.row }] ∧
      (idLookup k n.vid = none →
        k'.idMap = idAdd (dIdEntries k.desc) k.idMap n.vid n.place.slot)) ∧
    (idLookup k n.vid = none →
      t.index.changes = s.index.changes ++ [{
      coll := k.id, slot := n.place.slot, vid := n.vid,
        ins := e }]) ∧
    (∀ o, idLookup k n.vid = some o →
      (∃ x, changeOf t k.id o = some x ∧ x.del = some e) ∧
      (∀ o', o' ≠ o → o' ≠ n.place.slot → changeOf t k.id o' = changeOf s k.id o')) ∧
    t.epochs = s.epochs ∧ t.kv = s.kv ∧ t.sched = s.sched

/-- A DELETE that nothing holds up gives each LIVE ID's slot the delete epoch O, behind the boundaries that
are due, takes the ID out of the ID map and completes with the counts of R161; an ID that is not LIVE changes
nothing (R139, R161). -/
def Obligations.DeleteCommitsAtTheOpenEpoch : Prop :=
  (∀ (s : State) (q : QueueId) (c : Cmd) (k : Coll),
    let b := begun s c []
    let ids := delIds b (ran c)
    let live := ids.filterMap (idLookup k)
    let h := closeDue (retire (holding b (ran c) k (idLock (ran c) ids)))
    let reads := idReadRanges h.mem k.desc k.idMap.length ids
    Taken s q (opIs 0x21) c →
    Passes s delPre (fun _ c => [{ addr := entDesc c, len := 8 * entCount c }])
      (fun s c => delErr 0 [] (delIds s c)) noSlots c →
    c.born = none → k.id = entColl c → findColl s k.id = some k →
    LockAtOnce b (idLock (ran c) ids) →
    changeRoom h (live.filter fun x => (changeOf h k.id x).isNone) = true →
    reachRanges h c.loaded (reads ++ idWriteRanges k.desc k.idMap
      (ids.foldl (fun m v => idRemove (dIdEntries k.desc) m v) k.idMap)) = none →
    (∀ r ∈ reads, bulkHomed h r = false) →
    exec (.delete q) s = .next (sealed (ids.foldl (deleteId h.epochs.opened c.id k.id) h)
      { ran c with born := some k.born } live.length h.epochs.opened (ids.length - live.length))) ∧
  (∀ (s : State) (e cmd v : Nat) (k : Coll), findColl s k.id = some k →
    let t := deleteId e cmd k.id s v
    (idLookup k v = none → t = s) ∧
    (∀ o, idLookup k v = some o →
      (∃ x, changeOf t k.id o = some x ∧ x.del = some e) ∧
      (∀ o', o' ≠ o → changeOf t k.id o' = changeOf s k.id o') ∧
      (∃ k', findColl t k.id = some k' ∧ k'.slots = k.slots ∧ k'.blocks = k.blocks ∧
        k'.idMap = idRemove (dIdEntries k.desc) k.idMap v)) ∧
    t.index.patches = s.index.patches ∧ t.epochs = s.epochs ∧ t.kv = s.kv ∧ t.sched = s.sched)

/-- REPAIR pins P and becomes its collection's repair; in its next step it gives the slots DELETED at its
pin the repair epoch O, adds its patches and completes with their number (R163 to R165). COMPACT claims
its segment and destination; in its next step it folds the segment and switches it (R177), or ends with
INTEGRITY where the CHECK of the header fails (R61). -/
def Obligations.RepairAndCompactRunInTwoVisits : Prop :=
  ∀ (s : State) (q : QueueId) (c : Cmd) (k : Coll),
    (∀ (e : Nat), Taken s q (opIs 0x25) c →
      Passes s maintPre maintRange (fun s c => maintErr s c none) noSlots c → c.born = none →
      c.pin = none → findColl s (byteAt (maintBlock s c) 4) = some k → k.repairing = none →
      s.epochs.published = e + 1 → k.repairCommit ≤ release s →
      exec (.repair q) s = .next (updCmd (updColl (begun s c []) k.id fun k => { k with
        repairing := some c.id }) c.id fun x => { x with
          phase := .ready, born := some k.born, pin := some (e + 1) })) ∧
    (∀ (pr : Nat),
      let g := closeDue (retire (setPhase s c.id .running))
      let e := g.epochs.opened
      let dead := repairDead g k pr
      let ps := (repairReads g k pr).flatMap fun x => match x.2 with
        | some b => repairBlock g k pr e b x.1
        | none => []
      Taken s q (opIs 0x25) c → c.checked = true → c.pin = some pr →
      findColl s (byteAt (maintBlock s c) 4) = some k → s.lintel.withheld = false →
      reachRanges g c.loaded ((repairSlots g k pr).map (blockRange k)) = none →
      repairBad g k pr = none →
      changeRoom g ((dead.filter fun x => (changeOf g k.id x.num).isNone).map (·.num)) = true →
      patchRoom g k.desc ps = true →
      ∃ p, exec (.repair q) s = .next (sealed (endRepair p k.id e)
          { c with phase := .running } 0 e dead.length) ∧
        p.index.patches = g.index.patches ++ ps ∧ p.index.colls = g.index.colls ∧
        (∀ x ∈ dead, ∃ y, changeOf p k.id x.num = some y ∧ y.rep = some e) ∧
        (∀ slot, (∀ x ∈ dead, x.num ≠ slot) → changeOf p k.id slot = changeOf g k.id slot) ∧
        p.mem = g.mem ∧ p.epochs = g.epochs) ∧
    (∀ (g : Segment), compactSeg s c = some (k, g) → Taken s q (opIs 0x24) c →
      (Passes s maintPre maintRange compactErr noSlots c → c.born = none → g.compacting = none →
        s.lintel.withheld = false → compactErr (begun s c []) (ran c) = none →
        ∃ t, exec (.compact q) s = .next t ∧
          t.index.colls = mapIf (·.id == k.id) (fun k => { k with
            segments := mapIf (·.num == g.num) (fun g => { g with compacting := some c.id })
              k.segments }) s.index.colls ∧
          (∃ m ∈ t.tiers.migrations, m.cmd = c.id ∧ m.dest = getLE (maintBlock s c) 16 8) ∧
          t.mem = s.mem ∧ t.epochs = s.epochs ∧ t.kv = s.kv) ∧
      (c.checked = true → g.compacting = some c.id →
        let r := setPhase s c.id .running
        let a := getLE (maintBlock s c) 16 8
        let f := foldSegment r k g.num
        reachRanges r c.loaded (compactReads k g ++ compactWrites r k.desc a) = none →
        (∀ x ∈ compactReads k g, bulkHomed r x = false) →
        (headerFails r.mem g = true → exec (.compact q) s =
          .next (fail (hwError r 1 0x13 (dHome k.desc) g.num 0x30 0) { c with phase := .running }
            { status := 0x30 })) ∧
        (headerFails r.mem g = false → ∀ k1, findColl f k.id = some k1 →
          exec (.compact q) s = .next (sealed (compactSwitch f c.id k1 g a)
            { c with phase := .running } 0 0 0))))

/-- The waits of the live index end: a command that waits for what has come may go on, and no other part
of the module changes; a range-lock entry becomes held once no earlier one overlaps it; the change of a
sealed command that is in NAND posts its completion (R148, R160, R169, R174, R178, R179, R353). -/
def Obligations.LiveIndexWaitsEnd : Prop :=
  ∀ (s : State) (c : Cmd), findCmd s c.id = some c →
    let woken := setPhase s c.id .ready
    (c.phase = .waiting .change → exec (.changeEntryWaitEnd c.id) s =
      .next (setPhase (retire s) c.id .ready)) ∧
    (c.phase = .waiting .patchLog → exec (.patchLogWaitEnd c.id) s = .next woken) ∧
    (c.phase = .waiting .staging → exec (.insertStagingWaitEnd c.id) s = .next woken) ∧
    (c.phase = .waiting .compact → exec (.compactSwitchWaitEnd c.id) s = .next woken) ∧
    (∀ w ∈ [Wait.repair, .migrate, .kvBusy, .linkPool, .drain, .power],
      c.phase = .waiting w → exec (.dispatchWaitEnd c.id) s = .next woken) ∧
    (∀ l, lockOf s c.id = some l → l.held = false → lockFree s l = true →
      c.phase = .waiting .rangeLock →
      exec (.rangeLockGrant c.id) s = .next (setPhase { s with
        index := { s.index with
          locks := mapIf (·.cmd == c.id) (fun x => { x with held := true }) s.index.locks } }
        c.id .ready)) ∧
    (∀ x, c.phase = .sealing x → ∃ p, exec (.sealDurable c.id) s = .next (post p x) ∧
      p.bricks = s.bricks.map (fun b => startPrograms { b with
        programs := b.programs.filter fun y => y.cmd != some c.id }) ∧
      p.sched = s.sched ∧ p.mem = s.mem ∧ p.index.changes = s.index.changes)

/-- A NAND program that runs and is done leaves its Brick and its staging, and those behind it may start;
one that fails is programmed again elsewhere, its erase block retired, with a corrected error record of source
0x11; a die that fails is retired with a deferred record of source 0x12; a refresh writes its block as it stands
(R52, R90, R554, R555, R559). -/
def Obligations.NandProgramsDiesAndRefreshes : Prop :=
  ∀ (s : State) (b : BitVec 6), s.bricks.length = 64 →
    let k := s.bricks.getD b.toNat {}
    (∀ p, k.programs.find? (·.started) = some p →
      (let s1 := { s with
        bricks := modAt s.bricks b.toNat fun k => startPrograms { k with programs := k.programs.erase p }
        index := { s.index with staging := modAt s.index.staging p.course (· - p.bytes) } }
       exec (.nandProgramComplete b false true) s = .next (p.cmd.elim s1 (settleWriting s1))) ∧
      (∃ t, exec (.nandProgramComplete b false false) s = .next t ∧
        (t.bricks.getD b.toNat {}).programs = (startPrograms { k with
          programs := k.programs.erase p ++ [{ p with started := false }] }).programs ∧
        (t.bricks.getD b.toNat {}).retired = k.retired + 1 ∧
        (∃ r, t.hw.log.getLast? = some r ∧ r.cls = 0 ∧ r.source = 0x11 ∧ r.unit = b.toNat) ∧
        t.index = s.index ∧ t.mem = s.mem)) ∧
    (∀ d : BitVec 3, k.deadDies.contains d.toNat = false →
      ∃ t, exec (.nandDieFailure b d) s = .next t ∧
        (t.bricks.getD b.toNat {}).deadDies = k.deadDies ++ [d.toNat] ∧
        (∃ r, t.hw.log.getLast? = some r ∧ r.cls = 1 ∧ r.source = 0x12 ∧ r.unit = b.toNat ∧
          r.status = 0x32) ∧
        t.index = s.index ∧ t.mem = s.mem ∧ t.sched = s.sched) ∧
    (∀ coll slot rest c x, k.refresh = (coll, slot) :: rest →
      findColl s coll = some c → findBlock c slot = some x → brickOf slot = b.toNat →
      ∃ t, exec (.blockRefresh b) s = .next t ∧ (t.bricks.getD b.toNat {}).refresh = rest ∧
        (t.bricks.getD b.toNat {}).programs = (startPrograms { k with
          programs := k.programs ++ [{
            cmd := none, course := b.toNat / 8, bytes := 0, plane := planeOf slot }] }).programs ∧
        t.index = s.index ∧ t.sched = s.sched)

/-! ### Key-value memory (R227 to R270) -/

/-- KV_CREATE that nothing holds up adds its sequence with no tokens and every page UNUSED, under a key
of its own where it names handle 0, and completes; KV_DESTROY takes its sequence, its pages and that
key away (R228, R229, R266, R521). -/
def Obligations.KvCreateAndDestroy : Prop :=
  (∀ (s : State) (q : QueueId) (c : Cmd) (names : List Nat),
    let d := kvBlock s c 64
    let h := withLock (begun s c []) (pageLock c (kvSeqId d) 0 allPages)
    let t := addSeq h d names
    Taken s q (opIs 0x30) c →
    Passes s (fun _ c => descErr c 64) (fun _ c => [{ addr := entDesc c, len := 64 }])
      (fun s c => kvDescErr s (kvBlock s c 64)) noSlots c →
    LockAtOnce s (pageLock c (kvSeqId d) 0 allPages) → findSeq s (kvSeqId d) = none →
    allotKv h d = some names → (kvKey d = 0 → s.lintel.entropyFault = false) →
    exec (.kvCreate q) s = .next (succeed t (ran c) 0 0 0 0 0) ∧
    t.kv = { s.kv with
    seqs := s.kv.seqs ++ [{
      id := kvSeqId d, desc := d, units := names.zip (kvSizes d), len := 0, pages := [],
      image := none }] } ∧
    (kvKey d ≠ 0 → t.lintel = s.lintel) ∧ t.tiers = s.tiers ∧ t.epochs = s.epochs) ∧
  (∀ (s : State) (q : QueueId) (c : Cmd) (x : KvSeq),
    let h := evictState s c x.id
    Evicts s q (opIs 0x36) c x →
    exec (.kvDestroy q) s = .next (succeed { h with
      kv := { s.kv with seqs := s.kv.seqs.filter (·.id != x.id) }
      tiers := { s.tiers with
        entries := releaseUnits s.tiers.entries (x.units.map fun u => {
          name := u.1, bytes := u.2, durable := false }) }
      lintel := { s.lintel with
        coKeys := s.lintel.coKeys.filter fun y => !(y.1 && y.2.1 == x.id) } }
      (ranNoted c) 0 0 0 0 0))

/-- KV_APPEND that nothing holds up frames the pages that its tokens fall in, stores every key and value,
commits the pages that are full, and completes with the new length, which its sequence has once the completion
is posted; every other sequence is left as it was (R236, R237, R267). -/
def Obligations.KvAppendStoresItsTokens : Prop :=
  (∀ (s s1 : State) (q : QueueId) (c : Cmd) (x x1 : KvSeq),
    let d := kvBlock s c 32
    let T := appTokens d
    let pages := headPages (kvHeads x.desc) (pagesOf x.len (x.len + T))
    let lk := pageLock c x.id (x.len / 256) ((x.len + T - 1) / 256)
    let run : Cmd := { ran c with born := some 0, after := [], lens := [x.len] }
    let h := withLock (updCmd (begun s c []) c.id fun y => { y with
      born := some 0, after := [], lens := [x.len] }) lk
    Taken s q (opIs 0x31) c →
    Passes s (fun _ c => descErr c 32) (fun _ c => [{ addr := entDesc c, len := 32 }]) appErr noSlots
      c → c.born = none →
    x.id = kvSeqId d → findSeq s x.id = some x → LockAtOnce s lk → getLE d 16 8 = x.len →
    x.len + T ≤ 2 ^ 32 → x.len + T ≤ 256 * kvMax x.desc → s.lintel.withheld = false →
    (∀ p ∈ pages, pageSt x p.1 p.2 ≠ 3) →
    (∀ r ∈ (bulkOf x pages).flatMap (bulkParts x.desc), c.loaded.contains (bulkKey r) = true) →
    framePages (some (.cmd c.id)) x.id h pages = some s1 → findSeq s1 x.id = some x1 →
    reachRanges s1 c.loaded ({ addr := getLE d 24 8, len := appBytes d x.desc } ::
      frameRanges x1 true pages) = none →
    exec (.kvAppend q) s = .next (succeed (appendTokens s1 c.id x.id x.len d (kvHeads x.desc)) run
      0 0 0 (x.len + T) 0)) ∧
  (∀ (s : State) (cmd id len heads : Nat) (d : List Byte) (x : KvSeq), findSeq s id = some x →
    let t := appendTokens s cmd id len d heads
    (∃ y, findSeq t id = some y ∧ y.len = x.len ∧ y.image = none ∧ y.desc = x.desc) ∧
    (∀ id', id' ≠ id → findSeq t id' = findSeq s id') ∧
    t.index = s.index ∧ t.epochs = s.epochs ∧
    t.sched = { s.sched with
      cmds := mapIf (·.id == cmd) (fun c => { c with grow := some (id, len + appTokens d) })
        s.sched.cmds }) ∧
  (∀ (s : State) (q : ComplQ) (x : Completion) (c : Cmd) (id n : Nat), findCmd s x.cmd = some c →
    c.grow = some (id, n) →
    (writeCompletion s q x).kv =
      { s.kv with seqs := mapIf (·.id == id) (fun y => { y with len := n }) s.kv.seqs })

/-- KV_ATTEND that nothing holds up runs one item for each of its items over its attended pages, with the
lengths that its sequences have at dispatch; each merge writes its item's block and counts it in its home
course, and the last one makes the result slot READY with every block in item order and completes the command
(R239 to R259, R270). -/
def Obligations.KvAttendRunsAndMerges : Prop :=
  (∀ (s : State) (q : QueueId) (c : Cmd),
    let b0 := begun s c (attendSlots s c)
    let a := attendHead (kvBlock b0 c 64)
    let lens := (List.range a.items).map fun i =>
      ((findSeq b0 (itemIn b0 a i).seq).map (·.len)).getD 0
    let b := updCmd b0 c.id fun x => { x with born := some 0, after := [], lens := lens }
    let run : Cmd := { ran c with born := some 0, after := [], lens := lens }
    let ks := (itemCtxs b a lens).zipIdx
    Taken s q (opIs 0x32) c →
    Passes s (fun _ c => descErr c 64) attendRanges attendErr attendSlots c → c.born = none →
    evictsOn b0 (attendSeqs b0 (ran c)) = [] → attendGone b run = none →
    swappedPage b ks = none → s.lintel.withheld = false →
    reachRanges b c.loaded (ks.flatMap fun k => itemRanges b k.1 k.2) = none →
    (∀ k ∈ ks, ∀ r ∈ (bulkOf k.1.q (itemPages b k.1 k.2)).flatMap (bulkParts k.1.q.desc),
      c.loaded.contains (bulkKey r) = true) →
    exec (.kvAttend q) s = .next (startItems b run ks) ∧
    (startItems b run ks).kv = { s.kv with
      items := s.kv.items ++ sortBy bucketLt (ks.map fun k => runItem b run k.1 k.2) } ∧
    (startItems b run ks).drawn = s.drawn + ks.length ∧
    (startItems b run ks).mem = b.mem ∧ (startItems b run ks).sched = b.sched) ∧
  (∀ (s : State) (c : Cmd) (x : AttendItem), findCmd s c.id = some c → nextItem s c.id = some x →
    groutOn s x.home = true →
    exec (.kvAttendMerge c.id) s = .next (attendDone (mergeItem s x) c) ∧
    (∀ a, nextItem s c.id = some a → a.merged = none ∧ a.slabLeft = 0 ∧ a.cmd = c.id) ∧
    (∃ y ∈ (mergeItem s x).kv.items, y.cmd = x.cmd ∧ y.idx = x.idx ∧
      y.merged = some (itemBlock x (mergedParts x
        (((findSeq s x.seq).map fun q => kvDim q.desc).getD 0)))) ∧
    (∀ z ∈ s.kv.items, ¬(z.cmd = x.cmd ∧ z.idx = x.idx) → z ∈ (mergeItem s x).kv.items) ∧
    (mergeItem s x).sched = s.sched ∧ (mergeItem s x).index = s.index) ∧
  (∀ (s : State) (c : Cmd),
    let mine := s.kv.items.filter (·.cmd == c.id)
    let blocks := (sortBy (fun a b => decide (a.idx < b.idx)) mine).flatMap fun x => x.merged.getD []
    (∀ x ∈ mine, x.merged ≠ none ∧ x.emptyRow = false) →
    attendDone s c = succeed (slotReady { s with
        kv := { s.kv with items := s.kv.items.filter (·.cmd != c.id) } } c.id (entResult c) 0
      (header 16 ++ leBytes 2 mine.length ++ zeros 2 ++ leBytes 8 (16 + blocks.length) ++ blocks)
      0xFFFFFFFF) c 0 (if mine.any (·.ties) then 2 else 0) mine.length 0 0)

/-- KV_EVICT, KV_EVICT with ALL, KV_SWAP_OUT and KV_SWAP_IN that nothing holds up move the pages that
R263 to R265 choose, page by page, and complete with their number (R261 to R267). -/
def Obligations.EvictionsMoveTheirPages : Prop :=
  ∀ (s : State) (q : QueueId) (c : Cmd) (x : KvSeq),
    let d := kvBlock s c 32
    let h := evictState s c x.id
    let here := x.pages.filter (·.st == 1)
    let frames := fun (l : List KvPage) => l.map fun p =>
      ({ addr := p.loc, len := kvFrame x.desc, kind := 2 } : Range)
    let o := some (Owner.cmd c.id)
    let bulkDone := fun (t : State) (n : Nat) =>
      if movesOut t c.id then setPhase t c.id (.writing (completionOf (ranNoted c) 0 0 n 0 0))
      else succeed t (ranNoted c) 0 0 n 0 0
    s.lintel.withheld = false →
    (Evicts s q (fun c => opIs 0x33 c && !isAll s c) c x →
      let heads := if getLE d 8 2 = 0xFFFF then List.range (kvHeads x.desc) else [getLE d 8 2]
      let ps := heads.flatMap (evictHead x (getLE d 12 4))
      (bit (byteAt x.desc 14) 0 = false →
        exec (.kvEvict q) s = .next (succeed (ps.foldl (dropPage o x.id) h) (ranNoted c)
          0 0 ps.length 0 0)) ∧
      (bit (byteAt x.desc 14) 0 = true →
        bulkInUse h + bulkPages x.desc ps.length ≤ bulkShare h →
        reachRanges h c.loaded (frames ps) = none →
        exec (.kvEvict q) s = .next (bulkDone (ps.foldl (toBulk o c.id x.id x.desc) h) ps.length))) ∧
    (Evicts s q (fun c => opIs 0x33 c && isAll s c) c x → (∀ p ∈ x.pages, p.st ≠ 3) →
      let ps := sortBy byHeadPage here
      bulkInUse h + bulkPages x.desc ps.length + roundUp (72 + (x.units.map (·.2)).sum) 16384 ≤
        bulkShare h →
      reachRanges h c.loaded (frames ps) = none →
      exec (.kvEvictAll q) s = .next
        (bulkDone (makeDurable (ps.foldl (toBulk o c.id x.id x.desc) h) x.id) ps.length)) ∧
    (Evicts s q (opIs 0x34) c x →
      let ps := sortBy byHeadPage here
      let need := ps.length * kvFrame x.desc
      need ≤ getLE d 24 8 →
      reachRanges h c.loaded (frames ps ++
        [{ addr := getLE d 16 8, len := need, kind := 2, write := true }]) = none →
      exec (.kvSwapOut q) s = .next (succeed
        (ps.zipIdx.foldl (swapOutPage o x.id (getLE d 16 8) x.desc) h) (ranNoted c)
        0 0 ps.length need 0)) ∧
    (∀ s1, Evicts s q (opIs 0x35) c x →
      let bulk := bit (byteAt d 10) 0
      let ps := sortBy byHeadPage (x.pages.filter fun p => p.st == 3 || (bulk && p.st == 2))
      reachRanges h c.loaded (frames (ps.filter (·.st == 3))) = none →
      (∀ r ∈ (ps.filter (·.st == 2)).flatMap (bulkParts x.desc),
        c.loaded.contains (bulkKey r) = true) →
      swapInPages o x.id h ps = some s1 →
      exec (.kvSwapIn q) s = .next (succeed (updSeq s1 x.id fun y => { y with
        image := if bulk then none else y.image }) (ranNoted c) 0 0 ps.length 0 0)) ∧
    (∀ (o : Option Owner) (t : State) (y : KvSeq) (p : KvPage) (n a cmd : Nat) (u : State),
      findSeq t y.id = some y →
      (u = toBulk o cmd y.id y.desc t p ∧ n = 2 ∨ u = dropPage o y.id t p ∧ n = 4 ∨
        u = swapOutPage o y.id a y.desc t (p, 0) ∧ n = 3 ∨ swapInPage t o y.id p = some u ∧ n = 1) →
      (∀ z, z ≠ y.id → findSeq u z = findSeq t z) ∧
      ∃ y', findSeq u y.id = some y' ∧ pageSt y' p.head p.page = n ∧ y'.len = y.len ∧
        (∀ i j, ¬(i = p.head ∧ j = p.page) → findPage y' i j = findPage y i j))

/-! ### Hod and Plumb (R306 to R341) -/

/-- HOD_STREAM binds its one stage to an engine of its course at START; HOD_CHAIN takes its links and
units and binds its stages; PLUMB_SCAN latches its unit and binds a stream of 4 KiB tiles (R306, R308,
R310, R317, R326, R329). -/
def Obligations.HodCommandsBindTheirStages : Prop :=
  ∀ (s : State) (q : QueueId) (c : Cmd), c.id ∉ s.hod.order → streamsOf s c.id = [] →
    (∀ x ∈ s.hod.descs, x.1 ≠ c.id) →
    (∀ l ∈ s.hod.links, (l.producer.map (·.1)) ≠ some c.id ∧ (l.consumer.map (·.1)) ≠ some c.id) →
    (Taken s q (opIs 0x50) c →
      Passes s (fun _ c => firstErr [resultErr c, descErr c 128])
        (fun _ c => [{ addr := entDesc c, len := 128 }])
        (fun s c => streamErr (streamDesc s c) none 1 0)
        (fun _ c => oneSlot 32 c) c →
      let b := begun s c (oneSlot 32 c)
      let d := readBytes b.mem (entDesc c) 128
      hTap d = false → byteAt d 7 % 8 = 0 →
      ∃ t x, exec (.hodStream q) s = .next t ∧ t.hod.streams = s.hod.streams ++ [x] ∧
        x.id = s.hod.nextStream ∧ x.cmd = c.id ∧ x.desc = d ∧ x.st = 0 ∧ x.inFlight = [] ∧
        x.nextIssue = hStart d ∧ x.nextDeliver = hStart d ∧ x.count = hTn d ∧ x.tileBytes = hTb d ∧
        x.engine / 2 = courseOf d (some (hBase d false)) (some (hBase d true)) ∧
        t.hod.links = s.hod.links ∧ t.mem = b.mem ∧ t.plumb = s.plumb ∧
        SameBeside { s with hod := t.hod } t) ∧
    (Taken s q (opIs 0x51) c →
      Passes s (fun _ c => firstErr [resultErr c, descErr c 64])
        (fun s c => [{ addr := entDesc c, len := chBytes (readBytes s.mem (entDesc c) 64) }])
        (fun s c => chainErr s (chainDesc s c))
        (fun s c => oneSlot (16 + 16 * chStages (chainDesc s c)) c) c →
      let b0 := begun s c (oneSlot (16 + 16 * chStages (chainDesc s c)) c)
      let d := chainDesc b0 c
      let b := inOrder b0 c d
      ChainStarts b (ran c) d →
      exec (.hodChain q) s = .next (chainBound b (ran c) d)) ∧
    (Taken s q (opIs 0x52) c →
      Passes s (fun _ c => descErr c 32) (fun _ c => [{ addr := entDesc c, len := 32 }]) scanErr
        noSlots c →
      let d := scanDesc s c
      let u := byteAt d 4
      (unitAt s u).busy = false → s.hod.order = [] → widthOk (unitAt s u) = true → s.plumb.units.length = 4 →
      ∃ t x, exec (.plumbScan q) s = .next t ∧
        t.plumb.units = modAt s.plumb.units u (latchUnit (bit (byteAt d 5) 0)) ∧
        t.hod.streams = s.hod.streams ++ [x] ∧ x.cmd = c.id ∧ x.plumb = some u ∧
        x.plumbBytes = some (getLE d 16 8, getLE d 24 8) ∧
        x.count = ceilDiv (getLE d 24 8) 4096 ∧ x.tileBytes = 4096 ∧ x.st = 0 ∧
        t.mem = s.mem ∧ SameBeside { s with hod := t.hod, plumb := t.plumb } t)

/-- An engine with fewer than eight tiles in flight issues the next tile of the stream whose turn it
is, which takes its counts from its links; a tile delivered writes its bytes, counts in its engine, and
moves the stage's saved position on by one; a copy of one run leaves the source's bytes at the
destination and every other byte as it was (R307, R310, R312, R316, R322). -/
def Obligations.HodTilesAreIssuedAndDelivered : Prop :=
  (∀ (s : State) (e : BitVec 4) (t : Stream) (c : Cmd),
    engineOn s e.toNat = true → t.own = none → tilesInFlight s e.toNat < 8 → nextToIssue s e.toNat = some t → findCmd s t.cmd = some c →
    t.plumb = none → headSize s t = none → issueBlock s t = none →
    ∃ u, exec (.hodTileIssue e) s = .next u ∧
      u.hod.links = s.hod.links.map (takeCounts t) ∧
      u.hod.streams = mapIf (·.id == t.id) (fun x => { x with
        nextIssue := t.nextIssue + 1, taken := max x.taken (t.nextIssue + 1)
        tileBytes := t.tileBytes, got := [], inFlight := x.inFlight ++ [t.nextIssue] }) s.hod.streams ∧
      u.mem = s.mem ∧ SameBeside { s with hod := u.hod } u) ∧
  (∀ (s : State) (t : Stream) (c : Cmd) (i a b n : Nat) (rest : List Nat),
    memWf s.mem = true → engineOn s t.engine = true → t.own = none → t.st = 0 → t.sent = false →
    findStream s t.id = some t → t.inFlight = i :: rest →
    findCmd s t.cmd = some c → t.srcLink = none → t.dstLink = none → t.dstLink2 = none →
    t.plumb = none → t.plumbBytes = none → srcRuns s t i = [(a, n)] → dstRuns t i = [(b, n)] →
    (∀ x ∈ spanUnits b n, ∃ h, homeOf s x = .stack h) → writesOut s (.stream t.id) = false →
    i + 1 < t.count → reachRanges s (tileUnits s t i) (tileRanges s t i) = none →
    ∃ u, exec (.hodTileDelivered t.id) s = .next u ∧
      readBytes u.mem b n = readBytes s.mem a n ∧
      (∀ x, x < b ∨ b + n ≤ x → readByte u.mem x = readByte s.mem x) ∧
      u.hod.streams = mapIf (·.id == t.id) (fun x => { x with
        inFlight := x.inFlight.drop 1, nextDeliver := i + 1, sent := false, lastTime := now s }) s.hod.streams ∧
      u.hod.delivered = modAt s.hod.delivered t.engine (fun m => (m + 1) % 2 ^ 64) ∧
      u.sched = s.sched ∧ u.index = s.index ∧ u.kv = s.kv)

/-- A chain that waits for links of the pool or for a Plumb unit starts once it finds them; a stage that
has waited its whole watchdog time on an end that is over ends its command with STREAM_DEADLOCK and its
report (R317, R320, R321, R326). -/
def Obligations.HodWaitsAndWatchdog : Prop :=
  ∀ (s : State) (c : Cmd), findCmd s c.id = some c →
    (opIs 0x51 c = true → ChainStarts s c (hodDesc s c.id) →
      (c.phase = .waiting .linkPool →
        exec (.hodLinkPoolWaitEnd c.id) s = .next (chainBound s c (hodDesc s c.id))) ∧
      (∀ u, c.phase = .waiting (.plumb u) →
        exec (.plumbUnitWaitEnd c.id) s = .next (chainBound s c (hodDesc s c.id)))) ∧
    (∀ u, opIs 0x51 c = true → c.phase = .waiting (.plumb u) →
      (∃ l ∈ s.hod.links, (l.producer.map (·.1)) = some c.id ∨ (l.consumer.map (·.1)) = some c.id) →
      busyUnit s c.id (chainUnits (hodDesc s c.id)) = none →
      (∀ v ∈ chainUnits (hodDesc s c.id), widthOk (unitAt s v) = true) →
      exec (.plumbUnitWaitEnd c.id) s = .next (unitsBound s c (hodDesc s c.id))) ∧
    (∀ (t : Stream) (l : HodLink) (prod : Bool), findStream s t.id = some t → t.cmd = c.id →
      s.sched.watchdog ≠ 0 → waitsOn s t = [(l, prod)] →
      (if prod then l.prodEnded else l.consEnded) = true → t.lastTime + watchNs s ≤ now s →
      exec (.hodWatchdogExpiry t.id) s = .next (hodFail s c (some t.stage) { status := 0x22 }))
/-! ### Tiers and migration (R271 to R305) -/

/-- MIGRATE PLACE, VACATE, FAULT_ON and FAULT_OFF act on every unit they name, on no other unit and on
no byte of another unit, and complete with the count of units (R291, R293). -/
def Obligations.MigrateActsOnItsUnitsAlone : Prop :=
  ∀ (s : State) (q : QueueId) (c : Cmd),
    let d := readBytes s.mem (entDesc c) 32
    let us := migUnits d
    let b := begun s c []
    memWf s.mem = true → movingElsewhere b us = false → migUnitErr b d = none →
    Passes s migPre migRange migCheck noSlots c →
    (Taken s q (isMigrate s 1) c → ∃ p,
      exec (.migratePlace q) s = .next (succeed p (ran c) 0 0 us.length 0 0) ∧
      (∀ u ∈ us, homeOf p u = .stack u ∧ faultOn p u = false) ∧
      (∀ u, u ∉ us → homeOf p u = homeOf s u ∧ faultOn p u = faultOn s u) ∧
      (∀ a, unitOf a ∉ us → readByte p.mem a = readByte s.mem a)) ∧
    (Taken s q (isMigrate s 2) c → ∃ p,
      exec (.migrateVacate q) s = .next (succeed p (ran c) 0 0 us.length 0 0) ∧
      (∀ u ∈ us, homeOf p u = .vacant) ∧
      (∀ u, u ∉ us → homeOf p u = homeOf s u ∧ faultOn p u = faultOn s u) ∧
      (∀ a, unitOf a ∉ us → readByte p.mem a = readByte s.mem a)) ∧
    (Taken s q (isMigrate s 3) c → ∃ p,
      exec (.migrateFaultOn q) s = .next (succeed p (ran c) 0 0 us.length 0 0) ∧
      (∀ u ∈ us, faultOn p u = true) ∧ (∀ u, homeOf p u = homeOf s u) ∧
      (∀ u, u ∉ us → faultOn p u = faultOn s u) ∧ p.mem = s.mem) ∧
    (Taken s q (isMigrate s 4) c → ∃ p,
      exec (.migrateFaultOff q) s = .next (succeed p (ran c) 0 0 us.length 0 0) ∧
      (∀ u ∈ us, faultOn p u = false) ∧ (∀ u, homeOf p u = homeOf s u) ∧
      (∀ u, u ∉ us → faultOn p u = faultOn s u) ∧ p.mem = s.mem)

/-- MIGRATE MOVE sets MOVING on its first unit, whose home stays until its copy is done; a copy that is
done, with every access to the old home over, gives the unit its new home with MOVING clear, and the move
goes on with the next unit or completes (R293 to R295). -/
def Obligations.MigrateMovesUnitByUnit : Prop :=
  (∀ (s : State) (q : QueueId) (c : Cmd),
    let d := readBytes s.mem (entDesc c) 32
    let b := begun s c []
    movingElsewhere b (migUnits d) = false → migUnitErr b d = none → s.lintel.withheld = false →
    findMove s c.id = none → Passes s migPre migRange migCheck noSlots c → Taken s q (isMove s) c →
    ∃ t, exec (.migrateMove q) s = .next t ∧
      movingUnit t (getLE d 16 8) = true ∧ (∀ u, homeOf t u = homeOf s u) ∧
      (∀ u, u ≠ getLE d 16 8 → movingUnit t u = movingUnit s u) ∧
      (∃ m, findMove t c.id = some m ∧ m.tier = byteAt d 5 ∧ m.source = getLE d 16 8 ∧
        m.dest = getLE d 24 8 ∧ m.units = getLE d 8 4 ∧ m.done = 0) ∧
      t.mem = s.mem) ∧
  (∀ (s : State) (m : Migration) (c : Cmd),
    let u := moveUnit m
    findMove s m.cmd = some m → findCmd s m.cmd = some c → opIs 0x24 c = false →
    s.uzone.heldDev = [] → m.sent = true → accessOut s (.cmd m.cmd) true = false →
    oldHomeBusy s u = false →
    (m.done + 1 < m.units → ∃ t, exec (.migrateUnitDone m.cmd .ok) s = .next t ∧
      homeOf t u = moveHome m m.done ∧ movingUnit t u = false ∧
      movingUnit t (u + unitBytes) = true ∧
      (∀ v, v ≠ u → homeOf t v = homeOf s v) ∧ t.mem = s.mem) ∧
    (m.done + 1 = m.units → ∃ t, exec (.migrateUnitDone m.cmd .ok) s =
        .next (serveHeld (succeed t c 0 0 m.units 0 0)) ∧
      homeOf t u = moveHome m m.done ∧ movingUnit t u = false ∧
      (∀ v, v ≠ u → homeOf t v = homeOf s v) ∧
      (∀ x ∈ t.tiers.migrations, x.cmd ≠ m.cmd) ∧ t.mem = s.mem))

/-- A tier fault ends only once its unit no longer faults some access that waits; then every waiter retries:
its commands go on, and its halted streams resume. One whose time is up ends its commands with TIER_FAULT and
the unit in INFO_A (R284, R285, R288). -/
def Obligations.TierFaultEnds : Prop :=
  ∀ (s : State) (u : Addr) (f : TierFault),
    s.tiers.faults = [f] → f.unit = u.toNat →
    let s0 : State := { s with tiers := { s.tiers with faults := [] } }
    (resolvable s f = false → exec (.tierFaultResolved u) s = .next s) ∧
    (resolvable s f = true → (∀ w ∈ f.waiters, ∃ id, w.who = .cmd id) →
      exec (.tierFaultResolved u) s = .next { s0 with
        sched := { s.sched with
          cmds := mapIf (fun c => f.waiters.any (·.who == .cmd c.id) &&
            c.phase == .waiting (.tier f.unit)) (fun c => { c with phase := .ready }) s.sched.cmds } }) ∧
    (∀ id acc, resolvable s f = true → f.waiters = [{ who := .stream id, access := acc }] →
      exec (.tierFaultResolved u) s = .next (resumeStream s0 id)) ∧
    (∀ (c : Cmd) (acc : Nat), f.waiters = [{ who := .cmd c.id, access := acc }] →
      findCmd s c.id = some c → c.phase = .waiting (.tier f.unit) → s.tiers.timeout ≠ 0 →
      f.opened + s.tiers.timeout * 1000 ≤ now s → s.hod.order.contains c.id = false →
      exec (.tierFaultTimeout u) s = .next (dropOrphans (fail s0 c {
        status := 0x20, info32 := if opIs 0x11 c then c.batch.ready else 0, a := u.toNat }))) ∧
    (s.tiers.timeout = 0 ∨ now s < f.opened + s.tiers.timeout * 1000 →
      exec (.tierFaultTimeout u) s = .next s)

/-- A write of TIER_FAULT_QUEUE_CONTROL sets ENABLE and HEAD; ENABLE starts the ring at TAIL 0 with
PHASE 1, no other register of the block changes, and a CMP answers it. A far read's response lets its
command go on; a lost link is DOWN with a deferred error record of source XF_LINK; a capacity change is taken
for its link alone (R282, R297, R298, R302, R303, R421, R559). -/
def Obligations.TierFaultQueueAndFarMemory : Prop :=
  (∀ (s : State) (v : BitVec 32) (tag : BitVec 12), RequestArrives s → s.quoin.stage = 7 →
     blockUp s .tier = true → (∀ f ∈ s.tiers.faults, f.posted = true) →
     let r := awoken s
     exec (.tierFaultQueueEnable ⟨v, tag⟩) s = .next (answer { r with
       tiers := { s.tiers with
         enable := true
         head := v.extractLsb' 12 12
         tail := if s.tiers.enable then s.tiers.tail else 0
         phase := if s.tiers.enable then s.tiers.phase else true } } (.cmpResp tag.toNat 0)) ∧
     (v.getLsbD 31 = s.tiers.enable → exec (.tierFaultQueueHead ⟨v, tag⟩) s = .next (answer { r with
       tiers := { s.tiers with head := v.extractLsb' 12 12 } } (.cmpResp tag.toNat 0)))) ∧
  ((∀ (s : State) (c : Cmd) (l : Nat), findCmd s c.id = some c → c.phase = .waiting (.far l) →
     s.uzone.heldDev = [] → exec (.xfReadResponse (.cmd c.id) false) s = .next { s with
       sched := { s.sched with
         cmds := mapIf (·.id == c.id) (fun x => { x with phase := .ready }) s.sched.cmds } }) ∧
   (∀ (s : State) (l : BitVec 2), s.tiers.xfUp.getD l.toNat false = true →
     farOwners s l.toNat = [] → s.uzone.heldDev = [] →
     ∃ t, exec (.xfLinkDown l) s = .next t ∧ t.tiers.xfUp.getD l.toNat false = false ∧
       (∀ i, i ≠ l.toNat → t.tiers.xfUp.getD i false = s.tiers.xfUp.getD i false) ∧
       (∃ r, t.hw.log.getLast? = some r ∧ r.cls = 1 ∧ r.source = 0x32 ∧ r.unit = l.toNat ∧
         r.status = 0x40) ∧
       t.mem = s.mem ∧ t.sched = s.sched) ∧
   (∀ (s : State) (l : BitVec 2) (n : Nat), exec (.xfCapacityChange l n) s = .next { s with
     tiers := { s.tiers with xfCap := modAt s.tiers.xfCap l.toNat fun _ => n } }))
/-! ### Queues and commands (R342 to R383) -/

/-- QUEUE_CREATE writes its audit record and adds a submission queue, a completion queue or a result
area as its descriptor says, and completes with SUCCESS (R343 to R346, R529). -/
def Obligations.QueueCreateAddsWhatItsDescriptorSays : Prop :=
  ∀ (s : State) (q : QueueId) (c : Cmd),
    let d := readBytes s.mem (entDesc c) 64
    let a := audit (begun s c []) 0 0x43 [byteAt d 4, getLE d 6 2] (c.sq + entTag c * 65536)
      (c.entry ++ d)
    Taken s q (opIs 0x60) c →
    Passes s (fun _ c => descErr c 64) (fun _ c => [{ addr := entDesc c, len := 64 }])
      (fun s c => queueErr s (readBytes s.mem (entDesc c) 64)) noSlots c →
    auditOk (begun s c []) = true →
    (byteAt d 4 = 0 → exec (.queueCreate q) s = .next (succeed { a with
      sched := { a.sched with
        sqs := a.sched.sqs ++ [{
        id := getLE d 6 2, cls := byteAt d 5, depth := getLE d 8 2,
          cq := getLE d 10 2, base := getLE d 16 8, head := 0, tail := 0, frozen := false,
          alive := none }] } } (ran c) 0 0 0 0 0)) ∧
    (byteAt d 4 = 1 → exec (.queueCreate q) s = .next (succeed { a with
      sched := { a.sched with
        cqs := a.sched.cqs ++ [{
        id := getLE d 6 2, depth := getLE d 8 2, base := getLE d 16 8,
          vector := if getLE d 12 2 = 0xFFFF then none else some (getLE d 12 2),
          coCount := getLE d 14 2, coTime := getLE d 24 4, head := 0, tail := 0,
          phase := true }] } } (ran c) 0 0 0 0 0)) ∧
    (byteAt d 4 = 2 → exec (.queueCreate q) s = .next (succeed { a with
      sched := { a.sched with
        areas := a.sched.areas ++ [{
        id := getLE d 6 2, base := getLE d 16 8,
          bytes := getLE d 32 8 }] } } (ran c) 0 0 0 0 0))

/-- QUEUE_DELETE writes its audit record; a submission queue stops and its fetched commands end with
QUEUE_DELETED (0x61), a completion queue or result area is gone (R373, R529). A QUEUE_RESTART that waits for
the queue ends (the model's choice, log 116). -/
def Obligations.QueueDeleteRemovesOrStops : Prop :=
  ∀ (s : State) (q : QueueId) (c : Cmd),
    let a := audit (begun s c []) 0 0x44 [entField c 64 1, entQueue c] (c.sq + entTag c * 65536)
      c.entry
    Taken s q (opIs 0x61) c → Passes s queueDeleteErr noRanges noErr noSlots c →
    auditOk (begun s c []) = true →
    (entField c 64 1 = 0 →
      let gone : State := { a with
      sched := { a.sched with
        sqs := mapIf (·.id == entQueue c) (fun x => { x with deletedBy := some c.id, kept := none })
          a.sched.sqs } }
      exec (.queueDelete q) s = .next (settleDeletes (endFetched
        (dropRestart gone (entQueue c)) (entQueue c) 0x61)) ∧
      ((∀ x ∈ s.sched.sqs, x.restart = none) → dropRestart gone (entQueue c) = gone)) ∧
    (entField c 64 1 = 1 → exec (.queueDelete q) s = .next (succeed { a with
      sched := { a.sched with cqs := a.sched.cqs.filter (·.id != entQueue c) } }
        (ran c) 0 0 0 0 0)) ∧
    (entField c 64 1 = 2 → exec (.queueDelete q) s = .next (succeed { a with
      sched := { a.sched with areas := a.sched.areas.filter (·.id != entQueue c) } }
        (ran c) 0 0 0 0 0))

/-- QUEUE_RESTART in MODE SKIP unfreezes its queue and drops the kept entry. In MODE RETRY it puts that entry
up for dispatch, once the queue and the module have room for one more command in flight, and waits; the
dispatch of the copy unfreezes the queue and completes it. Nothing outside the scheduler changes before its
own completion (R342, R372). -/
def Obligations.RestartResumesFrozenQueue : Prop :=
  (∀ (s : State) (q : QueueId) (c : Cmd) (x : SubQ) (e : List Byte),
    let b := begun s c []
    let w := setPhase b c.id (.waiting .restart)
    s.sched.sqs.filter (·.id == entQueue c) = [x] → x.kept = some e →
    (Taken s q isRetry c → Passes s restartErr noRanges noErr noSlots c →
      (∀ y ∈ s.sched.sqs, y.restart = none) →
      exec (.queueRestartRetry q) s = .next
        (if inFlight s (entQueue c) < 32 ∧ s.sched.cmds.length < 16384 then { w with
          sched := { w.sched with
            sqs := mapIf (·.id == entQueue c) (fun x => { x with
              restart := some (some c.id), kept := none }) s.sched.sqs
            cmds := w.sched.cmds ++ [{
            id := s.sched.nextCmd, sq := entQueue c, urgent := x.cls == 4,
              entry := e, retry := true, phase := .ready }]
            nextCmd := s.sched.nextCmd + 1 } }
        else { w with
          sched := { w.sched with
            sqs := mapIf (·.id == entQueue c) (fun x => { x with restart := some (some c.id) })
              s.sched.sqs } })) ∧
    (Taken s q isSkip c → Passes s restartErr noRanges noErr noSlots c →
      exec (.queueRestartSkip q) s = .next (succeed { b with
        sched := { b.sched with
          sqs := mapIf (·.id == entQueue c) (fun x => { x with frozen := false, kept := none })
            b.sched.sqs } } (ran c) 0 0 0 0 0))) ∧
  (∀ (s : State) (q : Nat) (x : SubQ) (r : Cmd),
    findSq s q = some x → x.restart = some (some r.id) → findCmd s r.id = some r →
    resumeFetch s q = succeed { s with
      sched := { s.sched with
        sqs := mapIf (·.id == q) (fun x => { x with frozen := false, kept := none, restart := none })
          s.sched.sqs } } r 0 0 0 0 0)

/-- LOG_READ returns the records of its page numbered from START on, at most COUNT of them, and the next
number; POWER_STATE with STATE 0 asks for Serving and completes, with another it is kept until the state
is entered; IDENTIFY returns the 256-byte capability block or the description of its collection (R368,
R369, R374, R599, R600). -/
def Obligations.LogReadIdentifyAndPowerStateComplete : Prop :=
  (∀ (s : State) (q : QueueId) (c : Cmd),
     (Taken s q (opIs 0x63) c →
       Passes s logReadErr noRanges noErr
         (fun _ c => oneSlot (entCount c * recordBytes (entField c 64 1)) c) c →
       let b := begun s c (oneSlot (entCount c * recordBytes (entField c 64 1)) c)
       let from' := entField c 72 8
       let r := logRecords s (entField c 64 1) from' (from' + entCount c)
       exec (.logRead q) s = .next (succeed
         (slotReady b c.id (entResult c) 0 r.1.flatten 0xFFFFFFFF) (ran c) 0 0 r.1.length r.2 0)) ∧
     (Taken s q (opIs 0x68) c → Passes s powerErr noRanges noErr noSlots c →
       entField c 64 1 = 0 → s.power.request = none →
       let b := begun s c []
       exec (.powerState q) s = .next (succeed { b with
         power := { b.power with target := 0, automatic := false, request := none, waitFor := [] } }
         (ran c) 0 0 0 0 0)) ∧
     (Taken s q (opIs 0x68) c → Passes s powerErr noRanges noErr noSlots c →
       entField c 64 1 ≠ 0 → s.power.request = none →
       ∃ t, exec (.powerState q) s = .next t ∧ t.power.target = entField c 64 1 ∧
         t.power.request = some c.id ∧ t.mem = s.mem ∧ SameBeside { s with power := t.power } t)) ∧
  (∀ (s : State) (q : QueueId) (c : Cmd),
     let slots := fun (_ : State) (c : Cmd) =>
       oneSlot (if identSelector c == 0 then 256 else 640) c
     let b := begun s c (slots s c)
     Taken s q (opIs 0x6F) c → Passes s identifyErr noRanges noErr slots c →
     (identSelector c = 0 → exec (.identify q) s = .next (succeed
       (slotReady b c.id (entResult c) 0 (capability b) 0xFFFFFFFF) (ran c) 0 0 0 0 0) ∧
       (capability b).length = 256) ∧
     (∀ k, identSelector c = 1 → findColl s (entColl c) = some k →
       exec (.identify q) s = .next (succeed
         (slotReady b c.id (entResult c) 0 (describe b k) 0xFFFFFFFF) (ran c) 0 0 0 0 0)))

/-- The arbiter's fetch copies the 128 bytes of the entry at H into a new command, advances H by one and
changes nothing outside the scheduler; from the stack of a course that is off it waits for the domain, which
wakes; a completion that is posted reports H as it then stands (R32, R349, R350). -/
def Obligations.CommandFetchCopiesTheEntryAtHead : Prop :=
  (∀ (s : State) (q : SubQ) (cls : Nat) (credit : List Nat),
    arbiter s = (some cls, credit) → (rrNext s cls).bind (findSq s) = some q →
    raiseCopies s = s →
    (courseOff s (unitOf (q.base + 128 * q.head)) = true →
      (∀ x ∈ s.sched.cmds, x.phase = .fetched → entryErr s x = none) →
      exec .commandFetch s = .next { s with power := { s.power with wake := true } }) ∧
    (courseOff s (unitOf (q.base + 128 * q.head)) = false → entryMissing s q = [] →
    (∀ x ∈ s.sched.cmds, x.phase = .fetched → entryErr s x = none) →
    entryErr s {
    id := s.sched.nextCmd, sq := q.id, urgent := q.cls == 4,
      entry := readBytes s.mem (q.base + 128 * q.head) 128 } = none →
    exec .commandFetch s = .next { s with
      sched := { s.sched with
        cur := if cls = 4 then s.sched.cur else cls
        credit := if cls = 4 then credit else modAt credit cls (· - 1)
        rr := modAt s.sched.rr cls (fun _ => some q.id)
        sqs := mapIf (·.id == q.id) (fun x => { x with head := (x.head + 1) % x.depth }) s.sched.sqs
        cmds := s.sched.cmds ++ [{
        id := s.sched.nextCmd, sq := q.id, urgent := q.cls == 4,
          entry := readBytes s.mem (q.base + 128 * q.head) 128 }]
        nextCmd := s.sched.nextCmd + 1 } })) ∧
  (∀ (s : State) (x : Completion) (sq : SubQ) (q : ComplQ),
    Posts s x sq q → memWf s.mem = true → sq.head < 2 ^ 16 →
    getLE (readBytes (post s x).mem (q.base + 32 * q.tail) 32) 4 2 = sq.head)

/-- A doorbell stores a tail or head below the queue's depth, another value sets the queue's
DOORBELL_ERROR, no other queue changes, and a CMP answers it; COALESCE_TIMEOUT raises the interrupt that is
due and clears the count. ENABLE makes queues 0 at the bases and depths written, in class urgent, with vector
0; RETRY and SKIP restart a frozen queue 0, RETRY with its kept entry (R342, R348, R358, R362, R372, R377,
R383, R421). -/
def Obligations.DoorbellsCoalescingAndAdminQueues : Prop :=
  ((∀ (s : State) (q : QueueId) (v : BitVec 32) (tag : BitVec 12), RequestArrives s → s.quoin.stage = 7 →
     exec (.sqTailDoorbell q ⟨v, tag⟩) s = .next (answer { awoken s with
       sched := { s.sched with
         sqs := mapIf (fun x => x.id == q.toNat && x.deletedBy.isNone)
           (fun x => if v.toNat % 4096 < x.depth then { x with tail := v.toNat % 4096 }
             else { x with dbErr := true }) s.sched.sqs } } (.cmpResp tag.toNat 0))) ∧
   (∀ (s : State) (q : QueueId) (v : BitVec 32) (tag : BitVec 12), RequestArrives s → s.quoin.stage = 7 →
     (∀ x ∈ s.sched.cqs, x.held = []) → (∀ x ∈ s.sched.sqs, x.deletedBy = none) →
     exec (.cqHeadDoorbell q ⟨v, tag⟩) s = .next (answer { awoken s with
       sched := { s.sched with
         cqs := mapIf (fun x => x.id == q.toNat)
           (fun x => if v.toNat % 4096 < x.depth then { x with head := v.toNat % 4096 }
             else { x with dbErr := true }) s.sched.cqs } } (.cmpResp tag.toNat 0))) ∧
   (∀ (s : State) (cq : QueueId) (x : ComplQ) (t : Nat), findCq s cq.toNat = some x →
     x.firstAt = some t → x.coTime ≠ 0 → t + x.coTime * 1000 ≤ now s →
     exec (.coalesceTimeout cq) s = .next { s with
       sched := { s.sched with
         cqs := mapIf (·.id == x.id) (fun y => { y with since := 0, firstAt := none }) s.sched.cqs }
       uzone := match x.vector with
         | some v => uzSend s.uzone [.intr v]
         | none => s.uzone })) ∧
  (∀ (s : State) (v : BitVec 32) (tag : BitVec 12), RequestArrives s → s.quoin.stage = 7 →
     blockUp s .sched = true → v.toNat / 2 ^ 29 % 4 = 0 →
     let r := awoken s
     let done := Msg.cmpResp tag.toNat 0
     (s.sched.adminEnable = false → adminOk s (v.toNat % 4096) (v.toNat / 4096 % 4096) = true →
       exec (.adminQueueEnable ⟨v, tag⟩) s = .next (answer { r with
         sched := { s.sched with
           adminSqDepth := v.toNat % 4096, adminCqDepth := v.toNat / 4096 % 4096, adminEnable := true
           sqs := s.sched.sqs ++ [{
           id := 0, cls := 4, depth := v.toNat % 4096 + 1, cq := 0,
             base := bits s.sched.adminSqBase.toNat 51 12 * 4096 }]
           cqs := s.sched.cqs ++ [{
           id := 0, depth := v.toNat / 4096 % 4096 + 1,
             base := bits s.sched.adminCqBase.toNat 51 12 * 4096, vector := some 0, coCount := 1,
             coTime := 0 }] } } done)) ∧
     (s.sched.adminEnable = true → restartable s 0 = true →
       exec (.adminQueueRetry ⟨v, tag⟩) s = .next (answer (restartQueue r 0 true none) done) ∧
       exec (.adminQueueSkip ⟨v, tag⟩) s = .next (answer { r with
         sched := { s.sched with
           sqs := mapIf (·.id == 0) (fun x => { x with frozen := false, kept := none })
             s.sched.sqs } } done)))

/-- A completion posted to a queue with room, whose entry its agent can write, is the 32 bytes of R357 at the
queue's tail; the tail advances, PHASE turns over at a wrap, and the command is no longer in flight (R357,
R358, R362). -/
def Obligations.CompletionIsWrittenAtTheTail : Prop :=
  ∀ (s : State) (x : Completion) (sq : SubQ) (q : ComplQ),
    Posts s x sq q → memWf s.mem = true →
    let t := post s x
    readBytes t.mem (q.base + 32 * q.tail) 32 = completionBytes x sq.head q.phase ∧
    (∀ a, a < q.base + 32 * q.tail ∨ q.base + 32 * q.tail + 32 ≤ a →
      readByte t.mem a = readByte s.mem a) ∧
    (∃ y ∈ t.sched.cqs, y.id = q.id ∧ y.tail = (q.tail + 1) % q.depth ∧
      y.phase = if (q.tail + 1) % q.depth = 0 then !q.phase else q.phase) ∧
    (∀ y ∈ t.sched.cmds, y.id ≠ x.cmd) ∧ t.sched.sqs = s.sched.sqs

/-- A command that fails an entry check before dispatch, in a queue that was not frozen, with a completion queue that has
room: the queue is frozen and keeps the command's entry, and the error log gains a record with the
status, the location and the entry (R353, R370, R371, R372). -/
def Obligations.ErrorFreezesTheQueue : Prop :=
  ∀ (s : State) (c : Cmd) (e : Err) (q : SubQ),
    findSq s c.sq = some q → q.frozen = false → q.id = c.sq →
    let t := recordError s c e
    (∃ y ∈ t.sched.sqs, y.id = c.sq ∧ y.frozen = true ∧ y.kept = some c.entry) ∧
    t.sched.errNext = s.sched.errNext + 1 ∧
    (∃ r, t.sched.errLog.getLast? = some r ∧ r.number = s.sched.errNext ∧ r.sq = c.sq ∧
      r.tag = entTag c ∧ r.status = e.status ∧ r.froze = true ∧ r.infoA = e.a ∧ r.infoB = e.b ∧
      r.entry = c.entry) ∧
    (∀ y ∈ t.sched.sqs, y.id ≠ c.sq → y ∈ s.sched.sqs) ∧
    t.sched.cmds = s.sched.cmds ∧ t.mem = s.mem ∧ SameBeside s { t with sched := s.sched }


/-! ### Uzone (R407 to R432) -/

/-- A flit in its turn is taken: its ACK frees kept flits, its credits are added, and a payload flit with
the awaited number is delivered, moves that number on and is acknowledged; a flit that does not check, or part
of which lies in a codeword with more than 15 wrong symbols, is dropped and counted, and draws one NAK; a NAK
is counted and has the kept flits sent again; the eighth NAK of one number, a lane that loses its lock and a
missing ACK start a retraining (R409, R412 to R416, R437, R438). -/
def Obligations.UzoneFlitsAndReplay : Prop :=
  ∀ (s : State), s.uzone.link.st = 2 → s.uzone.heldDev = [] →
    (∀ (f : List Byte) (low high : List Nat),
      let errors := laneErrors low high
      let e := codewordErrors (if s.uzone.link.degraded then 8 else 16) errors
      let c := codeStep s.uzone.cwBits s.uzone.cwErrors e
      let w := (uzCodeword s errors).1
      let l0 := takeCredits (flitClass f) (flitCredits f) (takeAck (flitAck f) (freshLink s.uzone.link))
      s.uzone.uncorrectable < 0xFFFE →
      w.uzone.uncorrectable = s.uzone.uncorrectable + (if c.begun ∧ 15 < e then 1 else 0) ∧
      w.uzone.fecCorrected =
        (if c.begun ∧ e ≤ 15 then (s.uzone.fecCorrected + e) % 2 ^ 64 else s.uzone.fecCorrected) ∧
      (c.lost = false → flitOk f = true → badMessage uzSlots f l0 = false →
        s.uzone.link.waiting = [] → s.power.st ≠ 2 →
        exec (.uzoneFlitReceived f low high) s = .next { w with
          uzone := { w.uzone with link := takePayload uzSlots f l0 } } ∧
        (flitKind f = 0 → BitVec.ofNat 12 (flitSeq f) = s.uzone.link.rxNext →
          (takePayload uzSlots f l0).rxNext = s.uzone.link.rxNext + 1 ∧
          (takePayload uzSlots f l0).acked = some (flitSeq f) ∧
          (takePayload uzSlots f l0).delivered = s.uzone.link.delivered ++ [flitSlots f])) ∧
      (c.lost = true ∨ flitOk f = false → s.uzone.checkErrors < 0xFFFE →
        ∃ t, exec (.uzoneFlitReceived f low high) s = .next t ∧
          t.uzone.checkErrors = s.uzone.checkErrors + (if c.lost then 0 else 1) ∧
          t.uzone.link.discarding = true ∧
          t.uzone.link.naksSent = s.uzone.link.naksSent +
            (if s.uzone.link.discarding then 0 else 1) ∧
          t.uzone.link.rxNext = s.uzone.link.rxNext ∧
          t.uzone.link.delivered = s.uzone.link.delivered ∧
          t.uzone.link.kept = s.uzone.link.kept ∧ t = { s with uzone := t.uzone })) ∧
    (∀ q : BitVec 12, s.uzone.replays < 0xFFFE →
      let n := if s.uzone.link.nakSeq = some q.toNat then s.uzone.link.nakRun + 1 else 1
      let t := { s with
        uzone := { s.uzone with
          replays := s.uzone.replays + 1
          link := { s.uzone.link with
            resent := (s.uzone.link.kept.dropWhile (·.seq != q.toNat)).length
            nakSeq := some q.toNat
            nakRun := n } } }
      (n < 8 → exec (.uzoneNakReceived q) s = .next t) ∧
      (8 ≤ n → exec (.uzoneNakReceived q) s = .next (retrainUzone t))) ∧
    (∀ lane : BitVec 4, s.uzone.link.degraded = false → s.uzone.retrains < 0xFFFE →
      exec (.uzoneFecLockLost lane) s = .next { s with
        uzone := { s.uzone with
          retrains := s.uzone.retrains + 1, cwBits := 0, cwErrors := 0
          link := retrainLink s.uzone.link } }) ∧
    (s.uzone.link.kept ≠ [] → s.uzone.retrains < 0xFFFE → exec .uzoneAckTimeout s = .next { s with
      uzone := { s.uzone with
        retrains := s.uzone.retrains + 1, cwBits := 0, cwErrors := 0
        link := retrainLink s.uzone.link } })

/-- A training step over its limit goes back to step 1, on half the lanes where the failing ones all lie
in the other half; a parameter block sets the version, the session, the exposed memory and the peer's
limits, or the link is VERSION_REFUSED where no version is common, and the KV7's own block gives its version,
its session, no exposed memory and 256 requests; a DOWN link trains again; LOW_POWER is
left; the companion's retrain leaves VERSION_REFUSED (R410, R411, R426 to R428, R431, R432). -/
def Obligations.UzoneTrainsAndExchangesParameters : Prop :=
  ∀ (s : State),
    (∀ lanes : BitVec 16, s.uzone.link.st = 1 →
      (lanes.toNat % 256 ≠ 0 ∧ lanes.toNat / 256 ≠ 0 ∨ lanes = 0 →
        exec (.uzoneTrainingTimeout lanes) s = .next { s with
          uzone := { s.uzone with link := { s.uzone.link with step := 1 } } }) ∧
      (lanes.toNat % 256 = 0 → lanes ≠ 0 → s.uzone.link.step ≤ 4 → s.uzone.link.degraded = false →
        ∃ t, exec (.uzoneTrainingTimeout lanes) s = .next t ∧
          t.uzone.link.step = 1 ∧ t.uzone.link.degraded = true ∧ t.uzone.link.upperHalf = false ∧
          (∃ r, t.hw.log.getLast? = some r ∧ r.source = 0x30 ∧ r.location = lanes.toNat) ∧
          t.mem = s.mem ∧ t.sched = s.sched)) ∧
    (∀ b : List Byte, s.uzone.link.st = 1 ∨ s.uzone.link.st = 3 → paramOk b = true →
      newSession s b = false →
      let lo := max (getLE b 4 2) (uzOffer s).1
      let hi := min (getLE b 6 2) (uzOffer s).2
      ∃ u, exec (.uzoneParameterBlock b) s = .next { s with uzone := u } ∧
        (lo ≤ hi → u.negMajor = hi / 256 ∧ u.negMinor = hi % 256 ∧ u.link.step = 6) ∧
        (hi < lo → u.negMajor = 0 ∧ u.negMinor = 0 ∧ u.link.st = 5) ∧
        u.exposed = getLE b 16 8 ∧
        u.session = (if getLE b 8 4 = 0 then s.uzone.session else BitVec.ofNat 32 (getLE b 8 4)) ∧
        u.peerMaxMajor = byteAt b 7 ∧ u.peerMaxMinor = byteAt b 6 ∧
        u.peerRequests = getLE b 24 2) ∧
    (s.uzone.link.st = 0 → s.power.domains.getLsbD 20 = true → 6 ≤ s.quoin.stage →
      ∃ u, exec .uzoneDownRetry s = .next { s with uzone := u } ∧
        u.link.st = 1 ∧ u.link.step = 1 ∧ u.link.kept = [] ∧ u.lines = s.uzone.lines) ∧
    (s.uzone.link.st = 4 → s.uzone.link.waiting = [] →
      exec .uzoneLowPowerExit s = .next { s with
        uzone := { s.uzone with link := { s.uzone.link with st := 2 } } }) ∧
    (s.uzone.link.st = 2 ∨ s.uzone.link.st = 5 →
      exec .uzoneCompanionRetrain s = .next { s with
        uzone := { s.uzone with link := retrainLink s.uzone.link, cwBits := 0, cwErrors := 0 } }) ∧
    (paramBlock s).length = 64 ∧ (paramBlock s).take 4 = header 64 ∧ getLE (paramBlock s) 16 8 = 0 ∧
    getLE (paramBlock s) 24 2 = 256 ∧ getLE (paramBlock s) 8 4 = s.uzone.session.toNat

/-- The companion's reads and writes of stack memory are served in order and answered OK, a partial write
under its mask; one that R603 calls an error is answered with its status, one that must wait is held; its
snoops are answered from the line's state, which becomes S or I; its responses free their tag, give their line
or their data, and let what the access served go on, or end it with LINK_DOWN (R421 to R425, R603). -/
def Obligations.CompanionRequestsAndResponses : Prop :=
  (∀ (s : State), RequestArrives s → memWf s.mem = true → s.uzone.devAsked = false →
    s.uzone.devFar = none → s.uzone.devFailed = none → accessOut (awoken s) .dev true = false →
    let onStack := fun (r : Range) => ∀ u ∈ unitsOf r, ∃ h, homeOf s u = .stack h
    (∀ (a : Addr) (n : BitVec 2) (g : BitVec 12),
      let r := devRange a.toNat (n.toNat + 1) false
      (devReach s r = .ok → exec (.devRd a n g) s = .next (answer (awoken s)
        (.dataResp g.toNat 0 (readBytes s.mem r.addr r.len)))) ∧
      (∀ st, devReach s r = .error st →
        exec (.devRd a n g) s = .next (answer (awoken s) (.dataResp g.toNat st []))) ∧
      (devReach s r = .hold → exec (.devRd a n g) s = .next { awoken s with
        uzone := { (awoken s).uzone with heldDev := [.devRd a n g] } })) ∧
    (∀ (a : Addr) (bs : List Byte) (g : BitVec 12),
      let n := min 4 (bs.length / 64)
      let r := devRange a.toNat n true
      devReach s r = .ok → onStack r →
      ∃ t, exec (.devWr a bs g) s = .next (answer t (.cmpResp g.toNat 0)) ∧
        (∀ b, readByte t.mem b = if r.addr ≤ b ∧ b < r.addr + 64 * n then bs.getD (b - r.addr) 0
          else readByte s.mem b) ∧
        t.uzone = (awoken s).uzone ∧ t.sched = s.sched) ∧
    (∀ (a : Addr) (m : BitVec 64) (bs : List Byte) (g : BitVec 12),
      let r := devRange a.toNat 1 true
      devReach s r = .ok → onStack r → 64 ≤ bs.length →
      ∃ t, exec (.devWrPartial a m bs g) s = .next (answer t (.cmpResp g.toNat 0)) ∧
        (∀ b, readByte t.mem b =
          if r.addr ≤ b ∧ b < r.addr + 64 ∧ m.getLsbD (b - r.addr) = true then
            bs.getD (b - r.addr) 0 else readByte s.mem b) ∧
        t.uzone = (awoken s).uzone ∧ t.sched = s.sched)) ∧
  (∀ (s : State), s.uzone.link.st = 2 → s.uzone.out = [] → s.uzone.heldDev = [] →
    (∀ (a : Addr) (g : BitVec 12),
      let line := a.toNat / 64 * 64
      let x := lineState s.uzone line
      exec (.snpShare a g) s = .next { s with
        uzone := uzSend { s.uzone with
          lines := mapIf (·.addr == line) (fun l => { l with st := 1 }) s.uzone.lines }
          [if x = 3 then .snpRspData g.toNat (lineBytes s.mem line)
           else if x ≠ 0 then .snpRspS g.toNat else .snpRspI g.toNat] } ∧
      exec (.snpInv a g) s = .next { s with
        uzone := uzSend { s.uzone with lines := s.uzone.lines.filter (·.addr != line) }
          [if x = 3 then .snpRspData g.toNat (lineBytes s.mem line) else .snpRspI g.toNat] }) ∧
    (∀ (g : BitVec 12) (r : UzReq), s.uzone.reqs.find? (·.tag == g.toNat) = some r →
      let t := dropReq s g.toNat
      let goes := fun (x : State) => serveHeld (match r.owner with
        | none => x
        | some o => wakeOwner x o)
      (s.uzone.link.waiting = [] → t = { s with
        uzone := { s.uzone with reqs := s.uzone.reqs.filter (·.tag != g.toNat) } }) ∧
      (r.kind = 2 → exec (.grantE g) s = .next (goes { t with
        uzone := setLine t.mem t.uzone r.agent r.addr 2 })) ∧
      (r.kind = 3 → ∀ (h : BitVec 2) (bs : List Byte),
        exec (.data g h 0 bs) s = .next (goes { t with
          mem := writeBytes s.mem (hostName s r.addr) (bs.take 256) })) ∧
      (r.kind = 1 ∨ r.kind = 2 → ∀ (h : BitVec 2) (bs : List Byte),
        let m := writeBytes s.mem (companionBase + r.addr) (bs.take 64)
        exec (.data g h 0 bs) s = .next (goes { t with
          mem := m, uzone := setLine m t.uzone r.agent r.addr (if r.kind = 1 then 1 else 2) })) ∧
      exec (.cmp g 0) s = .next (goes t) ∧
      (∀ o, r.owner = some o →
        exec (.cmp g 1) s = .next (serveHeld (endOwner t o { status := 0x40 })))))

/-! ### Mortar (R438 to R474) -/

/-- Setting a port's enable bit writes its audit record and starts full training with MF on; clearing it
takes the port down. A training step over its limit goes back to step 1; a DOWN port trains again with
the fabric key as it stands; a port that goes down is recorded; a flit in its turn is delivered and
acknowledged, an encrypted one once its tag holds; one that does not check, or part of which lies in a codeword
with too many wrong symbols, draws a NAK; lost lock, a missing ACK and the eighth NAK retrain (R409, R411, R414,
R415, R443, R444, R466, R471). -/
def Obligations.MortarPortsTrainAndCarryFlits : Prop :=
  ∀ (s : State) (port : BitVec 3), s.mortar.ports.length = 8 →
    let p := port.toNat
    let q := portAt s p
    (∀ (v : BitVec 32) (tag : BitVec 12), Served s → RequestArrives s →
      exec (.mortarPortEnable ⟨v, tag⟩) s = .next (answer (writePortControl
        (audit (awoken s) 4 0x50 [0x70008, s.mortar.control.toNat, v.toNat % 65536] 0
          (leBytes 4 0x70008 ++ leBytes 4 v.toNat)) v.toNat) (.cmpResp tag.toNat 0))) ∧
    (∀ v : Nat, (bit v p = true → bit (portEnable s) p = false → s.power.domains.getLsbD 21 = true →
        (enablePort s v p q).link.st = 1 ∧ (enablePort s v p q).fabricKey = heldKey s) ∧
      (bit v p = false → bit (portEnable s) p = true → (enablePort s v p q).link.st = 0) ∧
      (bit v p = bit (portEnable s) p → enablePort s v p q = q)) ∧
    (∀ lanes : BitVec 8, q.link.st = 1 → lanes.toNat % 16 ≠ 0 ∧ lanes.toNat / 16 ≠ 0 ∨ lanes = 0 →
      exec (.mortarTrainingTimeout port lanes) s = .next (updPort s p fun q => { q with
        link := { q.link with step := 1 } })) ∧
    (q.link.st = 0 → bit (portEnable s) p = true → s.power.domains.getLsbD 21 = true →
      exec (.mortarDownRetry port) s = .next (updPort s p (trainPort (heldKey s)))) ∧
    (q.link.st ≠ 0 →
      exec (.mortarLinkDown port) s = .next (hwError (portOut s p 0) 1 0x31 p 0 0x41 0)) ∧
    (q.link.st = 2 →
      (∀ f errors,
        let c := codeStep q.cwBits q.cwErrors (codewordErrors (if q.link.degraded then 4 else 8) errors)
        let x := fun ch => (portFlit ch q f errors).link
        (q.link.waiting = [] → s.power.st ≠ 2 →
          exec (.mortarFlitReceived port f errors) s = .next { updPort s p fun q =>
            portFlit (Config.freeChoice s.drawn % 2) q f errors with drawn := s.drawn + 1 }) ∧
        (∀ ch d, c.lost = false → flitOk f = true → openFlit q f = some d → flitKind d = 0 →
          BitVec.ofNat 12 (flitSeq d) = q.link.rxNext →
          (x ch).rxNext = q.link.rxNext + 1 ∧ (x ch).acked = some (flitSeq d) ∧
          (x ch).delivered = q.link.delivered ++ [flitSlots d]) ∧
        (∀ ch, c.lost = true ∨ flitOk f = false ∨ openFlit q f = none →
          (x ch).discarding = true ∧
          (x ch).naksSent = q.link.naksSent + (if q.link.discarding then 0 else 1) ∧
          (x ch).rxNext = q.link.rxNext ∧ (x ch).delivered = q.link.delivered ∧
          (x ch).kept = q.link.kept)) ∧
      (∀ n : BitVec 12, (q.link.nakSeq = some n.toNat → q.link.nakRun < 7) →
        exec (.mortarNakReceived port n) s = .next (updPort s p fun q => { q with
          link := takeNak n q.link })) ∧
      (∀ lane : BitVec 3, q.link.degraded = false →
        exec (.mortarFecLockLost port lane) s = .next (updPort s p fun q => { q with
          link := retrainLink q.link, aliveFails := 0 })) ∧
      (q.link.kept ≠ [] →
        exec (.mortarAckTimeout port) s = .next (updPort s p fun q => { q with
          link := retrainLink q.link, aliveFails := 0 })))

/-- Control messages in their turn: HELLO makes the peer, its limits and the version known, and the KV7's own
HELLO leaves with its initial credits; LINK_STATE
sets a link's state, floods it and looks at the routes again; TIME_SYNC is answered, or sets the offset
and rate from the parent's answer; KEY_ROLL installs the key that follows from its salt; a transit
message goes on towards its module (R446 to R450, R461 to R466, R526, R527). -/
def Obligations.MortarControlMessagesAndTransit : Prop :=
  ∀ (s : State) (port : BitVec 3) (alive : Byte), s.mortar.ports.length = 8 →
    let p := port.toNat
    let q := portAt s p
    let a := aliveTaken s p alive
    (∀ b : List Byte, q.link.st = 1 → versionOk b 32 = true →
      q.aliveIn = none ∨ q.aliveIn = some ((alive.toNat + 255) % 256) →
      let lo := max (getLE b 6 2) (mortarOffer s).1
      let hi := min (getLE b 8 2) (mortarOffer s).2
      farEnd s (fabNum s) p = some (getLE b 4 2 % 8192) → lo ≤ hi → encryptBit s p = false →
      exec (.hello port alive b) s = .next (updPort a p fun q => grantPort (sendHello a { q with
        peer := BitVec.ofNat 13 (getLE b 4 2)
        peerExport := getLE b 16 8
        peerCommands := [byteAt b 10, byteAt b 11, byteAt b 12, byteAt b 13]
        version := hi / 256 * 16 + hi % 256
        hello := true
        encrypted := false
        link := { q.link with
          reversed := Config.portReversed p, polarity := Config.portPolarity p, st := 1, step := 6 } })) ∧
      (helloBlock s).length = 32 ∧ getLE (helloBlock s) 4 2 = fabNum s) ∧
    (ControlArrives s p alive →
      (∀ (n : BitVec 13) (l : BitVec 3) (up : Bool),
        (s.mortar.links.contains (n.toNat, l.toNat) = !up →
          exec (.linkState port alive n l up) s = .next a) ∧
        (s.mortar.links.contains (n.toNat, l.toNat) = up →
          exec (.linkState port alive n l up) s = .next (linksChanged a
            (flood (setLink a n.toNat l.toNat up) p n.toNat l.toNat up)))) ∧
      (∀ t0 t1 t2 t3 : BitVec 64, s.time.valid = true →
        (s.mortar.isRoot = false → p = s.mortar.parentPort →
          exec (.timeSync port alive t0 t1 t2 t3) s =
            .next (takeSync a t0.toNat t1.toNat t2.toNat t3.toNat)) ∧
        (s.mortar.isRoot = true →
          exec (.timeSync port alive t0 t1 t2 t3) s = .next (controlSend a p 0x21
            (leBytes 8 t0.toNat ++ leBytes 8 s.time.ns.toNat ++ leBytes 8 s.time.ns.toNat ++
              leBytes 8 0))))) ∧
    (s.time.valid = true → s.mortar.isRoot = false → portInService s s.mortar.parentPort = true →
      (∀ x ∈ s.mortar.ports, x.keyOut = none) →
      exec .timeSyncTimer s = .next (controlSend s s.mortar.parentPort 0x21
        (leBytes 8 s.time.ns.toNat ++ leBytes 8 0 ++ leBytes 8 0 ++ leBytes 8 0))) ∧
    (∀ (k : BitVec 32) (salt : List Byte), portInService s p = true → q.encrypted = true →
      q.aliveIn = none ∨ q.aliveIn = some ((alive.toNat + 255) % 256) →
      k.toNat = ((q.keyIn.map (·.1)).getD 0) + 1 →
      exec (.keyRoll port alive k salt) s = .next (updPort a p fun q => { q with
        keyIn := some (k.toNat, Config.hkdf (q.fabricKey.getD [])
          (keyInfo q.peer.toNat (fabNum s) k.toNat salt))
        rxFlits := 0 })) ∧
    (∀ (vc : Bool) (m : List Byte) (out : Nat) (ch : Bool), portInService s p = true →
      getLE m 2 2 % 8192 ≠ fabNum s → byteAt m 0 < 0x20 → transitTo s p vc m = some (out, ch) →
      exec (.mortarTransitForward port vc m) s =
        .next (updPort s out fun q => portSend q [msgOf ch m]))

/-- A request in its turn is executed and answered: REMOTE_RD with the bytes of the export area,
REMOTE_WR by storing them, FANOUT by the member's part; a response frees its request, gives its data or
lets its fan-out go on; one that a neighbour refuses ends what it served with TIER_FAULT where the fault queue
is disabled; BACKOFF holds a pair back and its end sends the requests again; a request too
long unanswered loses its peer (R288, R446, R452 to R454, R457, R459, R467). -/
def Obligations.RemoteRequestsAndResponses : Prop :=
  ∀ (s : State) (h : MortarHeader),
    let w := { s with
      mortar := { s.mortar with
        ports := modAt s.mortar.ports h.port.toNat fun q => { q with link := linkWake q.link } } }
    (ArrivesInTurn s h →
      (∀ n : BitVec 32, remoteReach w h.address.toNat n.toNat false = .ok →
        exec (.remoteRd h n) s = .next (executed (reply (stored w (.remoteRd h n)) h 0x10
          (readBytes s.mem (exportBase s + h.address.toNat) n.toNat)) h)) ∧
      (∀ bs : List Byte, remoteReach w h.address.toNat bs.length true = .ok →
        exec (.remoteWr h bs) s = .next (executed (reply (deviceWrite (stored w (.remoteWr h bs)) none
          (exportBase s + h.address.toNat) bs) h 0x11 [0]) h)) ∧
      (∀ bs : List Byte, h.last = true → s.mortar.pieces = [] → notServing s = false →
        exec (.fanout h bs) s = .next (executed (serveFan (stored w (.fanout h bs)) h bs) h))) ∧
    (∀ r : MReq, Arrives s h → reqOf s h = some r → r.held = false →
      let goes := fun (x : State) => serveHeld (match r.owner with
        | none => forgetReq x r.tag
        | some o => wakeOwner (forgetReq x r.tag) o)
      (∀ bs : List Byte, r.kind = 1 → h.last = true → s.mortar.pieces = [] →
        exec (.remoteData h bs) s = .next (goes { w with
          mem := writeBytes s.mem (r.unit + r.addr % unitBytes) bs })) ∧
      (∀ bs : List Byte, h.last = false → s.mortar.pieces = [] →
        exec (.remoteData h bs) s = .next (serveHeld { w with
          mortar := { w.mortar with pieces := [(h.source.toNat, h.tag.toNat, bs)] } })) ∧
      (r.kind ≠ 3 → exec (.remoteCmp h 0) s = .next (goes w)) ∧
      (r.kind ≠ 3 → ∀ o, r.owner = some o → o ≠ .dev → s.tiers.enable = false →
        exec (.remoteCmp h 0x10) s = .next (serveHeld (endOwner (forgetReq w r.tag) o
          { status := 0x20, a := r.unit }))) ∧
      (∀ st : Byte, r.kind = 3 →
        exec (.remoteCmp h st) s = .next (serveHeld (endReq (forgetReq w r.tag) r st.toNat))) ∧
      (s.mortar.backoffs = [] → exec (.backoff h) s = .next { w with
        mortar := { w.mortar with backoffs := [(r.dest, r.pairSeq)] } }) ∧
      (∀ (bs : List Byte) (f : Nat), r.owner = some (.fan f) → h.last = true → s.mortar.pieces = [] →
        exec (.partialList h bs) s = .next (takePartial (forgetReq w r.tag) r f bs))) ∧
    (∀ (d : BitVec 13) (seq : Nat), s.mortar.backoffs = [(d.toNat, seq)] →
      exec (.backoffResend d) s = .next
        (((s.mortar.reqs.filter fun r => r.dest == d.toNat && !r.held).dropWhile (·.pairSeq != seq)).foldl resend { s with
          mortar := { s.mortar with backoffs := [] } })) ∧
    (∀ (t : BitVec 32) (r : MReq), s.mortar.reqs.find? (·.tag == t.toNat) = some r →
      r.held = false → s.mortar.timeout ≠ 0 → r.sent + s.mortar.timeout * 1000 ≤ now s →
      exec (.mortarRequestTimeout t) s = .next (peerLost s r.dest))

/-! ### Quoin, Lintel and the pins (R477 to R535, R570 to R584) -/

/-- Mailbox requests act once they run: a register is read or written, or a reserved value refused, a staged object's bytes stand in
its buffer, an image or package that holds is applied with its record and resets the module, another is
refused; the end of a drain goes on with the request that began it; the mailbox never runs two (R11, R483 to
R493, R513, R528, R549). -/
def Obligations.QuoinMailboxRequests : Prop :=
  ∀ (s : State) (r : MailReq) (req : List Byte) (b : Bool),
    let m := mailStart s b req
    let reset := fun (t : State) => moduleReset t 2 true
    (∀ n, n = 4 ∨ n = 8 → rArg req 1 = n → Requested s r 0x01 req b →
      let x := readAccess m (rArg req 0) (n == 8)
      exec (.readRegister r) s = .next (mailDone x 0 (rArg req 0) n x.lastRead.toNat [])) ∧
    (Requested s r 0x02 req b → rArg req 1 = 8 →
      valueRefused m (rArg req 0) true (rArg req 2) = true →
      exec (.writeRegister r) s = .next (mailEnd m 0x10)) ∧
    (∀ n, n = 4 ∨ n = 8 → rArg req 1 = n → Requested s r 0x02 req b →
      valueRefused m (rArg req 0) (n == 8) (rArg req 2) = false →
      let x := writeReg m { origin := mailOrigin m, detail := 0x02, digest := req } (rArg req 0)
        (n == 8) (rArg req 2 % 2 ^ (8 * n))
      exec (.writeRegister r) s = .next (mailEnd x (writeStatus m x))) ∧
    (Requested s r 0x10 req b → stageErr req 65536 = none →
      reachRanges m m.quoin.mbGot (stageRanges req) = none →
      exec (.bondStage r) s = .next (mailEnd { m with
        quoin := { m.quoin with
          bondStaging := putBuffer m.quoin.bondStaging (rArg req 0) (stageData m req) } } 0)) ∧
    (Requested s r 0x21 req b → stageErr req 65536 = none →
      reachRanges m m.quoin.mbGot (stageRanges req) = none →
      exec (.firmwareStage r) s = .next (mailEnd { m with
        quoin := { m.quoin with
          fwStaging := putBuffer m.quoin.fwStaging (rArg req 0) (stageData m req) } } 0)) ∧
    (Requested s r 0x11 req b →
      let img := getBuffer m.quoin.bondStaging 0 (min (rArg req 0) 65536)
      exec (.bondApply r) s = .next (match applyErr m img (rArg req 0) with
        | some st => mailFail m st
        | none => stopFetching { m with
            quoin := { m.quoin with
              slots := modAt m.quoin.slots (inactiveSlot m) fun _ => img } }
            (bit (rArg req 1) 0) applySwitch)) ∧
    (Requested s r 0x20 req b →
      (bit (rArg req 1) 0 = false → exec (.moduleReset r) s = .next (reset m)) ∧
      (bit (rArg req 1) 0 = true → m.sched.cmds = [] → exec (.moduleReset r) s =
        .next (reset { m with sched := { m.sched with stopped := true } })) ∧
      (bit (rArg req 1) 0 = true → m.sched.cmds ≠ [] → exec (.moduleReset r) s = .next { m with
        sched := { m.sched with stopped := true }
        quoin := { m.quoin with drain := some (now m) } })) ∧
    (Requested s r 0x22 req b → auditOk m = true →
      let p := stagedPackage m
      let n := 1 - m.lintel.fwSlot
      exec (.firmwareActivate r) s = .next (match packageErr m p p.length with
        | some st => mailFail m st
        | none =>
          let a := mailAudit m 0x11 [getLE p 8 4] p
          moduleReset { a with
            lintel := { a.lintel with
              fwSlots := modAt a.lintel.fwSlots n fun _ => p, fwSelector := n } } 4 true)) ∧
    (Requested s r 0x30 req b → auditOk m = true →
      let a := mailAudit m 0x33 [] []
      exec (.secureErase r) s = .next (reset (eraseNand (dropCommands { a with
        lintel := { a.lintel with
          keys := [], coKeys := [], fabricKey := none, stagingKey := none, dataKey := none } })))) ∧
    (Requested s r 0x31 req b → exec (.holdupTest r) s = .next { m with
      holdup := { m.holdup with testing := true, mailTest := true } }) ∧
    (s.quoin.drain ≠ none →
      let x := { s with quoin := { s.quoin with drain := none } }
      (s.quoin.mbOpcode = 0x20 → exec .drainTimeout s = .next (reset x)) ∧
      (s.quoin.mbOpcode = 0x11 → exec .drainTimeout s = .next (applySwitch x)))

/-- A module reset keeps what R494 keeps: the epochs, the objects of the index, the durable sequences,
the tier translator's durable homes, Lintel's keys, anchors, counters and audit log, the image slots, the
hardware error log and the keeper; an entry of the change table that the floor has passed goes, since no
command pins an epoch any more; and puts queues, links, walks and registers at their reset values (R145, R148,
R267, R300, R492 to R494). -/
def Obligations.ResetKeepsWhatR494Keeps : Prop :=
  ∀ (s : State) (cause : Nat) (goesOn session : Bool),
    let t := resetState s cause goesOn session
    t.epochs.published = s.epochs.published ∧ t.epochs.opened = s.epochs.opened ∧
    t.epochs.floor = s.epochs.floor ∧ t.epochs.schedule = none ∧
    t.index.colls.map (·.desc) = s.index.colls.map (·.desc) ∧
    ((∀ e ∈ s.index.changes, passed s.epochs.floor e = false) →
      t.index.colls.map (·.slots) = s.index.colls.map (·.slots) ∧
      t.index.colls.map (·.blocks) = s.index.colls.map (·.blocks) ∧
      t.index.patches = s.index.patches) ∧
    t.index.changes = s.index.changes.filter (fun e => !passed s.epochs.floor e) ∧
    t.index.locks = [] ∧
    (∀ q ∈ t.kv.seqs, ∃ x ∈ s.kv.seqs, x.id = q.id ∧ x.desc = q.desc ∧
      ∃ i, x.image = some i ∧ q.len = i.1) ∧
    (∀ x ∈ s.kv.seqs, x.image ≠ none → ∃ q ∈ t.kv.seqs, q.id = x.id ∧ q.desc = x.desc) ∧
    t.lintel.keys = s.lintel.keys ∧ t.lintel.ownerAnchors = s.lintel.ownerAnchors ∧
    t.lintel.fwCounter = s.lintel.fwCounter ∧ t.lintel.bondCounter = s.lintel.bondCounter ∧
    t.lintel.audit = s.lintel.audit ∧ t.lintel.debug = 0 ∧
    t.quoin.slots = s.quoin.slots ∧ t.quoin.selector = s.quoin.selector ∧
    t.quoin.resetCause = cause ∧ t.quoin.stage = 0 ∧ t.quoin.active = none ∧
    t.hw.log = s.hw.log ∧ t.time = { s.time with source := false, rate := 0 } ∧
    t.sched = {} ∧ t.walks = [] ∧ t.slab = {} ∧ t.hod = {} ∧ t.plumb = {} ∧ t.mortar = {} ∧
    t.uzone = { session := if session then s.uzone.session else 0 } ∧
    t.power.st = 0 ∧ t.pins.modReady = false

/-- Lintel's requests: staged bytes and reads of its buffers, the attestation report and the challenge
signed into the output buffer, a rollback counter raised and never lowered, debug opened by a token that
matches and is signed and closed again, keys and anchors changed with their audit record (R508 to
R523, R529). -/
def Obligations.LintelMailboxRequests : Prop :=
  ∀ (s : State) (r : MailReq) (req : List Byte) (b : Bool),
    let m := mailStart s b req
    let recorded := fun (event : Nat) (detail : List Nat) (obj : List Byte) =>
      mailAudit m event detail obj
    (Requested s r 0x40 req b → stageErr req 32768 = none →
      reachRanges m m.quoin.mbGot (stageRanges req) = none →
      exec (.lintelStage r) s = .next (mailEnd { m with
        lintel := { m.lintel with
          inBuf := putBuffer m.lintel.inBuf (rArg req 0) (stageData m req) } } 0)) ∧
    (Requested s r 0x41 req b → rArg req 0 = 1 → 1 ≤ rArg req 2 → rArg req 2 ≤ 4064 →
      rArg req 1 + rArg req 2 ≤ 32768 →
      exec (.lintelRead r) s = .next (mailDone m 0 1 (rArg req 1) (rArg req 2)
        (((getBuffer m.lintel.outBuf 0 32768).drop (rArg req 1)).take (rArg req 2)))) ∧
    (Requested s r 0x41 req b → rArg req 0 = 0 → 1 ≤ rArg req 2 → rArg req 2 ≤ 4064 →
      exec (.lintelRead r) s = .next (
        if Config.identityCertificate.length < rArg req 1 + rArg req 2 then mailEnd m 0x10
        else mailDone m 0 0 (rArg req 1) (rArg req 2)
          ((Config.identityCertificate.drop (rArg req 1)).take (rArg req 2)))) ∧
    (Requested s r 0x42 req b → (rPayload req).length = 32 →
      exec (.attest r) s = .next (mailEnd { m with
        lintel := { m.lintel with
          outBuf := putBuffer [] 0 (attestBytes m (rPayload req) ++
            deviceBlock 4 m.drawn (attestBytes m (rPayload req))) }
        drawn := m.drawn + 1 } 0)) ∧
    (Requested s r 0x43 req b → rArg req 0 = 1 → m.lintel.fwRollback ≤ 128 →
      (m.lintel.fwRollback ≤ m.lintel.fwCounter →
        exec (.rollbackCommit r) s = .next (mailEnd m 0)) ∧
      (m.lintel.fwCounter < m.lintel.fwRollback → auditOk m = true →
        let a := recorded 0x12 [1, m.lintel.fwCounter, m.lintel.fwRollback] []
        exec (.rollbackCommit r) s = .next (mailEnd { a with
          lintel := { a.lintel with fwCounter := m.lintel.fwRollback } } 0))) ∧
    (Requested s r 0x43 req b → rArg req 0 = 2 → ∀ i, m.quoin.active = some i →
      m.lintel.bondCounter < getLE i 12 4 → getLE i 12 4 ≤ 128 → auditOk m = true →
        let a := recorded 0x12 [2, m.lintel.bondCounter, getLE i 12 4] []
        exec (.rollbackCommit r) s = .next (mailEnd { a with
          lintel := { a.lintel with bondCounter := getLE i 12 4 } } 0)) ∧
    (Requested s r 0x44 req b → m.lintel.entropyFault = false →
      let nonce := fit 48 (Config.entropy m.lintel.draws 48)
      let x := signOut m 6 (challengeBytes m nonce)
      exec (.debugChallenge r) s = .next (mailEnd { x with
        lintel := { x.lintel with
          challenge := some (nonce, now m), draws := m.lintel.draws + 1 } } 0)) ∧
    (Requested s r 0x45 req b → m.time.valid = true → auditOk m = true →
      let t := inObjectBytes m 128
      let scope := byteAt t 4
      let secs := getLE t 8 4
      versionOk t 128 = true → scope = 1 ∨ scope = 2 → 1 ≤ secs → secs ≤ 86400 →
      exec (.debugUnlock r) s = .next (if tokenGood m t then
          mailEnd (openDebug (recorded 0x20 [scope, now m + secs * 1000000000] t) scope secs) 0
        else mailFail { m with lintel := { m.lintel with challenge := none } } 0x50)) ∧
    (Requested s r 0x46 req b →
      (m.lintel.debug = 0 → exec (.debugClose r) s = .next (mailEnd m 0)) ∧
      (m.lintel.debug ≠ 0 → auditOk m = true → exec (.debugClose r) s =
        .next (mailEnd (shutDebug (recorded 0x21 [2] [])) 0))) ∧
    (s.lintel.debug ≠ 0 → s.lintel.debugExpiry ≤ now s → auditOk s = true →
      exec .debugExpiry s = .next (shutDebug (audit s 5 0x21 [1] 0 []))) ∧
    (∀ n t, s.lintel.challenge = some (n, t) → t + 600000000000 ≤ now s →
      exec .challengeExpiry s = .next { s with
        lintel := { s.lintel with challenge := none } }) ∧
    (Requested s r 0x47 req b → auditOk m = true →
      let p := inObjectBytes m 416
      let kind := byteAt p 4
      let handle := if kind = 1 then getLE p 6 2 else 0
      let a := recorded 0x30 [kind, handle, getLE p 24 4] p
      exec (.keyInstall r) s = .next (match keyPackage m p with
        | .error st => mailFail m st
        | .ok k => mailEnd { a with
            lintel := { a.lintel with
              keys := if kind = 1 then a.lintel.keys ++ [(handle, k)] else a.lintel.keys
              fabricKey := if kind = 2 then some k else a.lintel.fabricKey
              keySeq := getLE p 24 4 } } 0)) ∧
    (Requested s r 0x48 req b → 1 ≤ rArg req 0 → rArg req 0 ≤ 4095 →
      handleUsed m (rArg req 0) = false →
      (m.lintel.keys.any (·.1 == rArg req 0) = true → auditOk m = true →
        let a := recorded 0x31 [rArg req 0] []
        exec (.keyDestroy r) s = .next (mailEnd { a with
          lintel := { a.lintel with keys := a.lintel.keys.filter (·.1 != rArg req 0) } } 0)) ∧
      (m.lintel.keys.any (·.1 == rArg req 0) = false →
        exec (.keyDestroy r) s = .next (mailEnd m 0))) ∧
    (Requested s r 0x49 req b → auditOk m = true →
      let u := inObjectBytes m 96
      let action := byteAt u 4
      let slot := byteAt u 5
      let a := recorded 0x32 [action, slot] u
      exec (.anchorUpdate r) s = .next (match anchorErr m u with
        | some st => mailFail m st
        | none => mailEnd { a with
            lintel := { a.lintel with
              ownerAnchors := if action = 1 then
                  modAt a.lintel.ownerAnchors slot fun _ => some ((u.drop 24).take 48)
                else a.lintel.ownerAnchors
              ownerRevoked := if action = 2 then
                  a.lintel.ownerRevoked ||| BitVec.ofNat 4 (2 ^ slot)
                else a.lintel.ownerRevoked
              vendorRevoked := if action = 3 then
                  a.lintel.vendorRevoked ||| BitVec.ofNat 4 (2 ^ slot)
                else a.lintel.vendorRevoked } } 0))

/-- Over SMBus, telemetry answers with its body, MCTP control messages with theirs (their layouts are
the model's, log entry 61), and the alert response clears SMB_ALERT#; the test access port takes its
public instructions, EXTEST, CLAMP and HIGHZ only where R584 executes them (R572, R580 to R584). -/
def Obligations.SmbusAndTestAccessPort : Prop :=
  ∀ (s : State),
    (mailUp s = true →
      exec .telemetryRequest s = .next { s with
        quoin := { s.quoin with telemetry := vendorMessage 2 (telemetryBody s) } } ∧
      (∀ e : Byte, e ≠ 0 → e ≠ 0xFF → exec (.setEndpointId e) s = .next { s with
        quoin := { s.quoin with endpointId := e, mctpReply := [0, 0, e, 0] } }) ∧
      exec .getEndpointId s = .next { s with
        quoin := { s.quoin with mctpReply := [0, s.quoin.endpointId, 0, 0] } } ∧
      exec .getMctpVersionSupport s = .next { s with
        quoin := { s.quoin with mctpReply := [0, 1] ++ freeBytes s 4 }
        drawn := s.drawn + 1 } ∧
      exec .getMessageTypeSupport s = .next { s with
        quoin := { s.quoin with mctpReply := [0, 1, 0x7F] } } ∧
      exec .getVendorDefinedMessageSupport s = .next { s with
        quoin := { s.quoin with
          mctpReply := [0, 0xFF, 1, 0, 0, 0xEC, 0x01] ++ freeBytes s 2 }
        drawn := s.drawn + 1 }) ∧
    exec .smbusAlertResponse s = .next { s with pins := { s.pins with smbAlert := false } } ∧
    (s.power.aonOn = true →
      (scanAllowed s = true →
        exec .extest s = .next { s with
          pins := { s.pins with ir := 3, tdr := 0, highz := false, scanned := true } } ∧
        exec .clamp s = .next { s with
          pins := { s.pins with ir := 4, tdr := 0, highz := false, scanned := true } } ∧
        exec .highz s = .next { s with
          pins := { s.pins with ir := 5, tdr := 0, highz := true, scanned := true } }) ∧
      (scanAllowed s = false →
        let t := { s with pins := { s.pins with ir := 0, tdr := 0, highz := false } }
        exec .extest s = .next t ∧ exec .clamp s = .next t ∧ exec .highz s = .next t) ∧
      (∀ l : List Bool, exec (.samplePreload l) s = .next { s with
        pins := { s.pins with ir := 2, boundary := l, highz := false } }) ∧
      exec .idcode s = .next { s with
        pins := { s.pins with ir := 1, tdr := 0x17128567, highz := false } } ∧
      exec .bypass s = .next { s with
        pins := { s.pins with ir := 0, tdr := 0, highz := false } } ∧
      exec .tapReset s = .next { s with
        pins := { s.pins with ir := 1, tdr := 0x17128567, highz := false } })

/-! ### Power, boot and reset (R536 to R567, R570 to R590, R492 to R497) -/

/-- Entry writes protected staging first where the state is Banked or Parked, and at its second step the
state is reached, its domains alone on and its command complete; an exit goes back to Serving; an idle
module enters Drowse or Banked by its timers and returns to its target state; WAKE# and WAKE leave
Parked; a domain that reports ready is on, and what waited for it goes on (R30, R32, R374, R538 to R542,
R562). -/
def Obligations.PowerStatesAreEnteredAndLeft : Prop :=
  ∀ (s : State),
    (s.power.entering = none → s.power.st = 0 → s.power.request ≠ none →
      (∀ c ∈ s.sched.cmds, c.id ∉ s.power.waitFor) →
      exec .powerStateEntry s = .next { s with
        power := { s.power with
          entering := some s.power.target
          automatic := false
          flushSeq := s.power.flushSeq + (if 2 ≤ s.power.target then 1 else 0)
          flushArea := if 2 ≤ s.power.target then (s.power.flushArea + 1) % 2 else s.power.flushArea
          flushed := if 2 ≤ s.power.target then true else s.power.flushed } }) ∧
    (∀ st, s.power.entering = some st →
      exec .powerStateEntry s = .next (reachState s st) ∧
      (s.power.request = none → st ≠ 3 →
        (reachState s st).power.st = st ∧ (reachState s st).power.entering = none ∧
        (reachState s st).power.domains = domainsIn s st ∧ (reachState s st).mem = s.mem ∧
        (reachState s st).index = s.index ∧ (reachState s st).kv = s.kv)) ∧
    (s.power.entering = none → s.power.st ≠ 0 → s.power.wake = true →
      exec .powerStateExit s = .next (leaveState s false)) ∧
    (isIdle s = true → s.power.target = 0 → s.power.st = 0 →
      (bond s 32 4 ≠ 0 → ∃ t, exec .drowseIdleTimer s = .next t ∧ t.power.st = 1 ∧
        t.power.automatic = true ∧ t.power.domains = domainsIn s 1 ∧ t.mem = s.mem) ∧
      (bond s 36 4 ≠ 0 → ∃ t, exec .bankedIdleTimer s = .next t ∧ t.power.st = 2 ∧
        t.power.automatic = true ∧ t.power.domains = domainsIn s 2 ∧
        t.power.flushSeq = s.power.flushSeq + 1 ∧ t.mem = s.mem)) ∧
    (s.quoin.stage = 7 → noCommands s = true → s.power.entering = none → s.power.st = 0 →
      s.power.target = 1 ∨ s.power.target = 2 → s.power.request = none →
      ∃ t, exec .targetStateReturn s = .next t ∧ t.power.st = s.power.target ∧
        t.power.automatic = false ∧ t.power.domains = domainsIn s s.power.target ∧ t.mem = s.mem) ∧
    (s.power.st = 3 → s.power.entering = none →
      exec .wakePin s = .next (leaveState s false) ∧
      exec .powerControlWake s = .next (leaveState s false)) ∧
    (s.power.st ≠ 3 → exec .powerControlWake s = .next { s with
      power := { s.power with wakeReg := s.power.wakeReg || awayFromServing s } }) ∧
    ((leaveState s false).power.st = 0 ∧ (leaveState s true).power.domains = domainsIn s 0) ∧
    (∀ d, d < 24 → (domainsIn s s.power.st).getLsbD d = true → s.uzone.heldDev = [] →
      s.mortar.inbound = [] → s.uzone.out = [] → s.quoin.mbWait ≠ some .domain →
      (∀ r ∈ s.slab.gathers, r.waits ≠ some .domain) →
      let woken : State := { s with
        sched := { s.sched with
          cmds := mapIf (fun c : Cmd => c.phase == Phase.waiting .domain)
            (fun c => { c with phase := .ready }) s.sched.cmds }
        hod := { s.hod with
          streams := mapIf (fun t : Stream => t.waits == some Wait.domain)
            (fun t => { t with waits := none }) s.hod.streams } }
      (d ≠ 21 ∨ s.power.domains.getLsbD 21 = true →
        exec (.domainReady d) s = .next { woken with
          power := { s.power with domains := s.power.domains ||| BitVec.ofNat 24 (2 ^ d) } }) ∧
      (d = 21 → s.power.domains.getLsbD 21 = false → exec (.domainReady d) s = .next { woken with
        power := { s.power with domains := s.power.domains ||| 0x200000 }
        mortar := { s.mortar with
          ports := s.mortar.ports.zipIdx.map fun x =>
            if bit (portEnable s) x.2 && x.1.link.st == 0 then trainPort (heldKey s) x.1
            else x.1 } }))

/-- What is measured is stored: the power figures and the duty that the cap asks for, the hold-up bank's
energy against its floor and its health by the formula of the test, and each sensor with THERM_CRIT#,
the charge pause and the duties of R586. A lost reference is seen and counted once until it is back; an
uncorrectable line that a scrub finds outside protected memory poisons its name with a deferred record; a
rail fault is recorded; the entropy source's tests set and clear its fault (R504, R543, R547 to R549,
R553, R559, R563, R577, R586 to R590). -/
def Obligations.MeasurementsAndHardwareEvents : Prop :=
  (∀ (s : State),
     (∀ (w m a n : Nat) (o : Bool), exec (.powerCapThrottle w m a o n) s = .next { s with
       power := { s.power with
         inputMw := min 0xFFFFF w, mainMv := min 0xFFFF m, auxMv := min 0xFFFF a, mainOver := o
         capDuty := min 12 n, capUnmet := decide (12 < n) } }) ∧
     (s.quoin.stage = 7 → s.holdup.testing = false →
       (s.holdup.bootTest = true ∨ s.holdup.testTime + 86400000000000 ≤ now s) →
       exec .holdupTestTimer s = .next { s with
         holdup := { s.holdup with testing := true, bootTest := false } }) ∧
     (∀ n, exec (.holdupFloorCrossing n) s = .next { s with
       holdup := { s.holdup with
         stored := min 0xFFFFF n
         below := decide (s.holdup.health < 30000) || decide (n < 15000) } }) ∧
     (∀ v1 v2 n, v2 < v1 → s.holdup.testing = true → s.holdup.mailTest = false →
       let h := min 0xFFFFF (10 ^ 13 / (v1 * v1 - v2 * v2))
       (30000 ≤ h ∨ s.holdup.health < 30000) →
       exec (.holdupTestEnd v1 v2 n) s = .next { s with
         holdup := { s.holdup with
           health := h
           stored := min 0xFFFFF n
           below := decide (h < 30000) || decide (min 0xFFFFF n < 15000)
           testing := false
           mailTest := false
           charging := false
           testTime := now s } }) ∧
     (∀ r : ThermalReading, ∃ t, exec (.thermalSample r) s = .next t ∧
       t.thermal.kiln = r.kiln ∧ t.thermal.stack = r.stack ∧ t.thermal.nand = r.nand ∧
       t.thermal.bank = r.bank ∧ t.thermal.coolantIn = r.coolantIn ∧
       t.thermal.coolantOut = r.coolantOut ∧
       (110 ≤ r.kiln ∨ 100 ≤ r.stack ∨ 85 ≤ r.nand ∨ 70 ≤ r.bank → t.thermal.crit = true) ∧
       (r.kiln ≤ 108 → r.stack ≤ 98 → r.nand ≤ 83 → r.bank ≤ 68 → t.thermal.crit = false) ∧
       (60 ≤ r.bank → t.thermal.chargePaused = true) ∧
       (r.bank ≤ 55 → t.thermal.chargePaused = false) ∧
       t.thermal.inletHigh = decide (40 < r.coolantIn) ∧
       t.thermal.dutyKiln = dutyStep r.kiln 95 s.thermal.dutyKiln ∧
       t.thermal.dutyStack = dutyStep r.stack 85 s.thermal.dutyStack ∧
       t.thermal.dutyNand = dutyStep r.nand 70 s.thermal.dutyNand ∧
       t.pins.thermCrit = t.thermal.crit ∧
       { t with thermal := s.thermal, pins := s.pins } = s)) ∧
  (∀ (s : State),
     exec .refclkLost s = .next { s with
       clock := { s.clock with
         refLost := true, refLostSeen := true
         lossCount := if s.clock.refLost then s.clock.lossCount
           else min 0xFFFF (s.clock.lossCount + 1) } } ∧
     exec .refclkRestored s = .next { s with clock := { s.clock with refLost := false } } ∧
     (∀ (n : BitVec 3) (o u : Nat),
       let a := n.toNat * stackBytes + o % stackBytes / 64 * 64
       unitAtFrame s (unitOf a) = some u → pinned s u = false →
       ∃ t, exec (.memoryScrub n [{ offset := o, corrected := false }]) s = .next t ∧
         (u + a % unitBytes) ∈ t.hw.poisoned ∧
         (∀ l, l ≠ u + a % unitBytes → (l ∈ t.hw.poisoned ↔ l ∈ s.hw.poisoned)) ∧
         (∃ r, t.hw.log.getLast? = some r ∧ r.cls = 1 ∧ r.source = 0x01 ∧ r.unit = n.toNat ∧
           r.status = 0x32) ∧ t.mem = s.mem ∧ t.sched = s.sched) ∧
     (∀ (n : BitVec 3) (o : Nat), s.hw.deferred ≤ 0xFFFF →
       exec (.memoryScrub n [{ offset := o, corrected := true }]) s =
       .next { s with
         hw := { s.hw with
           corrected := min 0xFFFFFFFF (s.hw.corrected + 1)
           since := s.hw.since.filter (fun x => !(x.1 == 1 && x.2.1 == n.toNat)) ++
             [(1, n.toNat, min 0xFFFFFFFF (corrections s 1 n.toNat + 1))] } }) ∧
     (∀ (r : BitVec 8) (mv : Nat), ∃ t x, exec (.railFault r mv) s = .next t ∧
       t.hw.log.getLast? = some x ∧ x.cls = 1 ∧ x.source = 0x42 ∧ x.unit = r.toNat ∧
       x.location = mv ∧ t.mem = s.mem ∧ t.sched = s.sched ∧ t.power = s.power) ∧
     exec .entropyHealthFail s = .next { s with lintel := { s.lintel with entropyFault := true } } ∧
     exec .entropyHealthPass s = .next { s with lintel := { s.lintel with entropyFault := false } })

/-- COLD_BOOT and the return of the main input boot the module over what they find; RST# resets it and
boots it again; a power failure writes protected staging, keeps what R494 keeps and takes the rails
down; without the auxiliary input everything of the always-on domain is lost too (R494, R495, R550,
R551, R564, R574). -/
def Obligations.BootResetAndPowerLoss : Prop :=
  ∀ (s : State),
    (∀ f, s.power.aonOn = false → ∃ t, exec (.coldBoot f) s = .next (boot t f) ∧
      t.power.aonOn = true ∧ t.quoin.resetCause = 0 ∧ t.mem = s.mem ∧ t.lintel = s.lintel) ∧
    (∀ f, s.power.aonOn = true → s.power.mainOn = false → ∃ t,
      exec (.mainInputReturn f) s = .next (boot t f) ∧ t.quoin.resetCause = 0 ∧
      t.mem = s.mem ∧ t.lintel = s.lintel ∧ t.pins.scanned = false) ∧
    (∀ f, f.mainOk = false → boot s f = { s with
      power := { s.power with mainOn := false }, quoin := { s.quoin with stage := 1 } }) ∧
    (∀ f, f.mainOk = true → f.romOk = false → ∃ t, boot s f = t ∧ t.quoin.stage = 2 ∧
      t.quoin.failStep = 2 ∧ t.quoin.failStatus = 0x50 ∧ t.mem = s.mem) ∧
    (∀ f, f.stackFail = [] → f.flushMissing = none → f.dieFail = [] → s.epochs.closing = [] →
      ∃ t, bootMedia s f = t ∧ t.quoin.stage = 6 ∧ t.uzone.link.st = 1 ∧ t.uzone.link.step = 1 ∧
        t.pins.xfPerst = false ∧ t.power.domains = domainsIn t 0 ∧ t.mem = s.mem) ∧
    (s.power.aonOn = true → s.power.mainOn = true →
      (exec .rstPin s = .next (moduleReset s 1 false)) ∧
      (∃ t, exec .powerFailure s = .next t ∧ t.power.mainOn = false ∧ t.power.aonOn = true ∧
        t.power.domains = 0 ∧ t.quoin.stage = 1 ∧ t.power.flushed =
          (s.power.flushed || decide (s.power.st < 2)) ∧
        t.sched.cmds = [] ∧ t.epochs.published = s.epochs.published ∧
        t.epochs.floor = s.epochs.floor ∧ t.time = { s.time with source := false, rate := 0 } ∧
        t.index.changes = s.index.changes.filter (fun e => !passed s.epochs.floor e) ∧
        t.lintel.fwCounter = s.lintel.fwCounter ∧ t.lintel.bondCounter = s.lintel.bondCounter ∧
        t.lintel.keys = s.lintel.keys ∧ t.lintel.debug = 0 ∧ t.hw.log = s.hw.log)) ∧
    (s.power.aonOn = true → ∃ t, exec .auxInputLoss s = .next t ∧ t.power.aonOn = false ∧
      t.quoin.stage = 0 ∧ t.time.valid = false ∧ t.pins = {} ∧
      t.epochs.published = s.epochs.published ∧ t.lintel.keys = s.lintel.keys ∧
      t.hw.log = s.hw.log)

/-! ### The control space, time and IDENTIFY (R384 to R403, R591 to R601, R368) -/

/-- The rows of the registers with clear-on-read counts read their register, clear those counts and no
others, and answer with MMIO_DATA, whose TAG the rows leave free. A register write over Uzone is made while its block is served, and answered with CMP in
any case; it gives its register the written fields: an unaudited one at once, one of R529 with its audit record; a read-only or absent register, and one written with
a reserved value, is left as it is (R11, R12, R338, R341, R406, R419, R437, R474, R497, R529, R566, R593). -/
def Obligations.RegisterReadsAndWrites : Prop :=
  (∀ (s : State), RequestArrives s → s.quoin.stage = 7 →
     s.power.domains.getLsbD 23 = true →
     let r := { awoken s with drawn := s.drawn + 1 }
     let gives := fun (eight : Bool) (v : Nat) (t : State) => Host.Outcome.next (answer { t with
       lastRead := BitVec.ofNat 64 v }
       (.mmioData (Config.freeChoice s.drawn % 4096) eight (BitVec.ofNat 64 v)))
     exec .uzoneErrorCountsRead s = gives true (readReg s 0x60020 true) { r with
       uzone := { r.uzone with retrains := 0, replays := 0, checkErrors := 0, uncorrectable := 0 } } ∧
     (s.uzone.retrains ≤ 0xFFFF → s.uzone.replays ≤ 0xFFFF → s.uzone.checkErrors ≤ 0xFFFF →
       s.uzone.uncorrectable ≤ 0xFFFF → readReg s 0x60020 true = s.uzone.retrains * 2 ^ 48 +
         s.uzone.replays * 2 ^ 32 + s.uzone.checkErrors * 2 ^ 16 + s.uzone.uncorrectable) ∧
     exec .plumbAliveFailuresRead s = gives true ((s.plumb.auditFails * 2 ^ 32 +
         s.plumb.mortarFails * 2 ^ 16 + s.plumb.insertFails) % 2 ^ 64) { r with
       plumb := { s.plumb with auditFails := 0, mortarFails := 0, insertFails := 0 } } ∧
     exec .mortarPeerEventsRead s = gives true (readReg s 0x70028 true) { r with
       mortar := { s.mortar with lostCount := 0, regained := 0 } } ∧
     exec .errorCountsRead s = gives true
       (min 0xFFFF s.hw.deferred * 2 ^ 32 + min 0xFFFFFFFF s.hw.corrected) { r with
       hw := { s.hw with corrected := 0, deferred := 0 } } ∧
     exec .epochPublishDelayRead s = gives false
       (min 0xFFFF s.epochs.delayMax * 2 ^ 16 + min 0xFFFF s.epochs.delayLast) { r with
       epochs := { s.epochs with delayMax := 0 } } ∧
     exec .clockStatusRead s = gives false (readReg s 0xA0410 false) { r with
       clock := { s.clock with lossCount := 0 } }) ∧
  (∀ (s : State) (a : BitVec 32) (e : Bool) (v : BitVec 64) (tag : BitVec 12), RequestArrives s →
     let n := if e then 8 else 4
     let x := v.toNat % 2 ^ (8 * n)
     let w : Source := { origin := 4, detail := 0, digest := leBytes 4 a.toNat ++ leBytes n x }
     (mmioServed s a.toNat = true → exec (.registerWrite a e ⟨v, tag⟩) s = .next (answer
       (writeReg (awoken s) w a.toNat e x) (.cmpResp tag.toNat 0))) ∧
     (mmioServed s a.toNat = false → exec (.registerWrite a e ⟨v, tag⟩) s = .next (answer (awoken s)
       (.cmpResp tag.toNat 0)))) ∧
  (∀ (s : State) (v : BitVec 64) (tag : BitVec 12), Served s → RequestArrives s →
     let r := awoken s
     let gives := fun (t : State) => Host.Outcome.next (answer t (.cmpResp tag.toNat 0))
     (∀ u : Fin 4, exec (.registerWrite (0x50008 + 0x40 * BitVec.ofNat 32 u.val) true ⟨v, tag⟩) s =
       gives { r with
         plumb := { s.plumb with
           units := modAt s.plumb.units u.val fun p => { p with poly := v } } }) ∧
     exec (.registerWrite 0x600 false ⟨v, tag⟩) s = gives (
       let a := audit r 4 0x50 [0x600, s.sched.watchdog, v.toNat % 2 ^ 32] 0
         (leBytes 4 0x600 ++ leBytes 4 (v.toNat % 2 ^ 32))
       { a with sched := { a.sched with watchdog := v.toNat % 2 ^ 32 } }) ∧
     (topologyOk v.toNat = false → exec (.registerWrite 0x70000 true ⟨v, tag⟩) s = gives r) ∧
     exec (.registerWrite 0xA0100 true ⟨v, tag⟩) s = gives r ∧
     exec (.registerWrite 0x500 false ⟨v, tag⟩) s = gives r ∧
     exec (.registerWrite 0xC0000 true ⟨v, tag⟩) s = gives r)

/-- A reference period adds its nanoseconds in the pattern 6, 6, 7, 6, 7 while the keeper is valid, and
time never falls; FABRIC_TIME_SET loads a keeper that is not valid, with its two audit records, sets
SOURCE to 0 and leaves a valid one alone; a peer's time, which the module loads from its parent, sets
SOURCE to 1 (R384, R387, R402, R529). -/
def Obligations.FabricTimeCountsAndIsSetOnce : Prop :=
  ∀ (s : State),
    (s.time.valid = true → s.time.rate = 0 → s.time.acc = 0 → s.time.ns.toNat + 7 < 2 ^ 64 →
      s.time.phase < 5 → exec .fabricTimeTick s = .next { s with
        time := { s.time with
          phase := (s.time.phase + 1) % 5
          ns := s.time.ns + (if s.time.phase = 2 ∨ s.time.phase = 4 then 7 else 6) } }) ∧
    (s.time.valid = false → exec .fabricTimeTick s = .next { s with
      time := { s.time with phase := (s.time.phase + 1) % 5, acc := 0 } }) ∧
    (∃ t, exec .fabricTimeTick s = .next t ∧ s.time.ns.toNat ≤ t.time.ns.toNat) ∧
    (∀ p : Nat, s.time.valid = false → s.power.st = 0 → s.power.entering = none →
      (setTimeRoot s).mortar.isRoot = false →
      (setTimeRoot s).mortar.parentPort = p → portInService (setTimeRoot s) p = true →
      auditOk (setTimeRoot s) = true →
      (loadTime s p).time.valid = true ∧ (loadTime s p).time.source = true) ∧
    (∀ (v : BitVec 64) (tag : BitVec 12), Served s → RequestArrives s →
      let done := Msg.cmpResp tag.toNat 0
      (s.time.valid = true → exec (.fabricTimeSet ⟨v, tag⟩) s = .next (answer (awoken s) done)) ∧
      (s.time.valid = false →
        let digest := leBytes 4 0x90008 ++ leBytes 8 v.toNat
        let a := audit (awoken s) 4 0x50 [0x90008, 0, v.toNat] 0 digest
        let b := { a with
          time := { a.time with ns := v, valid := true, source := false, acc := 0 } }
        exec (.fabricTimeSet ⟨v, tag⟩) s =
          .next (answer (setTimeRoot (audit b 4 0x51 [v.toNat, 0] 0 digest)) done)))


/-! ### The whole block -/

/-- A step takes the command at the front of the queue and runs it on the state with the queue's rest;
with no command waiting the block idles (the model's choice, log entry 5); every step answers a next
state. -/
def Obligations.StepRunsTheFrontCommand : Prop :=
  (∀ (s : State) (c : Instr) (rest : List Instr), s.pending = c :: rest →
    step s = exec c { s with pending := rest }) ∧
  (∀ s : State, s.pending = [] → step s = .next s) ∧
  (∀ s : State, SafeStep s)

/-- The module after reset, before its first boot: nothing waits, nothing is in memory, no queue,
collection, sequence or stream exists, the keeper is not valid, no epoch but the open one exists, MOD_READY
is low, and memory and the lists of its parts have their form (R138, R342, R386, R492, R494, R561, R572,
R574). What the manual states no reset value for is the model's choice (log entry 4). -/
def Obligations.ResetLeavesTheModuleUnbooted : Prop :=
  let s := State.reset
  s.pending = [] ∧ memWf s.mem = true ∧ (∀ a, readByte s.mem a = 0) ∧ s.sched.sqs = [] ∧
  s.sched.cqs = [] ∧ s.sched.areas = [] ∧ s.sched.cmds = [] ∧ s.sched.adminEnable = false ∧
  s.epochs.published = 0 ∧ s.epochs.opened = 1 ∧ s.epochs.closing = [] ∧ s.index.colls = [] ∧
  s.index.changes = [] ∧ s.index.patches = [] ∧ s.kv.seqs = [] ∧ s.hod.streams = [] ∧
  s.walks = [] ∧ s.tiers.entries = [] ∧ s.tiers.enable = false ∧ s.time.valid = false ∧
  s.uzone.link.st = 0 ∧ (∀ p ∈ s.mortar.ports, p.link.st = 0) ∧ s.quoin.stage = 0 ∧
  s.quoin.active = none ∧ s.lintel.debug = 0 ∧ s.lintel.audit = [] ∧ s.power.st = 0 ∧
  s.power.aonOn = false ∧ s.pins.modReady = false ∧ s.bricks.length = 64 ∧
  s.mortar.ports.length = 8 ∧ s.plumb.units.length = 4

/-- Memory keeps its canonical form: addresses strictly rising, and no entry equal to what its address
reads as when unlisted. The form is the model's own (log entry 2); with it, equal memories are equal
data. -/
def Obligations.EveryStepKeepsMemoryCanonical : Prop :=
  ∀ (s t : State), memWf s.mem = true → step s = .next t → memWf t.mem = true

/-- The parts that the manual counts keep their number: 64 Bricks with 32 planes each, 8 Mortar ports,
4 Plumb units and 8 staging areas (R48, R179, R326, R439). -/
def Obligations.EveryStepKeepsTheNumberOfParts : Prop :=
  ∀ (s t : State),
    let parts := fun (s : State) => s.bricks.length = 64 ∧
      (∀ b ∈ s.bricks, b.planes.length = 32) ∧ s.mortar.ports.length = 8 ∧
      s.plumb.units.length = 4 ∧ s.index.staging.length = 8
    parts s → step s = .next t → parts t
end

