-- ==== Sys2Proof/Laws/Link.lean ====
section
/-!
SUPPORT. What the parts of a flit can change in a link: an acknowledgement, the credits it grants and
its payload (R412, R414 to R416).
-/

namespace Sys2Proof.Machine

/-- An acknowledgement changes the retry buffer alone. -/
theorem takeAck_keeps (a : Option Nat) (l : Link) :
    takeAck a l = { l with kept := (takeAck a l).kept } := by
  cases a <;> simp [takeAck]

/-- An acknowledgement of a flit that the retry buffer does not hold frees nothing. -/
theorem takeAck_unknown {a : Nat} {l : Link} (h : l.kept.any (·.seq == a) = false) :
    takeAck (some a) l = l := by
  simp only [takeAck, h, Bool.false_eq_true, if_false]

/-- Returned credits change the credits alone. -/
theorem takeCredits_keeps (c n : Nat) (l : Link) :
    takeCredits c n l = { l with credits := modAt l.credits c (· + n) } := rfl

/-- Idle and control flits leave everything but the credit that is owed and their own list as it is. -/
theorem sendIdle_keeps (l : Link) :
    sendIdle l = { l with unkept := (sendIdle l).unkept, owed := (sendIdle l).owed } := rfl

theorem returnCredits_keeps (l : Link) :
    returnCredits l =
      { l with unkept := (returnCredits l).unkept, owed := (returnCredits l).owed } := by
  have h : ∀ (is : List Nat) (l : Link),
      let g := fun (l : Link) (_ : Nat) => if l.owed.all (· == 0) then l else sendIdle l
      is.foldl g l = { l with unkept := (is.foldl g l).unkept, owed := (is.foldl g l).owed } := by
    intro is
    induction is with
    | nil => intro l; rfl
    | cons i is ih =>
      intro l
      simp only [List.foldl_cons]
      split
      · exact ih l
      · exact ih (sendIdle l)
  exact h _ l

/-- A flit in sequence with a payload is accepted: its number is passed and acknowledged, and its slots
are delivered. -/
theorem acceptFlit_accepted {w : SlotWalk} {f : List Byte} {l : Link}
    (hk : flitKind f = 0) (hs : BitVec.ofNat 12 (flitSeq f) = l.rxNext) :
    (acceptFlit w f l).rxNext = l.rxNext + 1 ∧ (acceptFlit w f l).acked = some (flitSeq f) ∧
      (acceptFlit w f l).discarding = false ∧ (acceptFlit w f l).skip = w.skip ∧
      (acceptFlit w f l).kept = l.kept ∧ (acceptFlit w f l).credits = l.credits ∧
      (acceptFlit w f l).delivered = l.delivered ++ [flitSlots f] := by
  have h : inSequence f l = true := by simp [inSequence, hk, hs]
  simp only [acceptFlit, h, if_true]
  rw [returnCredits_keeps]
  exact ⟨rfl, rfl, rfl, rfl, rfl, rfl, rfl⟩

/-- A flit out of sequence delivers nothing, and the first of a run is answered with a NAK. -/
theorem acceptFlit_dropped {w : SlotWalk} {f : List Byte} {l : Link}
    (hk : flitKind f = 0) (hs : BitVec.ofNat 12 (flitSeq f) ≠ l.rxNext) :
    acceptFlit w f l = dropFlit l := by
  simp [acceptFlit, inSequence, hk, hs]

/-- With nothing waiting to be sent, Uzone sends nothing. -/
theorem pumpUzone_idle (u : Uzone) (h : u.link.waiting = []) : pumpUzone u = u := by
  cases u with | mk l => cases l; simp_all [pumpUzone, pumpMsgs]

end Sys2Proof.Machine
end

