-- ==== Sys2Proof/Laws/Memory.lean ====
section
/-!
SUPPORT. The laws of memory: a read after a write, bytes that a write leaves alone, and that every
memory operation keeps the canonical form.
-/

namespace Sys2Proof.Machine

/-! ### One cell -/

/-- Every address of a list of cells lies above a bound. -/
def Above (a : Nat) (l : List Host.Cell) : Prop := ∀ c ∈ l, a < c.1

theorem cellsRise_cons (c : Host.Cell) (l : List Host.Cell) :
    cellsRise (c :: l) = true ↔ Above c.1 l ∧ cellsRise l = true := by
  induction l generalizing c with
  | nil => simp [cellsRise, Above]
  | cons d l ih =>
    rw [show cellsRise (c :: d :: l) = (decide (c.1 < d.1) && cellsRise (d :: l)) from rfl]
    simp only [Bool.and_eq_true, decide_eq_true_eq]
    constructor
    · rintro ⟨h, hr⟩
      refine ⟨fun x hx => ?_, hr⟩
      rcases List.mem_cons.1 hx with rfl | hx
      · exact h
      · exact h.trans (((ih d).1 hr).1 x hx)
    · rintro ⟨h, hr⟩
      exact ⟨h d (by simp), hr⟩

theorem cellsRise_filter (p : Host.Cell → Bool) (l : List Host.Cell) (h : cellsRise l = true) :
    cellsRise (l.filter p) = true := by
  induction l with
  | nil => rfl
  | cons c l ih =>
    obtain ⟨ha, hr⟩ := (cellsRise_cons c l).1 h
    by_cases hp : p c
    · rw [List.filter_cons_of_pos hp]
      exact (cellsRise_cons _ _).2 ⟨fun x hx => ha x (List.mem_filter.1 hx).1, ih hr⟩
    · rw [List.filter_cons_of_neg hp]
      exact ih hr

theorem mem_putCell {drop : Bool} {a : Nat} {b : Byte} {l : List Host.Cell} {c : Host.Cell}
    (h : c ∈ putCell drop a b l) : (c = (a, b) ∧ drop = false) ∨ c ∈ l := by
  induction l with
  | nil =>
    cases drop <;> simp [putCell] at h
    exact .inl ⟨h, rfl⟩
  | cons d l ih =>
    obtain ⟨x, v⟩ := d
    simp only [putCell] at h
    split at h
    · cases drop <;> simp_all
    · split at h
      · cases drop
        · rcases List.mem_cons.1 h with h | h
          · exact .inl ⟨h, rfl⟩
          · exact .inr (List.mem_cons_of_mem _ h)
        · exact .inr (List.mem_cons_of_mem _ h)
      · rcases List.mem_cons.1 h with rfl | h
        · simp
        · rcases ih h with h | h
          · exact .inl h
          · exact .inr (List.mem_cons_of_mem _ h)

theorem cellsRise_putCell (drop : Bool) (a : Nat) (b : Byte) (l : List Host.Cell)
    (h : cellsRise l = true) : cellsRise (putCell drop a b l) = true := by
  induction l with
  | nil => cases drop <;> rfl
  | cons d l ih =>
    obtain ⟨x, v⟩ := d
    obtain ⟨ha, hr⟩ := (cellsRise_cons _ l).1 h
    simp only [putCell]
    split
    · rename_i hlt
      cases drop
      · refine (cellsRise_cons _ _).2 ⟨fun y hy => ?_, h⟩
        rcases List.mem_cons.1 hy with rfl | hy
        · exact hlt
        · exact Nat.lt_trans hlt (ha y hy)
      · exact h
    · rename_i hlt
      split
      · rename_i he
        have he : a = x := by simpa using he
        subst he
        cases drop
        · exact (cellsRise_cons _ _).2 ⟨ha, hr⟩
        · exact hr
      · rename_i he
        have he : a ≠ x := by simpa using he
        refine (cellsRise_cons _ _).2 ⟨fun y hy => ?_, ih hr⟩
        rcases mem_putCell hy with ⟨rfl, -⟩ | hy
        · exact Nat.lt_of_le_of_ne (Nat.le_of_not_lt hlt) (Ne.symm he)
        · exact ha y hy

theorem getCell_above {a : Nat} {l : List Host.Cell} (h : Above a l) : getCell a l = none := by
  cases l with
  | nil => rfl
  | cons d l =>
    obtain ⟨x, v⟩ := d
    have hx : a < x := h _ (List.mem_cons_self ..)
    simp [getCell, hx, Nat.ne_of_lt hx]

/-- What a listed address reads as after one cell is put in its place or taken out. -/
theorem getCell_putCell (drop : Bool) (a : Nat) (b : Byte) (l : List Host.Cell) (x : Nat)
    (h : cellsRise l = true) :
    getCell x (putCell drop a b l) =
      if x = a then (if drop then none else some b) else getCell x l := by
  induction l with
  | nil =>
    cases drop <;> simp [putCell, getCell]
  | cons d l ih =>
    obtain ⟨y, v⟩ := d
    obtain ⟨ha, hr⟩ := (cellsRise_cons _ l).1 h
    simp only [putCell]
    by_cases hlt : a < y
    · simp only [hlt, if_true]
      cases drop
      · simp only [Bool.false_eq_true, if_false, getCell, beq_iff_eq]
        split
        · rfl
        · split
          · have : x < y := by omega
            simp [Nat.ne_of_lt this, this]
          · rfl
      · simp only [if_true, getCell, beq_iff_eq]
        by_cases hx : x = a
        · subst hx; simp [hlt, Nat.ne_of_lt hlt]
        · simp [hx]
    · by_cases he : a = y
      · subst he
        cases drop
        · simp only [hlt, beq_self_eq_true, if_true, Bool.false_eq_true, if_false, getCell, beq_iff_eq]
          split <;> rfl
        · simp only [hlt, beq_self_eq_true, if_true, if_false, getCell, beq_iff_eq]
          split
          · rename_i hx; subst hx; exact getCell_above ha
          · split
            · exact getCell_above fun c hc => Nat.lt_trans ‹_› (ha c hc)
            · rfl
      · have hb : (a == y) = false := by simpa using he
        simp only [hlt, hb, if_false, Bool.false_eq_true, getCell, beq_iff_eq]
        by_cases hx : x = a
        · subst hx
          have h1 : ¬ x = y := he
          simp only [h1, hlt, if_false, if_true]
          simpa using ih hr
        · simp only [ih hr, hx, if_false]

/-! ### Reads after writes -/

@[simp] theorem writeByte_fills (m : Mem) (a : Nat) (b : Byte) : (writeByte m a b).fills = m.fills := rfl
@[simp] theorem plainByte_writeByte (m : Mem) (a x : Nat) (b : Byte) :
    plainByte (writeByte m a b) x = plainByte m x := rfl
@[simp] theorem always_writeByte (m : Mem) (a x : Nat) (b : Byte) :
    always (writeByte m a b) x = always m x := rfl

theorem memWf_rises {m : Mem} (h : memWf m = true) : cellsRise m.cells = true := by
  simp [memWf] at h; exact h.1

/-- A byte reads as it was written, and every other byte as before. -/
theorem readByte_writeByte (m : Mem) (a x : Nat) (b : Byte) (h : memWf m = true) :
    readByte (writeByte m a b) x = if x = a then b else readByte m x := by
  have hc := getCell_putCell (!always m a && b == plainByte m a) a b m.cells x (memWf_rises h)
  by_cases hx : x = a
  · subst hx
    simp only [readByte, plainByte_writeByte, if_true]
    rw [show (writeByte m x b).cells = putCell (!always m x && b == plainByte m x) x b m.cells from rfl,
      hc]
    by_cases hd : (!always m x && b == plainByte m x) = true
    · simp only [hd, if_true, Option.getD_none]
      simp at hd; exact hd.2.symm
    · simp [hd]
  · simp only [readByte, plainByte_writeByte, hx, if_false]
    rw [show (writeByte m a b).cells = putCell (!always m a && b == plainByte m a) a b m.cells from rfl,
      hc]
    simp [hx]

/-- One byte written keeps the canonical form. -/
theorem memWf_writeByte (m : Mem) (a : Nat) (b : Byte) (h : memWf m = true) :
    memWf (writeByte m a b) = true := by
  have h' := h
  simp only [memWf, Bool.and_eq_true, List.all_eq_true] at h ⊢
  refine ⟨cellsRise_putCell _ _ _ _ h.1, fun c hc => ?_⟩
  rcases mem_putCell hc with ⟨rfl, hd⟩ | hc
  · cases ha : always m a <;> simp_all [always_writeByte, bne]
  · exact h.2 c hc

theorem memWf_writeBytes (m : Mem) (a : Nat) (bs : List Byte) (h : memWf m = true) :
    memWf (writeBytes m a bs) = true := by
  induction bs generalizing m a with
  | nil => exact h
  | cons b bs ih => exact ih _ _ (memWf_writeByte m a b h)

/-- A write of bytes leaves every byte outside them as it was. -/
theorem readByte_writeBytes_other (m : Mem) (a x : Nat) (bs : List Byte) (h : memWf m = true)
    (hx : x < a ∨ a + bs.length ≤ x) : readByte (writeBytes m a bs) x = readByte m x := by
  induction bs generalizing m a with
  | nil => rfl
  | cons b bs ih =>
    simp only [List.length_cons] at hx
    rw [show writeBytes m a (b :: bs) = writeBytes (writeByte m a b) (a + 1) bs from rfl,
      ih _ _ (memWf_writeByte m a b h) (by omega), readByte_writeByte m a x b h, if_neg (by omega)]

/-- Each byte of a write reads as it was written. -/
theorem readByte_writeBytes_same (m : Mem) (a i : Nat) (bs : List Byte) (h : memWf m = true)
    (hi : i < bs.length) : readByte (writeBytes m a bs) (a + i) = bs[i] := by
  induction bs generalizing m a i with
  | nil => simp at hi
  | cons b bs ih =>
    have hw := memWf_writeByte m a b h
    rw [show writeBytes m a (b :: bs) = writeBytes (writeByte m a b) (a + 1) bs from rfl]
    cases i with
    | zero =>
      rw [readByte_writeBytes_other _ _ _ _ hw (by omega), readByte_writeByte m a _ b h]
      simp
    | succ i =>
      have := ih (writeByte m a b) (a + 1) i hw (by simpa using hi)
      rw [show a + 1 + i = a + (i + 1) by omega] at this
      simpa using this

theorem readFrom_writeBytes (m : Mem) (a i : Nat) (bs : List Byte) (h : memWf m = true) (n : Nat)
    (hn : i + n ≤ bs.length) :
    readFrom (writeBytes m a bs) (a + i) n = (bs.drop i).take n := by
  induction n generalizing i with
  | zero => simp [readFrom]
  | succ n ih =>
    have hi : i < bs.length := by omega
    have h1 := readByte_writeBytes_same m a i bs h hi
    have h2 := ih (i + 1) (by omega)
    rw [List.drop_eq_getElem_cons hi, List.take_succ_cons, ← h2, ← h1]
    rfl

/-- Bytes written read back. -/
theorem readBytes_writeBytes (m : Mem) (a : Nat) (bs : List Byte) (h : memWf m = true) :
    readBytes (writeBytes m a bs) a bs.length = bs := by
  have := readFrom_writeBytes m a 0 bs h bs.length (by omega)
  simpa [readBytes] using this

/-! ### Whole units (R291) -/

theorem memWf_filter (m : Mem) (p : Host.Cell → Bool) (h : memWf m = true) :
    memWf { m with cells := m.cells.filter p } = true := by
  simp only [memWf, Bool.and_eq_true, List.all_eq_true] at h ⊢
  exact ⟨cellsRise_filter p _ h.1, fun c hc => h.2 c (List.mem_filter.1 hc).1⟩

theorem memWf_dropUnit (m : Mem) (u : Nat) (h : memWf m = true) : memWf (dropUnit m u) = true :=
  memWf_filter m _ h

/-- Outside a fill put in front of the fills, the fill of an address is the one that it was. -/
theorem find_filter_ne (a : Nat) (f : Fill) (l : List Fill) (h : fillHas a f = false) :
    (l.filter (fun g => g != f)).find? (fillHas a) = l.find? (fillHas a) := by
  induction l with
  | nil => rfl
  | cons g l ih =>
    by_cases hg : g = f
    · subst hg; simp [h, ih]
    · have : (g != f) = true := by simpa using hg
      simp only [List.filter_cons, this, if_true, List.find?_cons, ih]

theorem fillOf_refill (m : Mem) (f : Fill) (a : Nat) (h : fillHas a f = false) :
    fillOf (refill m f) a = fillOf m a := by
  simp only [fillOf, refill, List.find?_cons, h]
  exact find_filter_ne a f m.fills h

theorem memWf_refill (m : Mem) (f : Fill) (h : memWf m = true) : memWf (refill m f) = true := by
  simp only [memWf, Bool.and_eq_true, List.all_eq_true] at h ⊢
  refine ⟨cellsRise_filter _ _ h.1, fun c hc => ?_⟩
  obtain ⟨hm, hf⟩ := List.mem_filter.1 hc
  have e := fillOf_refill m f c.1 (by simpa using hf)
  have := h.2 c hm
  simpa [always, plainByte, e] using this

/-- A fill of one whole unit takes in the addresses of that unit alone. -/
theorem fillHas_of_isFree {u a : Nat} {f : Fill} (h : isFree u f = true) :
    fillHas a f = (unitOf a == u) := by
  cases f <;> simp [isFree] at h
  all_goals simp [fillHas, h]

theorem find_filter_unit (a u : Nat) (l : List Fill) (h : (unitOf a == u) = false) :
    (l.filter (fun f => !isFree u f)).find? (fillHas a) = l.find? (fillHas a) := by
  induction l with
  | nil => rfl
  | cons g l ih =>
    by_cases hg : isFree u g = true
    · rw [List.filter_cons_of_neg (by simp [hg]), List.find?_cons, fillHas_of_isFree hg, h, ih]
    · rw [List.filter_cons_of_pos (by simp [hg])]
      simp only [List.find?_cons, ih]

/-- A unit whose own fills give way to a new one of the whole unit keeps memory in form. -/
theorem memWf_refillUnit (m : Mem) (u : Nat) (f : Fill) (hf : isFree u f = true)
    (h : memWf m = true) :
    memWf (refill { m with fills := m.fills.filter (fun g => !isFree u g) } f) = true := by
  simp only [memWf, Bool.and_eq_true, List.all_eq_true] at h ⊢
  refine ⟨cellsRise_filter _ _ h.1, fun c hc => ?_⟩
  obtain ⟨hm, hn⟩ := List.mem_filter.1 hc
  have hn : fillHas c.1 f = false := by simpa using hn
  have hu : (unitOf c.1 == u) = false := by rw [← fillHas_of_isFree hf]; exact hn
  have e : fillOf (refill { m with fills := m.fills.filter (fun g => !isFree u g) } f) c.1
      = fillOf m c.1 := by
    rw [fillOf_refill _ _ _ hn]; exact find_filter_unit c.1 u m.fills hu
  have := h.2 c hm
  simpa [always, plainByte, e] using this

theorem memWf_freeUnit (m : Mem) (u d : Nat) (h : memWf m = true) : memWf (freeUnit m u d) = true :=
  memWf_refillUnit m u _ (by simp [isFree]) h

theorem memWf_zeroUnit (m : Mem) (u : Nat) (h : memWf m = true) : memWf (zeroUnit m u) = true :=
  memWf_refillUnit m u _ (by simp [isFree]) h

/-- Memory after reset lists nothing and is in canonical form. -/
theorem memWf_reset : memWf State.reset.mem = true := rfl

end Sys2Proof.Machine
end

