-- ==== Sys2Proof/Laws/State.lean ====
section
/-!
SUPPORT. What each named update of the state gives for each field: its own field's new value, and every
other field as it was. All are true by `rfl`, so that no proof unfolds a record update.
-/

namespace Sys2Proof.Machine

variable (s : State)

/-! ### updCmd -/

@[simp] theorem updCmd_pending (id : Nat) (f : Cmd → Cmd) : (updCmd s id f).pending = s.pending := rfl
@[simp] theorem updCmd_mem (id : Nat) (f : Cmd → Cmd) : (updCmd s id f).mem = s.mem := rfl
@[simp] theorem updCmd_sched (id : Nat) (f : Cmd → Cmd) :
    (updCmd s id f).sched = { s.sched with cmds := mapIf (·.id == id) f s.sched.cmds } := rfl
@[simp] theorem updCmd_epochs (id : Nat) (f : Cmd → Cmd) : (updCmd s id f).epochs = s.epochs := rfl
@[simp] theorem updCmd_index (id : Nat) (f : Cmd → Cmd) : (updCmd s id f).index = s.index := rfl
@[simp] theorem updCmd_bricks (id : Nat) (f : Cmd → Cmd) : (updCmd s id f).bricks = s.bricks := rfl
@[simp] theorem updCmd_walks (id : Nat) (f : Cmd → Cmd) : (updCmd s id f).walks = s.walks := rfl
@[simp] theorem updCmd_nextWalk (id : Nat) (f : Cmd → Cmd) : (updCmd s id f).nextWalk = s.nextWalk := rfl
@[simp] theorem updCmd_slab (id : Nat) (f : Cmd → Cmd) : (updCmd s id f).slab = s.slab := rfl
@[simp] theorem updCmd_kv (id : Nat) (f : Cmd → Cmd) : (updCmd s id f).kv = s.kv := rfl
@[simp] theorem updCmd_tiers (id : Nat) (f : Cmd → Cmd) : (updCmd s id f).tiers = s.tiers := rfl
@[simp] theorem updCmd_hod (id : Nat) (f : Cmd → Cmd) : (updCmd s id f).hod = s.hod := rfl
@[simp] theorem updCmd_plumb (id : Nat) (f : Cmd → Cmd) : (updCmd s id f).plumb = s.plumb := rfl
@[simp] theorem updCmd_time (id : Nat) (f : Cmd → Cmd) : (updCmd s id f).time = s.time := rfl
@[simp] theorem updCmd_uzone (id : Nat) (f : Cmd → Cmd) : (updCmd s id f).uzone = s.uzone := rfl
@[simp] theorem updCmd_mortar (id : Nat) (f : Cmd → Cmd) : (updCmd s id f).mortar = s.mortar := rfl
@[simp] theorem updCmd_quoin (id : Nat) (f : Cmd → Cmd) : (updCmd s id f).quoin = s.quoin := rfl
@[simp] theorem updCmd_lintel (id : Nat) (f : Cmd → Cmd) : (updCmd s id f).lintel = s.lintel := rfl
@[simp] theorem updCmd_power (id : Nat) (f : Cmd → Cmd) : (updCmd s id f).power = s.power := rfl
@[simp] theorem updCmd_holdup (id : Nat) (f : Cmd → Cmd) : (updCmd s id f).holdup = s.holdup := rfl
@[simp] theorem updCmd_thermal (id : Nat) (f : Cmd → Cmd) : (updCmd s id f).thermal = s.thermal := rfl
@[simp] theorem updCmd_clock (id : Nat) (f : Cmd → Cmd) : (updCmd s id f).clock = s.clock := rfl
@[simp] theorem updCmd_hw (id : Nat) (f : Cmd → Cmd) : (updCmd s id f).hw = s.hw := rfl
@[simp] theorem updCmd_pins (id : Nat) (f : Cmd → Cmd) : (updCmd s id f).pins = s.pins := rfl
@[simp] theorem updCmd_drawn (id : Nat) (f : Cmd → Cmd) : (updCmd s id f).drawn = s.drawn := rfl
@[simp] theorem updCmd_lastRead (id : Nat) (f : Cmd → Cmd) : (updCmd s id f).lastRead = s.lastRead := rfl

/-! ### setPhase -/

@[simp] theorem setPhase_pending (id : Nat) (p : Phase) : (setPhase s id p).pending = s.pending := rfl
@[simp] theorem setPhase_mem (id : Nat) (p : Phase) : (setPhase s id p).mem = s.mem := rfl
@[simp] theorem setPhase_sched (id : Nat) (p : Phase) :
    (setPhase s id p).sched = { s.sched with
      cmds := mapIf (·.id == id) (fun c => { c with phase := p }) s.sched.cmds } := rfl
@[simp] theorem setPhase_epochs (id : Nat) (p : Phase) : (setPhase s id p).epochs = s.epochs := rfl
@[simp] theorem setPhase_index (id : Nat) (p : Phase) : (setPhase s id p).index = s.index := rfl
@[simp] theorem setPhase_bricks (id : Nat) (p : Phase) : (setPhase s id p).bricks = s.bricks := rfl
@[simp] theorem setPhase_walks (id : Nat) (p : Phase) : (setPhase s id p).walks = s.walks := rfl
@[simp] theorem setPhase_nextWalk (id : Nat) (p : Phase) : (setPhase s id p).nextWalk = s.nextWalk := rfl
@[simp] theorem setPhase_slab (id : Nat) (p : Phase) : (setPhase s id p).slab = s.slab := rfl
@[simp] theorem setPhase_kv (id : Nat) (p : Phase) : (setPhase s id p).kv = s.kv := rfl
@[simp] theorem setPhase_tiers (id : Nat) (p : Phase) : (setPhase s id p).tiers = s.tiers := rfl
@[simp] theorem setPhase_hod (id : Nat) (p : Phase) : (setPhase s id p).hod = s.hod := rfl
@[simp] theorem setPhase_plumb (id : Nat) (p : Phase) : (setPhase s id p).plumb = s.plumb := rfl
@[simp] theorem setPhase_time (id : Nat) (p : Phase) : (setPhase s id p).time = s.time := rfl
@[simp] theorem setPhase_uzone (id : Nat) (p : Phase) : (setPhase s id p).uzone = s.uzone := rfl
@[simp] theorem setPhase_mortar (id : Nat) (p : Phase) : (setPhase s id p).mortar = s.mortar := rfl
@[simp] theorem setPhase_quoin (id : Nat) (p : Phase) : (setPhase s id p).quoin = s.quoin := rfl
@[simp] theorem setPhase_lintel (id : Nat) (p : Phase) : (setPhase s id p).lintel = s.lintel := rfl
@[simp] theorem setPhase_power (id : Nat) (p : Phase) : (setPhase s id p).power = s.power := rfl
@[simp] theorem setPhase_holdup (id : Nat) (p : Phase) : (setPhase s id p).holdup = s.holdup := rfl
@[simp] theorem setPhase_thermal (id : Nat) (p : Phase) : (setPhase s id p).thermal = s.thermal := rfl
@[simp] theorem setPhase_clock (id : Nat) (p : Phase) : (setPhase s id p).clock = s.clock := rfl
@[simp] theorem setPhase_hw (id : Nat) (p : Phase) : (setPhase s id p).hw = s.hw := rfl
@[simp] theorem setPhase_pins (id : Nat) (p : Phase) : (setPhase s id p).pins = s.pins := rfl
@[simp] theorem setPhase_drawn (id : Nat) (p : Phase) : (setPhase s id p).drawn = s.drawn := rfl
@[simp] theorem setPhase_lastRead (id : Nat) (p : Phase) : (setPhase s id p).lastRead = s.lastRead := rfl

/-! ### updSq -/

@[simp] theorem updSq_pending (q : Nat) (f : SubQ → SubQ) : (updSq s q f).pending = s.pending := rfl
@[simp] theorem updSq_mem (q : Nat) (f : SubQ → SubQ) : (updSq s q f).mem = s.mem := rfl
@[simp] theorem updSq_sched (q : Nat) (f : SubQ → SubQ) :
    (updSq s q f).sched = { s.sched with sqs := mapIf (·.id == q) f s.sched.sqs } := rfl
@[simp] theorem updSq_epochs (q : Nat) (f : SubQ → SubQ) : (updSq s q f).epochs = s.epochs := rfl
@[simp] theorem updSq_index (q : Nat) (f : SubQ → SubQ) : (updSq s q f).index = s.index := rfl
@[simp] theorem updSq_bricks (q : Nat) (f : SubQ → SubQ) : (updSq s q f).bricks = s.bricks := rfl
@[simp] theorem updSq_walks (q : Nat) (f : SubQ → SubQ) : (updSq s q f).walks = s.walks := rfl
@[simp] theorem updSq_nextWalk (q : Nat) (f : SubQ → SubQ) : (updSq s q f).nextWalk = s.nextWalk := rfl
@[simp] theorem updSq_slab (q : Nat) (f : SubQ → SubQ) : (updSq s q f).slab = s.slab := rfl
@[simp] theorem updSq_kv (q : Nat) (f : SubQ → SubQ) : (updSq s q f).kv = s.kv := rfl
@[simp] theorem updSq_tiers (q : Nat) (f : SubQ → SubQ) : (updSq s q f).tiers = s.tiers := rfl
@[simp] theorem updSq_hod (q : Nat) (f : SubQ → SubQ) : (updSq s q f).hod = s.hod := rfl
@[simp] theorem updSq_plumb (q : Nat) (f : SubQ → SubQ) : (updSq s q f).plumb = s.plumb := rfl
@[simp] theorem updSq_time (q : Nat) (f : SubQ → SubQ) : (updSq s q f).time = s.time := rfl
@[simp] theorem updSq_uzone (q : Nat) (f : SubQ → SubQ) : (updSq s q f).uzone = s.uzone := rfl
@[simp] theorem updSq_mortar (q : Nat) (f : SubQ → SubQ) : (updSq s q f).mortar = s.mortar := rfl
@[simp] theorem updSq_quoin (q : Nat) (f : SubQ → SubQ) : (updSq s q f).quoin = s.quoin := rfl
@[simp] theorem updSq_lintel (q : Nat) (f : SubQ → SubQ) : (updSq s q f).lintel = s.lintel := rfl
@[simp] theorem updSq_power (q : Nat) (f : SubQ → SubQ) : (updSq s q f).power = s.power := rfl
@[simp] theorem updSq_holdup (q : Nat) (f : SubQ → SubQ) : (updSq s q f).holdup = s.holdup := rfl
@[simp] theorem updSq_thermal (q : Nat) (f : SubQ → SubQ) : (updSq s q f).thermal = s.thermal := rfl
@[simp] theorem updSq_clock (q : Nat) (f : SubQ → SubQ) : (updSq s q f).clock = s.clock := rfl
@[simp] theorem updSq_hw (q : Nat) (f : SubQ → SubQ) : (updSq s q f).hw = s.hw := rfl
@[simp] theorem updSq_pins (q : Nat) (f : SubQ → SubQ) : (updSq s q f).pins = s.pins := rfl
@[simp] theorem updSq_drawn (q : Nat) (f : SubQ → SubQ) : (updSq s q f).drawn = s.drawn := rfl
@[simp] theorem updSq_lastRead (q : Nat) (f : SubQ → SubQ) : (updSq s q f).lastRead = s.lastRead := rfl

/-! ### updCq -/

@[simp] theorem updCq_pending (q : Nat) (f : ComplQ → ComplQ) : (updCq s q f).pending = s.pending := rfl
@[simp] theorem updCq_mem (q : Nat) (f : ComplQ → ComplQ) : (updCq s q f).mem = s.mem := rfl
@[simp] theorem updCq_sched (q : Nat) (f : ComplQ → ComplQ) :
    (updCq s q f).sched = { s.sched with cqs := mapIf (·.id == q) f s.sched.cqs } := rfl
@[simp] theorem updCq_epochs (q : Nat) (f : ComplQ → ComplQ) : (updCq s q f).epochs = s.epochs := rfl
@[simp] theorem updCq_index (q : Nat) (f : ComplQ → ComplQ) : (updCq s q f).index = s.index := rfl
@[simp] theorem updCq_bricks (q : Nat) (f : ComplQ → ComplQ) : (updCq s q f).bricks = s.bricks := rfl
@[simp] theorem updCq_walks (q : Nat) (f : ComplQ → ComplQ) : (updCq s q f).walks = s.walks := rfl
@[simp] theorem updCq_nextWalk (q : Nat) (f : ComplQ → ComplQ) : (updCq s q f).nextWalk = s.nextWalk := rfl
@[simp] theorem updCq_slab (q : Nat) (f : ComplQ → ComplQ) : (updCq s q f).slab = s.slab := rfl
@[simp] theorem updCq_kv (q : Nat) (f : ComplQ → ComplQ) : (updCq s q f).kv = s.kv := rfl
@[simp] theorem updCq_tiers (q : Nat) (f : ComplQ → ComplQ) : (updCq s q f).tiers = s.tiers := rfl
@[simp] theorem updCq_hod (q : Nat) (f : ComplQ → ComplQ) : (updCq s q f).hod = s.hod := rfl
@[simp] theorem updCq_plumb (q : Nat) (f : ComplQ → ComplQ) : (updCq s q f).plumb = s.plumb := rfl
@[simp] theorem updCq_time (q : Nat) (f : ComplQ → ComplQ) : (updCq s q f).time = s.time := rfl
@[simp] theorem updCq_uzone (q : Nat) (f : ComplQ → ComplQ) : (updCq s q f).uzone = s.uzone := rfl
@[simp] theorem updCq_mortar (q : Nat) (f : ComplQ → ComplQ) : (updCq s q f).mortar = s.mortar := rfl
@[simp] theorem updCq_quoin (q : Nat) (f : ComplQ → ComplQ) : (updCq s q f).quoin = s.quoin := rfl
@[simp] theorem updCq_lintel (q : Nat) (f : ComplQ → ComplQ) : (updCq s q f).lintel = s.lintel := rfl
@[simp] theorem updCq_power (q : Nat) (f : ComplQ → ComplQ) : (updCq s q f).power = s.power := rfl
@[simp] theorem updCq_holdup (q : Nat) (f : ComplQ → ComplQ) : (updCq s q f).holdup = s.holdup := rfl
@[simp] theorem updCq_thermal (q : Nat) (f : ComplQ → ComplQ) : (updCq s q f).thermal = s.thermal := rfl
@[simp] theorem updCq_clock (q : Nat) (f : ComplQ → ComplQ) : (updCq s q f).clock = s.clock := rfl
@[simp] theorem updCq_hw (q : Nat) (f : ComplQ → ComplQ) : (updCq s q f).hw = s.hw := rfl
@[simp] theorem updCq_pins (q : Nat) (f : ComplQ → ComplQ) : (updCq s q f).pins = s.pins := rfl
@[simp] theorem updCq_drawn (q : Nat) (f : ComplQ → ComplQ) : (updCq s q f).drawn = s.drawn := rfl
@[simp] theorem updCq_lastRead (q : Nat) (f : ComplQ → ComplQ) : (updCq s q f).lastRead = s.lastRead := rfl

/-! ### updColl -/

@[simp] theorem updColl_pending (id : Nat) (f : Coll → Coll) : (updColl s id f).pending = s.pending := rfl
@[simp] theorem updColl_mem (id : Nat) (f : Coll → Coll) : (updColl s id f).mem = s.mem := rfl
@[simp] theorem updColl_sched (id : Nat) (f : Coll → Coll) : (updColl s id f).sched = s.sched := rfl
@[simp] theorem updColl_epochs (id : Nat) (f : Coll → Coll) : (updColl s id f).epochs = s.epochs := rfl
@[simp] theorem updColl_index (id : Nat) (f : Coll → Coll) :
    (updColl s id f).index = { s.index with colls := mapIf (·.id == id) f s.index.colls } := rfl
@[simp] theorem updColl_bricks (id : Nat) (f : Coll → Coll) : (updColl s id f).bricks = s.bricks := rfl
@[simp] theorem updColl_walks (id : Nat) (f : Coll → Coll) : (updColl s id f).walks = s.walks := rfl
@[simp] theorem updColl_nextWalk (id : Nat) (f : Coll → Coll) : (updColl s id f).nextWalk = s.nextWalk := rfl
@[simp] theorem updColl_slab (id : Nat) (f : Coll → Coll) : (updColl s id f).slab = s.slab := rfl
@[simp] theorem updColl_kv (id : Nat) (f : Coll → Coll) : (updColl s id f).kv = s.kv := rfl
@[simp] theorem updColl_tiers (id : Nat) (f : Coll → Coll) : (updColl s id f).tiers = s.tiers := rfl
@[simp] theorem updColl_hod (id : Nat) (f : Coll → Coll) : (updColl s id f).hod = s.hod := rfl
@[simp] theorem updColl_plumb (id : Nat) (f : Coll → Coll) : (updColl s id f).plumb = s.plumb := rfl
@[simp] theorem updColl_time (id : Nat) (f : Coll → Coll) : (updColl s id f).time = s.time := rfl
@[simp] theorem updColl_uzone (id : Nat) (f : Coll → Coll) : (updColl s id f).uzone = s.uzone := rfl
@[simp] theorem updColl_mortar (id : Nat) (f : Coll → Coll) : (updColl s id f).mortar = s.mortar := rfl
@[simp] theorem updColl_quoin (id : Nat) (f : Coll → Coll) : (updColl s id f).quoin = s.quoin := rfl
@[simp] theorem updColl_lintel (id : Nat) (f : Coll → Coll) : (updColl s id f).lintel = s.lintel := rfl
@[simp] theorem updColl_power (id : Nat) (f : Coll → Coll) : (updColl s id f).power = s.power := rfl
@[simp] theorem updColl_holdup (id : Nat) (f : Coll → Coll) : (updColl s id f).holdup = s.holdup := rfl
@[simp] theorem updColl_thermal (id : Nat) (f : Coll → Coll) : (updColl s id f).thermal = s.thermal := rfl
@[simp] theorem updColl_clock (id : Nat) (f : Coll → Coll) : (updColl s id f).clock = s.clock := rfl
@[simp] theorem updColl_hw (id : Nat) (f : Coll → Coll) : (updColl s id f).hw = s.hw := rfl
@[simp] theorem updColl_pins (id : Nat) (f : Coll → Coll) : (updColl s id f).pins = s.pins := rfl
@[simp] theorem updColl_drawn (id : Nat) (f : Coll → Coll) : (updColl s id f).drawn = s.drawn := rfl
@[simp] theorem updColl_lastRead (id : Nat) (f : Coll → Coll) : (updColl s id f).lastRead = s.lastRead := rfl

/-! ### updWalk -/

@[simp] theorem updWalk_pending (id : Nat) (f : Walk → Walk) : (updWalk s id f).pending = s.pending := rfl
@[simp] theorem updWalk_mem (id : Nat) (f : Walk → Walk) : (updWalk s id f).mem = s.mem := rfl
@[simp] theorem updWalk_sched (id : Nat) (f : Walk → Walk) : (updWalk s id f).sched = s.sched := rfl
@[simp] theorem updWalk_epochs (id : Nat) (f : Walk → Walk) : (updWalk s id f).epochs = s.epochs := rfl
@[simp] theorem updWalk_index (id : Nat) (f : Walk → Walk) : (updWalk s id f).index = s.index := rfl
@[simp] theorem updWalk_bricks (id : Nat) (f : Walk → Walk) : (updWalk s id f).bricks = s.bricks := rfl
@[simp] theorem updWalk_walks (id : Nat) (f : Walk → Walk) :
    (updWalk s id f).walks = mapIf (·.id == id) f s.walks := rfl
@[simp] theorem updWalk_nextWalk (id : Nat) (f : Walk → Walk) : (updWalk s id f).nextWalk = s.nextWalk := rfl
@[simp] theorem updWalk_slab (id : Nat) (f : Walk → Walk) : (updWalk s id f).slab = s.slab := rfl
@[simp] theorem updWalk_kv (id : Nat) (f : Walk → Walk) : (updWalk s id f).kv = s.kv := rfl
@[simp] theorem updWalk_tiers (id : Nat) (f : Walk → Walk) : (updWalk s id f).tiers = s.tiers := rfl
@[simp] theorem updWalk_hod (id : Nat) (f : Walk → Walk) : (updWalk s id f).hod = s.hod := rfl
@[simp] theorem updWalk_plumb (id : Nat) (f : Walk → Walk) : (updWalk s id f).plumb = s.plumb := rfl
@[simp] theorem updWalk_time (id : Nat) (f : Walk → Walk) : (updWalk s id f).time = s.time := rfl
@[simp] theorem updWalk_uzone (id : Nat) (f : Walk → Walk) : (updWalk s id f).uzone = s.uzone := rfl
@[simp] theorem updWalk_mortar (id : Nat) (f : Walk → Walk) : (updWalk s id f).mortar = s.mortar := rfl
@[simp] theorem updWalk_quoin (id : Nat) (f : Walk → Walk) : (updWalk s id f).quoin = s.quoin := rfl
@[simp] theorem updWalk_lintel (id : Nat) (f : Walk → Walk) : (updWalk s id f).lintel = s.lintel := rfl
@[simp] theorem updWalk_power (id : Nat) (f : Walk → Walk) : (updWalk s id f).power = s.power := rfl
@[simp] theorem updWalk_holdup (id : Nat) (f : Walk → Walk) : (updWalk s id f).holdup = s.holdup := rfl
@[simp] theorem updWalk_thermal (id : Nat) (f : Walk → Walk) : (updWalk s id f).thermal = s.thermal := rfl
@[simp] theorem updWalk_clock (id : Nat) (f : Walk → Walk) : (updWalk s id f).clock = s.clock := rfl
@[simp] theorem updWalk_hw (id : Nat) (f : Walk → Walk) : (updWalk s id f).hw = s.hw := rfl
@[simp] theorem updWalk_pins (id : Nat) (f : Walk → Walk) : (updWalk s id f).pins = s.pins := rfl
@[simp] theorem updWalk_drawn (id : Nat) (f : Walk → Walk) : (updWalk s id f).drawn = s.drawn := rfl
@[simp] theorem updWalk_lastRead (id : Nat) (f : Walk → Walk) : (updWalk s id f).lastRead = s.lastRead := rfl

/-! ### updBrick -/

@[simp] theorem updBrick_pending (b : Nat) (f : Brick → Brick) : (updBrick s b f).pending = s.pending := rfl
@[simp] theorem updBrick_mem (b : Nat) (f : Brick → Brick) : (updBrick s b f).mem = s.mem := rfl
@[simp] theorem updBrick_sched (b : Nat) (f : Brick → Brick) : (updBrick s b f).sched = s.sched := rfl
@[simp] theorem updBrick_epochs (b : Nat) (f : Brick → Brick) : (updBrick s b f).epochs = s.epochs := rfl
@[simp] theorem updBrick_index (b : Nat) (f : Brick → Brick) : (updBrick s b f).index = s.index := rfl
@[simp] theorem updBrick_bricks (b : Nat) (f : Brick → Brick) :
    (updBrick s b f).bricks = modAt s.bricks b f := rfl
@[simp] theorem updBrick_walks (b : Nat) (f : Brick → Brick) : (updBrick s b f).walks = s.walks := rfl
@[simp] theorem updBrick_nextWalk (b : Nat) (f : Brick → Brick) : (updBrick s b f).nextWalk = s.nextWalk := rfl
@[simp] theorem updBrick_slab (b : Nat) (f : Brick → Brick) : (updBrick s b f).slab = s.slab := rfl
@[simp] theorem updBrick_kv (b : Nat) (f : Brick → Brick) : (updBrick s b f).kv = s.kv := rfl
@[simp] theorem updBrick_tiers (b : Nat) (f : Brick → Brick) : (updBrick s b f).tiers = s.tiers := rfl
@[simp] theorem updBrick_hod (b : Nat) (f : Brick → Brick) : (updBrick s b f).hod = s.hod := rfl
@[simp] theorem updBrick_plumb (b : Nat) (f : Brick → Brick) : (updBrick s b f).plumb = s.plumb := rfl
@[simp] theorem updBrick_time (b : Nat) (f : Brick → Brick) : (updBrick s b f).time = s.time := rfl
@[simp] theorem updBrick_uzone (b : Nat) (f : Brick → Brick) : (updBrick s b f).uzone = s.uzone := rfl
@[simp] theorem updBrick_mortar (b : Nat) (f : Brick → Brick) : (updBrick s b f).mortar = s.mortar := rfl
@[simp] theorem updBrick_quoin (b : Nat) (f : Brick → Brick) : (updBrick s b f).quoin = s.quoin := rfl
@[simp] theorem updBrick_lintel (b : Nat) (f : Brick → Brick) : (updBrick s b f).lintel = s.lintel := rfl
@[simp] theorem updBrick_power (b : Nat) (f : Brick → Brick) : (updBrick s b f).power = s.power := rfl
@[simp] theorem updBrick_holdup (b : Nat) (f : Brick → Brick) : (updBrick s b f).holdup = s.holdup := rfl
@[simp] theorem updBrick_thermal (b : Nat) (f : Brick → Brick) : (updBrick s b f).thermal = s.thermal := rfl
@[simp] theorem updBrick_clock (b : Nat) (f : Brick → Brick) : (updBrick s b f).clock = s.clock := rfl
@[simp] theorem updBrick_hw (b : Nat) (f : Brick → Brick) : (updBrick s b f).hw = s.hw := rfl
@[simp] theorem updBrick_pins (b : Nat) (f : Brick → Brick) : (updBrick s b f).pins = s.pins := rfl
@[simp] theorem updBrick_drawn (b : Nat) (f : Brick → Brick) : (updBrick s b f).drawn = s.drawn := rfl
@[simp] theorem updBrick_lastRead (b : Nat) (f : Brick → Brick) : (updBrick s b f).lastRead = s.lastRead := rfl

/-! ### updGather -/

@[simp] theorem updGather_pending (id : Nat) (f : RerankReq → RerankReq) : (updGather s id f).pending = s.pending := rfl
@[simp] theorem updGather_mem (id : Nat) (f : RerankReq → RerankReq) : (updGather s id f).mem = s.mem := rfl
@[simp] theorem updGather_sched (id : Nat) (f : RerankReq → RerankReq) : (updGather s id f).sched = s.sched := rfl
@[simp] theorem updGather_epochs (id : Nat) (f : RerankReq → RerankReq) : (updGather s id f).epochs = s.epochs := rfl
@[simp] theorem updGather_index (id : Nat) (f : RerankReq → RerankReq) : (updGather s id f).index = s.index := rfl
@[simp] theorem updGather_bricks (id : Nat) (f : RerankReq → RerankReq) : (updGather s id f).bricks = s.bricks := rfl
@[simp] theorem updGather_walks (id : Nat) (f : RerankReq → RerankReq) : (updGather s id f).walks = s.walks := rfl
@[simp] theorem updGather_nextWalk (id : Nat) (f : RerankReq → RerankReq) : (updGather s id f).nextWalk = s.nextWalk := rfl
@[simp] theorem updGather_slab (id : Nat) (f : RerankReq → RerankReq) :
    (updGather s id f).slab = { s.slab with gathers := mapIf (·.id == id) f s.slab.gathers } := rfl
@[simp] theorem updGather_kv (id : Nat) (f : RerankReq → RerankReq) : (updGather s id f).kv = s.kv := rfl
@[simp] theorem updGather_tiers (id : Nat) (f : RerankReq → RerankReq) : (updGather s id f).tiers = s.tiers := rfl
@[simp] theorem updGather_hod (id : Nat) (f : RerankReq → RerankReq) : (updGather s id f).hod = s.hod := rfl
@[simp] theorem updGather_plumb (id : Nat) (f : RerankReq → RerankReq) : (updGather s id f).plumb = s.plumb := rfl
@[simp] theorem updGather_time (id : Nat) (f : RerankReq → RerankReq) : (updGather s id f).time = s.time := rfl
@[simp] theorem updGather_uzone (id : Nat) (f : RerankReq → RerankReq) : (updGather s id f).uzone = s.uzone := rfl
@[simp] theorem updGather_mortar (id : Nat) (f : RerankReq → RerankReq) : (updGather s id f).mortar = s.mortar := rfl
@[simp] theorem updGather_quoin (id : Nat) (f : RerankReq → RerankReq) : (updGather s id f).quoin = s.quoin := rfl
@[simp] theorem updGather_lintel (id : Nat) (f : RerankReq → RerankReq) : (updGather s id f).lintel = s.lintel := rfl
@[simp] theorem updGather_power (id : Nat) (f : RerankReq → RerankReq) : (updGather s id f).power = s.power := rfl
@[simp] theorem updGather_holdup (id : Nat) (f : RerankReq → RerankReq) : (updGather s id f).holdup = s.holdup := rfl
@[simp] theorem updGather_thermal (id : Nat) (f : RerankReq → RerankReq) : (updGather s id f).thermal = s.thermal := rfl
@[simp] theorem updGather_clock (id : Nat) (f : RerankReq → RerankReq) : (updGather s id f).clock = s.clock := rfl
@[simp] theorem updGather_hw (id : Nat) (f : RerankReq → RerankReq) : (updGather s id f).hw = s.hw := rfl
@[simp] theorem updGather_pins (id : Nat) (f : RerankReq → RerankReq) : (updGather s id f).pins = s.pins := rfl
@[simp] theorem updGather_drawn (id : Nat) (f : RerankReq → RerankReq) : (updGather s id f).drawn = s.drawn := rfl
@[simp] theorem updGather_lastRead (id : Nat) (f : RerankReq → RerankReq) : (updGather s id f).lastRead = s.lastRead := rfl

/-! ### updSeq -/

@[simp] theorem updSeq_pending (id : Nat) (f : KvSeq → KvSeq) : (updSeq s id f).pending = s.pending := rfl
@[simp] theorem updSeq_mem (id : Nat) (f : KvSeq → KvSeq) : (updSeq s id f).mem = s.mem := rfl
@[simp] theorem updSeq_sched (id : Nat) (f : KvSeq → KvSeq) : (updSeq s id f).sched = s.sched := rfl
@[simp] theorem updSeq_epochs (id : Nat) (f : KvSeq → KvSeq) : (updSeq s id f).epochs = s.epochs := rfl
@[simp] theorem updSeq_index (id : Nat) (f : KvSeq → KvSeq) : (updSeq s id f).index = s.index := rfl
@[simp] theorem updSeq_bricks (id : Nat) (f : KvSeq → KvSeq) : (updSeq s id f).bricks = s.bricks := rfl
@[simp] theorem updSeq_walks (id : Nat) (f : KvSeq → KvSeq) : (updSeq s id f).walks = s.walks := rfl
@[simp] theorem updSeq_nextWalk (id : Nat) (f : KvSeq → KvSeq) : (updSeq s id f).nextWalk = s.nextWalk := rfl
@[simp] theorem updSeq_slab (id : Nat) (f : KvSeq → KvSeq) : (updSeq s id f).slab = s.slab := rfl
@[simp] theorem updSeq_kv (id : Nat) (f : KvSeq → KvSeq) :
    (updSeq s id f).kv = { s.kv with seqs := mapIf (·.id == id) f s.kv.seqs } := rfl
@[simp] theorem updSeq_tiers (id : Nat) (f : KvSeq → KvSeq) : (updSeq s id f).tiers = s.tiers := rfl
@[simp] theorem updSeq_hod (id : Nat) (f : KvSeq → KvSeq) : (updSeq s id f).hod = s.hod := rfl
@[simp] theorem updSeq_plumb (id : Nat) (f : KvSeq → KvSeq) : (updSeq s id f).plumb = s.plumb := rfl
@[simp] theorem updSeq_time (id : Nat) (f : KvSeq → KvSeq) : (updSeq s id f).time = s.time := rfl
@[simp] theorem updSeq_uzone (id : Nat) (f : KvSeq → KvSeq) : (updSeq s id f).uzone = s.uzone := rfl
@[simp] theorem updSeq_mortar (id : Nat) (f : KvSeq → KvSeq) : (updSeq s id f).mortar = s.mortar := rfl
@[simp] theorem updSeq_quoin (id : Nat) (f : KvSeq → KvSeq) : (updSeq s id f).quoin = s.quoin := rfl
@[simp] theorem updSeq_lintel (id : Nat) (f : KvSeq → KvSeq) : (updSeq s id f).lintel = s.lintel := rfl
@[simp] theorem updSeq_power (id : Nat) (f : KvSeq → KvSeq) : (updSeq s id f).power = s.power := rfl
@[simp] theorem updSeq_holdup (id : Nat) (f : KvSeq → KvSeq) : (updSeq s id f).holdup = s.holdup := rfl
@[simp] theorem updSeq_thermal (id : Nat) (f : KvSeq → KvSeq) : (updSeq s id f).thermal = s.thermal := rfl
@[simp] theorem updSeq_clock (id : Nat) (f : KvSeq → KvSeq) : (updSeq s id f).clock = s.clock := rfl
@[simp] theorem updSeq_hw (id : Nat) (f : KvSeq → KvSeq) : (updSeq s id f).hw = s.hw := rfl
@[simp] theorem updSeq_pins (id : Nat) (f : KvSeq → KvSeq) : (updSeq s id f).pins = s.pins := rfl
@[simp] theorem updSeq_drawn (id : Nat) (f : KvSeq → KvSeq) : (updSeq s id f).drawn = s.drawn := rfl
@[simp] theorem updSeq_lastRead (id : Nat) (f : KvSeq → KvSeq) : (updSeq s id f).lastRead = s.lastRead := rfl

/-! ### updUnit -/

@[simp] theorem updUnit_pending (u : Nat) (f : Plumb → Plumb) : (updUnit s u f).pending = s.pending := rfl
@[simp] theorem updUnit_mem (u : Nat) (f : Plumb → Plumb) : (updUnit s u f).mem = s.mem := rfl
@[simp] theorem updUnit_sched (u : Nat) (f : Plumb → Plumb) : (updUnit s u f).sched = s.sched := rfl
@[simp] theorem updUnit_epochs (u : Nat) (f : Plumb → Plumb) : (updUnit s u f).epochs = s.epochs := rfl
@[simp] theorem updUnit_index (u : Nat) (f : Plumb → Plumb) : (updUnit s u f).index = s.index := rfl
@[simp] theorem updUnit_bricks (u : Nat) (f : Plumb → Plumb) : (updUnit s u f).bricks = s.bricks := rfl
@[simp] theorem updUnit_walks (u : Nat) (f : Plumb → Plumb) : (updUnit s u f).walks = s.walks := rfl
@[simp] theorem updUnit_nextWalk (u : Nat) (f : Plumb → Plumb) : (updUnit s u f).nextWalk = s.nextWalk := rfl
@[simp] theorem updUnit_slab (u : Nat) (f : Plumb → Plumb) : (updUnit s u f).slab = s.slab := rfl
@[simp] theorem updUnit_kv (u : Nat) (f : Plumb → Plumb) : (updUnit s u f).kv = s.kv := rfl
@[simp] theorem updUnit_tiers (u : Nat) (f : Plumb → Plumb) : (updUnit s u f).tiers = s.tiers := rfl
@[simp] theorem updUnit_hod (u : Nat) (f : Plumb → Plumb) : (updUnit s u f).hod = s.hod := rfl
@[simp] theorem updUnit_plumb (u : Nat) (f : Plumb → Plumb) :
    (updUnit s u f).plumb = { s.plumb with units := modAt s.plumb.units u f } := rfl
@[simp] theorem updUnit_time (u : Nat) (f : Plumb → Plumb) : (updUnit s u f).time = s.time := rfl
@[simp] theorem updUnit_uzone (u : Nat) (f : Plumb → Plumb) : (updUnit s u f).uzone = s.uzone := rfl
@[simp] theorem updUnit_mortar (u : Nat) (f : Plumb → Plumb) : (updUnit s u f).mortar = s.mortar := rfl
@[simp] theorem updUnit_quoin (u : Nat) (f : Plumb → Plumb) : (updUnit s u f).quoin = s.quoin := rfl
@[simp] theorem updUnit_lintel (u : Nat) (f : Plumb → Plumb) : (updUnit s u f).lintel = s.lintel := rfl
@[simp] theorem updUnit_power (u : Nat) (f : Plumb → Plumb) : (updUnit s u f).power = s.power := rfl
@[simp] theorem updUnit_holdup (u : Nat) (f : Plumb → Plumb) : (updUnit s u f).holdup = s.holdup := rfl
@[simp] theorem updUnit_thermal (u : Nat) (f : Plumb → Plumb) : (updUnit s u f).thermal = s.thermal := rfl
@[simp] theorem updUnit_clock (u : Nat) (f : Plumb → Plumb) : (updUnit s u f).clock = s.clock := rfl
@[simp] theorem updUnit_hw (u : Nat) (f : Plumb → Plumb) : (updUnit s u f).hw = s.hw := rfl
@[simp] theorem updUnit_pins (u : Nat) (f : Plumb → Plumb) : (updUnit s u f).pins = s.pins := rfl
@[simp] theorem updUnit_drawn (u : Nat) (f : Plumb → Plumb) : (updUnit s u f).drawn = s.drawn := rfl
@[simp] theorem updUnit_lastRead (u : Nat) (f : Plumb → Plumb) : (updUnit s u f).lastRead = s.lastRead := rfl

/-! ### updStream -/

@[simp] theorem updStream_pending (id : Nat) (f : Stream → Stream) : (updStream s id f).pending = s.pending := rfl
@[simp] theorem updStream_mem (id : Nat) (f : Stream → Stream) : (updStream s id f).mem = s.mem := rfl
@[simp] theorem updStream_sched (id : Nat) (f : Stream → Stream) : (updStream s id f).sched = s.sched := rfl
@[simp] theorem updStream_epochs (id : Nat) (f : Stream → Stream) : (updStream s id f).epochs = s.epochs := rfl
@[simp] theorem updStream_index (id : Nat) (f : Stream → Stream) : (updStream s id f).index = s.index := rfl
@[simp] theorem updStream_bricks (id : Nat) (f : Stream → Stream) : (updStream s id f).bricks = s.bricks := rfl
@[simp] theorem updStream_walks (id : Nat) (f : Stream → Stream) : (updStream s id f).walks = s.walks := rfl
@[simp] theorem updStream_nextWalk (id : Nat) (f : Stream → Stream) : (updStream s id f).nextWalk = s.nextWalk := rfl
@[simp] theorem updStream_slab (id : Nat) (f : Stream → Stream) : (updStream s id f).slab = s.slab := rfl
@[simp] theorem updStream_kv (id : Nat) (f : Stream → Stream) : (updStream s id f).kv = s.kv := rfl
@[simp] theorem updStream_tiers (id : Nat) (f : Stream → Stream) : (updStream s id f).tiers = s.tiers := rfl
@[simp] theorem updStream_hod (id : Nat) (f : Stream → Stream) :
    (updStream s id f).hod = { s.hod with streams := mapIf (·.id == id) f s.hod.streams } := rfl
@[simp] theorem updStream_plumb (id : Nat) (f : Stream → Stream) : (updStream s id f).plumb = s.plumb := rfl
@[simp] theorem updStream_time (id : Nat) (f : Stream → Stream) : (updStream s id f).time = s.time := rfl
@[simp] theorem updStream_uzone (id : Nat) (f : Stream → Stream) : (updStream s id f).uzone = s.uzone := rfl
@[simp] theorem updStream_mortar (id : Nat) (f : Stream → Stream) : (updStream s id f).mortar = s.mortar := rfl
@[simp] theorem updStream_quoin (id : Nat) (f : Stream → Stream) : (updStream s id f).quoin = s.quoin := rfl
@[simp] theorem updStream_lintel (id : Nat) (f : Stream → Stream) : (updStream s id f).lintel = s.lintel := rfl
@[simp] theorem updStream_power (id : Nat) (f : Stream → Stream) : (updStream s id f).power = s.power := rfl
@[simp] theorem updStream_holdup (id : Nat) (f : Stream → Stream) : (updStream s id f).holdup = s.holdup := rfl
@[simp] theorem updStream_thermal (id : Nat) (f : Stream → Stream) : (updStream s id f).thermal = s.thermal := rfl
@[simp] theorem updStream_clock (id : Nat) (f : Stream → Stream) : (updStream s id f).clock = s.clock := rfl
@[simp] theorem updStream_hw (id : Nat) (f : Stream → Stream) : (updStream s id f).hw = s.hw := rfl
@[simp] theorem updStream_pins (id : Nat) (f : Stream → Stream) : (updStream s id f).pins = s.pins := rfl
@[simp] theorem updStream_drawn (id : Nat) (f : Stream → Stream) : (updStream s id f).drawn = s.drawn := rfl
@[simp] theorem updStream_lastRead (id : Nat) (f : Stream → Stream) : (updStream s id f).lastRead = s.lastRead := rfl

/-! ### updFan -/

@[simp] theorem updFan_pending (id : Nat) (f : Fan → Fan) : (updFan s id f).pending = s.pending := rfl
@[simp] theorem updFan_mem (id : Nat) (f : Fan → Fan) : (updFan s id f).mem = s.mem := rfl
@[simp] theorem updFan_sched (id : Nat) (f : Fan → Fan) : (updFan s id f).sched = s.sched := rfl
@[simp] theorem updFan_epochs (id : Nat) (f : Fan → Fan) : (updFan s id f).epochs = s.epochs := rfl
@[simp] theorem updFan_index (id : Nat) (f : Fan → Fan) : (updFan s id f).index = s.index := rfl
@[simp] theorem updFan_bricks (id : Nat) (f : Fan → Fan) : (updFan s id f).bricks = s.bricks := rfl
@[simp] theorem updFan_walks (id : Nat) (f : Fan → Fan) : (updFan s id f).walks = s.walks := rfl
@[simp] theorem updFan_nextWalk (id : Nat) (f : Fan → Fan) : (updFan s id f).nextWalk = s.nextWalk := rfl
@[simp] theorem updFan_slab (id : Nat) (f : Fan → Fan) : (updFan s id f).slab = s.slab := rfl
@[simp] theorem updFan_kv (id : Nat) (f : Fan → Fan) : (updFan s id f).kv = s.kv := rfl
@[simp] theorem updFan_tiers (id : Nat) (f : Fan → Fan) : (updFan s id f).tiers = s.tiers := rfl
@[simp] theorem updFan_hod (id : Nat) (f : Fan → Fan) : (updFan s id f).hod = s.hod := rfl
@[simp] theorem updFan_plumb (id : Nat) (f : Fan → Fan) : (updFan s id f).plumb = s.plumb := rfl
@[simp] theorem updFan_time (id : Nat) (f : Fan → Fan) : (updFan s id f).time = s.time := rfl
@[simp] theorem updFan_uzone (id : Nat) (f : Fan → Fan) : (updFan s id f).uzone = s.uzone := rfl
@[simp] theorem updFan_mortar (id : Nat) (f : Fan → Fan) :
    (updFan s id f).mortar = { s.mortar with fans := mapIf (·.id == id) f s.mortar.fans } := rfl
@[simp] theorem updFan_quoin (id : Nat) (f : Fan → Fan) : (updFan s id f).quoin = s.quoin := rfl
@[simp] theorem updFan_lintel (id : Nat) (f : Fan → Fan) : (updFan s id f).lintel = s.lintel := rfl
@[simp] theorem updFan_power (id : Nat) (f : Fan → Fan) : (updFan s id f).power = s.power := rfl
@[simp] theorem updFan_holdup (id : Nat) (f : Fan → Fan) : (updFan s id f).holdup = s.holdup := rfl
@[simp] theorem updFan_thermal (id : Nat) (f : Fan → Fan) : (updFan s id f).thermal = s.thermal := rfl
@[simp] theorem updFan_clock (id : Nat) (f : Fan → Fan) : (updFan s id f).clock = s.clock := rfl
@[simp] theorem updFan_hw (id : Nat) (f : Fan → Fan) : (updFan s id f).hw = s.hw := rfl
@[simp] theorem updFan_pins (id : Nat) (f : Fan → Fan) : (updFan s id f).pins = s.pins := rfl
@[simp] theorem updFan_drawn (id : Nat) (f : Fan → Fan) : (updFan s id f).drawn = s.drawn := rfl
@[simp] theorem updFan_lastRead (id : Nat) (f : Fan → Fan) : (updFan s id f).lastRead = s.lastRead := rfl

/-! ### updPort -/

@[simp] theorem updPort_pending (p : Nat) (f : Port → Port) : (updPort s p f).pending = s.pending := rfl
@[simp] theorem updPort_mem (p : Nat) (f : Port → Port) : (updPort s p f).mem = s.mem := rfl
@[simp] theorem updPort_sched (p : Nat) (f : Port → Port) : (updPort s p f).sched = s.sched := rfl
@[simp] theorem updPort_epochs (p : Nat) (f : Port → Port) : (updPort s p f).epochs = s.epochs := rfl
@[simp] theorem updPort_index (p : Nat) (f : Port → Port) : (updPort s p f).index = s.index := rfl
@[simp] theorem updPort_bricks (p : Nat) (f : Port → Port) : (updPort s p f).bricks = s.bricks := rfl
@[simp] theorem updPort_walks (p : Nat) (f : Port → Port) : (updPort s p f).walks = s.walks := rfl
@[simp] theorem updPort_nextWalk (p : Nat) (f : Port → Port) : (updPort s p f).nextWalk = s.nextWalk := rfl
@[simp] theorem updPort_slab (p : Nat) (f : Port → Port) : (updPort s p f).slab = s.slab := rfl
@[simp] theorem updPort_kv (p : Nat) (f : Port → Port) : (updPort s p f).kv = s.kv := rfl
@[simp] theorem updPort_tiers (p : Nat) (f : Port → Port) : (updPort s p f).tiers = s.tiers := rfl
@[simp] theorem updPort_hod (p : Nat) (f : Port → Port) : (updPort s p f).hod = s.hod := rfl
@[simp] theorem updPort_plumb (p : Nat) (f : Port → Port) : (updPort s p f).plumb = s.plumb := rfl
@[simp] theorem updPort_time (p : Nat) (f : Port → Port) : (updPort s p f).time = s.time := rfl
@[simp] theorem updPort_uzone (p : Nat) (f : Port → Port) : (updPort s p f).uzone = s.uzone := rfl
@[simp] theorem updPort_mortar (p : Nat) (f : Port → Port) :
    (updPort s p f).mortar = { s.mortar with ports := modAt s.mortar.ports p f } := rfl
@[simp] theorem updPort_quoin (p : Nat) (f : Port → Port) : (updPort s p f).quoin = s.quoin := rfl
@[simp] theorem updPort_lintel (p : Nat) (f : Port → Port) : (updPort s p f).lintel = s.lintel := rfl
@[simp] theorem updPort_power (p : Nat) (f : Port → Port) : (updPort s p f).power = s.power := rfl
@[simp] theorem updPort_holdup (p : Nat) (f : Port → Port) : (updPort s p f).holdup = s.holdup := rfl
@[simp] theorem updPort_thermal (p : Nat) (f : Port → Port) : (updPort s p f).thermal = s.thermal := rfl
@[simp] theorem updPort_clock (p : Nat) (f : Port → Port) : (updPort s p f).clock = s.clock := rfl
@[simp] theorem updPort_hw (p : Nat) (f : Port → Port) : (updPort s p f).hw = s.hw := rfl
@[simp] theorem updPort_pins (p : Nat) (f : Port → Port) : (updPort s p f).pins = s.pins := rfl
@[simp] theorem updPort_drawn (p : Nat) (f : Port → Port) : (updPort s p f).drawn = s.drawn := rfl
@[simp] theorem updPort_lastRead (p : Nat) (f : Port → Port) : (updPort s p f).lastRead = s.lastRead := rfl

/-! ### updMove -/

@[simp] theorem updMove_pending (n : Nat) (f : Migration → Migration) : (updMove s n f).pending = s.pending := rfl
@[simp] theorem updMove_mem (n : Nat) (f : Migration → Migration) : (updMove s n f).mem = s.mem := rfl
@[simp] theorem updMove_sched (n : Nat) (f : Migration → Migration) : (updMove s n f).sched = s.sched := rfl
@[simp] theorem updMove_epochs (n : Nat) (f : Migration → Migration) : (updMove s n f).epochs = s.epochs := rfl
@[simp] theorem updMove_index (n : Nat) (f : Migration → Migration) : (updMove s n f).index = s.index := rfl
@[simp] theorem updMove_bricks (n : Nat) (f : Migration → Migration) : (updMove s n f).bricks = s.bricks := rfl
@[simp] theorem updMove_walks (n : Nat) (f : Migration → Migration) : (updMove s n f).walks = s.walks := rfl
@[simp] theorem updMove_nextWalk (n : Nat) (f : Migration → Migration) : (updMove s n f).nextWalk = s.nextWalk := rfl
@[simp] theorem updMove_slab (n : Nat) (f : Migration → Migration) : (updMove s n f).slab = s.slab := rfl
@[simp] theorem updMove_kv (n : Nat) (f : Migration → Migration) : (updMove s n f).kv = s.kv := rfl
@[simp] theorem updMove_tiers (n : Nat) (f : Migration → Migration) :
    (updMove s n f).tiers = { s.tiers with migrations := mapIf (·.cmd == n) f s.tiers.migrations } := rfl
@[simp] theorem updMove_hod (n : Nat) (f : Migration → Migration) : (updMove s n f).hod = s.hod := rfl
@[simp] theorem updMove_plumb (n : Nat) (f : Migration → Migration) : (updMove s n f).plumb = s.plumb := rfl
@[simp] theorem updMove_time (n : Nat) (f : Migration → Migration) : (updMove s n f).time = s.time := rfl
@[simp] theorem updMove_uzone (n : Nat) (f : Migration → Migration) : (updMove s n f).uzone = s.uzone := rfl
@[simp] theorem updMove_mortar (n : Nat) (f : Migration → Migration) : (updMove s n f).mortar = s.mortar := rfl
@[simp] theorem updMove_quoin (n : Nat) (f : Migration → Migration) : (updMove s n f).quoin = s.quoin := rfl
@[simp] theorem updMove_lintel (n : Nat) (f : Migration → Migration) : (updMove s n f).lintel = s.lintel := rfl
@[simp] theorem updMove_power (n : Nat) (f : Migration → Migration) : (updMove s n f).power = s.power := rfl
@[simp] theorem updMove_holdup (n : Nat) (f : Migration → Migration) : (updMove s n f).holdup = s.holdup := rfl
@[simp] theorem updMove_thermal (n : Nat) (f : Migration → Migration) : (updMove s n f).thermal = s.thermal := rfl
@[simp] theorem updMove_clock (n : Nat) (f : Migration → Migration) : (updMove s n f).clock = s.clock := rfl
@[simp] theorem updMove_hw (n : Nat) (f : Migration → Migration) : (updMove s n f).hw = s.hw := rfl
@[simp] theorem updMove_pins (n : Nat) (f : Migration → Migration) : (updMove s n f).pins = s.pins := rfl
@[simp] theorem updMove_drawn (n : Nat) (f : Migration → Migration) : (updMove s n f).drawn = s.drawn := rfl
@[simp] theorem updMove_lastRead (n : Nat) (f : Migration → Migration) : (updMove s n f).lastRead = s.lastRead := rfl

/-! ### setHome -/

@[simp] theorem setHome_pending (u : Nat) (h : Home) (b m : Bool) : (setHome s u h b m).pending = s.pending := rfl
@[simp] theorem setHome_mem (u : Nat) (h : Home) (b m : Bool) : (setHome s u h b m).mem = s.mem := rfl
@[simp] theorem setHome_sched (u : Nat) (h : Home) (b m : Bool) : (setHome s u h b m).sched = s.sched := rfl
@[simp] theorem setHome_epochs (u : Nat) (h : Home) (b m : Bool) : (setHome s u h b m).epochs = s.epochs := rfl
@[simp] theorem setHome_index (u : Nat) (h : Home) (b m : Bool) : (setHome s u h b m).index = s.index := rfl
@[simp] theorem setHome_bricks (u : Nat) (h : Home) (b m : Bool) : (setHome s u h b m).bricks = s.bricks := rfl
@[simp] theorem setHome_walks (u : Nat) (h : Home) (b m : Bool) : (setHome s u h b m).walks = s.walks := rfl
@[simp] theorem setHome_nextWalk (u : Nat) (h : Home) (b m : Bool) : (setHome s u h b m).nextWalk = s.nextWalk := rfl
@[simp] theorem setHome_slab (u : Nat) (h : Home) (b m : Bool) : (setHome s u h b m).slab = s.slab := rfl
@[simp] theorem setHome_kv (u : Nat) (h : Home) (b m : Bool) : (setHome s u h b m).kv = s.kv := rfl
@[simp] theorem setHome_tiers (u : Nat) (h : Home) (b m : Bool) :
    (setHome s u h b m).tiers = { s.tiers with
      entries := s.tiers.entries.filter (fun e => e.unit != u) ++
        (if h != plainHome s u || b || m then
          [{ unit := u, home := h, faultOn := b, moving := m }] else []) } := rfl
@[simp] theorem setHome_hod (u : Nat) (h : Home) (b m : Bool) : (setHome s u h b m).hod = s.hod := rfl
@[simp] theorem setHome_plumb (u : Nat) (h : Home) (b m : Bool) : (setHome s u h b m).plumb = s.plumb := rfl
@[simp] theorem setHome_time (u : Nat) (h : Home) (b m : Bool) : (setHome s u h b m).time = s.time := rfl
@[simp] theorem setHome_uzone (u : Nat) (h : Home) (b m : Bool) : (setHome s u h b m).uzone = s.uzone := rfl
@[simp] theorem setHome_mortar (u : Nat) (h : Home) (b m : Bool) : (setHome s u h b m).mortar = s.mortar := rfl
@[simp] theorem setHome_quoin (u : Nat) (h : Home) (b m : Bool) : (setHome s u h b m).quoin = s.quoin := rfl
@[simp] theorem setHome_lintel (u : Nat) (h : Home) (b m : Bool) : (setHome s u h b m).lintel = s.lintel := rfl
@[simp] theorem setHome_power (u : Nat) (h : Home) (b m : Bool) : (setHome s u h b m).power = s.power := rfl
@[simp] theorem setHome_holdup (u : Nat) (h : Home) (b m : Bool) : (setHome s u h b m).holdup = s.holdup := rfl
@[simp] theorem setHome_thermal (u : Nat) (h : Home) (b m : Bool) : (setHome s u h b m).thermal = s.thermal := rfl
@[simp] theorem setHome_clock (u : Nat) (h : Home) (b m : Bool) : (setHome s u h b m).clock = s.clock := rfl
@[simp] theorem setHome_hw (u : Nat) (h : Home) (b m : Bool) : (setHome s u h b m).hw = s.hw := rfl
@[simp] theorem setHome_pins (u : Nat) (h : Home) (b m : Bool) : (setHome s u h b m).pins = s.pins := rfl
@[simp] theorem setHome_drawn (u : Nat) (h : Home) (b m : Bool) : (setHome s u h b m).drawn = s.drawn := rfl
@[simp] theorem setHome_lastRead (u : Nat) (h : Home) (b m : Bool) : (setHome s u h b m).lastRead = s.lastRead := rfl

/-! ### clearPoison -/

@[simp] theorem clearPoison_pending (a n : Nat) : (clearPoison s a n).pending = s.pending := rfl
@[simp] theorem clearPoison_mem (a n : Nat) : (clearPoison s a n).mem = s.mem := rfl
@[simp] theorem clearPoison_sched (a n : Nat) : (clearPoison s a n).sched = s.sched := rfl
@[simp] theorem clearPoison_epochs (a n : Nat) : (clearPoison s a n).epochs = s.epochs := rfl
@[simp] theorem clearPoison_index (a n : Nat) : (clearPoison s a n).index = s.index := rfl
@[simp] theorem clearPoison_bricks (a n : Nat) : (clearPoison s a n).bricks = s.bricks := rfl
@[simp] theorem clearPoison_walks (a n : Nat) : (clearPoison s a n).walks = s.walks := rfl
@[simp] theorem clearPoison_nextWalk (a n : Nat) : (clearPoison s a n).nextWalk = s.nextWalk := rfl
@[simp] theorem clearPoison_slab (a n : Nat) : (clearPoison s a n).slab = s.slab := rfl
@[simp] theorem clearPoison_kv (a n : Nat) : (clearPoison s a n).kv = s.kv := rfl
@[simp] theorem clearPoison_tiers (a n : Nat) : (clearPoison s a n).tiers = s.tiers := rfl
@[simp] theorem clearPoison_hod (a n : Nat) : (clearPoison s a n).hod = s.hod := rfl
@[simp] theorem clearPoison_plumb (a n : Nat) : (clearPoison s a n).plumb = s.plumb := rfl
@[simp] theorem clearPoison_time (a n : Nat) : (clearPoison s a n).time = s.time := rfl
@[simp] theorem clearPoison_uzone (a n : Nat) : (clearPoison s a n).uzone = s.uzone := rfl
@[simp] theorem clearPoison_mortar (a n : Nat) : (clearPoison s a n).mortar = s.mortar := rfl
@[simp] theorem clearPoison_quoin (a n : Nat) : (clearPoison s a n).quoin = s.quoin := rfl
@[simp] theorem clearPoison_lintel (a n : Nat) : (clearPoison s a n).lintel = s.lintel := rfl
@[simp] theorem clearPoison_power (a n : Nat) : (clearPoison s a n).power = s.power := rfl
@[simp] theorem clearPoison_holdup (a n : Nat) : (clearPoison s a n).holdup = s.holdup := rfl
@[simp] theorem clearPoison_thermal (a n : Nat) : (clearPoison s a n).thermal = s.thermal := rfl
@[simp] theorem clearPoison_clock (a n : Nat) : (clearPoison s a n).clock = s.clock := rfl
@[simp] theorem clearPoison_hw (a n : Nat) :
    (clearPoison s a n).hw = { s.hw with
      poisoned := s.hw.poisoned.filter fun l => !(decide (a ≤ l) && decide (l + 64 ≤ a + n)) } := rfl
@[simp] theorem clearPoison_pins (a n : Nat) : (clearPoison s a n).pins = s.pins := rfl
@[simp] theorem clearPoison_drawn (a n : Nat) : (clearPoison s a n).drawn = s.drawn := rfl
@[simp] theorem clearPoison_lastRead (a n : Nat) : (clearPoison s a n).lastRead = s.lastRead := rfl

/-! ### forgetReq -/

@[simp] theorem forgetReq_pending (tag : Nat) : (forgetReq s tag).pending = s.pending := rfl
@[simp] theorem forgetReq_mem (tag : Nat) : (forgetReq s tag).mem = s.mem := rfl
@[simp] theorem forgetReq_sched (tag : Nat) : (forgetReq s tag).sched = s.sched := rfl
@[simp] theorem forgetReq_epochs (tag : Nat) : (forgetReq s tag).epochs = s.epochs := rfl
@[simp] theorem forgetReq_index (tag : Nat) : (forgetReq s tag).index = s.index := rfl
@[simp] theorem forgetReq_bricks (tag : Nat) : (forgetReq s tag).bricks = s.bricks := rfl
@[simp] theorem forgetReq_walks (tag : Nat) : (forgetReq s tag).walks = s.walks := rfl
@[simp] theorem forgetReq_nextWalk (tag : Nat) : (forgetReq s tag).nextWalk = s.nextWalk := rfl
@[simp] theorem forgetReq_slab (tag : Nat) : (forgetReq s tag).slab = s.slab := rfl
@[simp] theorem forgetReq_kv (tag : Nat) : (forgetReq s tag).kv = s.kv := rfl
@[simp] theorem forgetReq_tiers (tag : Nat) : (forgetReq s tag).tiers = s.tiers := rfl
@[simp] theorem forgetReq_hod (tag : Nat) : (forgetReq s tag).hod = s.hod := rfl
@[simp] theorem forgetReq_plumb (tag : Nat) : (forgetReq s tag).plumb = s.plumb := rfl
@[simp] theorem forgetReq_time (tag : Nat) : (forgetReq s tag).time = s.time := rfl
@[simp] theorem forgetReq_uzone (tag : Nat) : (forgetReq s tag).uzone = s.uzone := rfl
@[simp] theorem forgetReq_mortar (tag : Nat) :
    (forgetReq s tag).mortar = { s.mortar with
      reqs := s.mortar.reqs.filter (·.tag != tag) } := rfl
@[simp] theorem forgetReq_quoin (tag : Nat) : (forgetReq s tag).quoin = s.quoin := rfl
@[simp] theorem forgetReq_lintel (tag : Nat) : (forgetReq s tag).lintel = s.lintel := rfl
@[simp] theorem forgetReq_power (tag : Nat) : (forgetReq s tag).power = s.power := rfl
@[simp] theorem forgetReq_holdup (tag : Nat) : (forgetReq s tag).holdup = s.holdup := rfl
@[simp] theorem forgetReq_thermal (tag : Nat) : (forgetReq s tag).thermal = s.thermal := rfl
@[simp] theorem forgetReq_clock (tag : Nat) : (forgetReq s tag).clock = s.clock := rfl
@[simp] theorem forgetReq_hw (tag : Nat) : (forgetReq s tag).hw = s.hw := rfl
@[simp] theorem forgetReq_pins (tag : Nat) : (forgetReq s tag).pins = s.pins := rfl
@[simp] theorem forgetReq_drawn (tag : Nat) : (forgetReq s tag).drawn = s.drawn := rfl
@[simp] theorem forgetReq_lastRead (tag : Nat) : (forgetReq s tag).lastRead = s.lastRead := rfl

/-! ### answer -/

@[simp] theorem answer_pending (m : Msg) : (answer s m).pending = s.pending := rfl
@[simp] theorem answer_mem (m : Msg) : (answer s m).mem = s.mem := rfl
@[simp] theorem answer_sched (m : Msg) : (answer s m).sched = s.sched := rfl
@[simp] theorem answer_epochs (m : Msg) : (answer s m).epochs = s.epochs := rfl
@[simp] theorem answer_index (m : Msg) : (answer s m).index = s.index := rfl
@[simp] theorem answer_bricks (m : Msg) : (answer s m).bricks = s.bricks := rfl
@[simp] theorem answer_walks (m : Msg) : (answer s m).walks = s.walks := rfl
@[simp] theorem answer_nextWalk (m : Msg) : (answer s m).nextWalk = s.nextWalk := rfl
@[simp] theorem answer_slab (m : Msg) : (answer s m).slab = s.slab := rfl
@[simp] theorem answer_kv (m : Msg) : (answer s m).kv = s.kv := rfl
@[simp] theorem answer_tiers (m : Msg) : (answer s m).tiers = s.tiers := rfl
@[simp] theorem answer_hod (m : Msg) : (answer s m).hod = s.hod := rfl
@[simp] theorem answer_plumb (m : Msg) : (answer s m).plumb = s.plumb := rfl
@[simp] theorem answer_time (m : Msg) : (answer s m).time = s.time := rfl
@[simp] theorem answer_uzone (m : Msg) :
    (answer s m).uzone = uzSend s.uzone [m] := rfl
@[simp] theorem answer_mortar (m : Msg) : (answer s m).mortar = s.mortar := rfl
@[simp] theorem answer_quoin (m : Msg) : (answer s m).quoin = s.quoin := rfl
@[simp] theorem answer_lintel (m : Msg) : (answer s m).lintel = s.lintel := rfl
@[simp] theorem answer_power (m : Msg) : (answer s m).power = s.power := rfl
@[simp] theorem answer_holdup (m : Msg) : (answer s m).holdup = s.holdup := rfl
@[simp] theorem answer_thermal (m : Msg) : (answer s m).thermal = s.thermal := rfl
@[simp] theorem answer_clock (m : Msg) : (answer s m).clock = s.clock := rfl
@[simp] theorem answer_hw (m : Msg) : (answer s m).hw = s.hw := rfl
@[simp] theorem answer_pins (m : Msg) : (answer s m).pins = s.pins := rfl
@[simp] theorem answer_drawn (m : Msg) : (answer s m).drawn = s.drawn := rfl
@[simp] theorem answer_lastRead (m : Msg) : (answer s m).lastRead = s.lastRead := rfl

/-! ### awoken -/

@[simp] theorem awoken_pending : (awoken s).pending = s.pending := rfl
@[simp] theorem awoken_mem : (awoken s).mem = s.mem := rfl
@[simp] theorem awoken_sched : (awoken s).sched = s.sched := rfl
@[simp] theorem awoken_epochs : (awoken s).epochs = s.epochs := rfl
@[simp] theorem awoken_index : (awoken s).index = s.index := rfl
@[simp] theorem awoken_bricks : (awoken s).bricks = s.bricks := rfl
@[simp] theorem awoken_walks : (awoken s).walks = s.walks := rfl
@[simp] theorem awoken_nextWalk : (awoken s).nextWalk = s.nextWalk := rfl
@[simp] theorem awoken_slab : (awoken s).slab = s.slab := rfl
@[simp] theorem awoken_kv : (awoken s).kv = s.kv := rfl
@[simp] theorem awoken_tiers : (awoken s).tiers = s.tiers := rfl
@[simp] theorem awoken_hod : (awoken s).hod = s.hod := rfl
@[simp] theorem awoken_plumb : (awoken s).plumb = s.plumb := rfl
@[simp] theorem awoken_time : (awoken s).time = s.time := rfl
@[simp] theorem awoken_uzone :
    (awoken s).uzone = pumpUzone { s.uzone with link := linkWake s.uzone.link } := rfl
@[simp] theorem awoken_mortar : (awoken s).mortar = s.mortar := rfl
@[simp] theorem awoken_quoin : (awoken s).quoin = s.quoin := rfl
@[simp] theorem awoken_lintel : (awoken s).lintel = s.lintel := rfl
@[simp] theorem awoken_power : (awoken s).power = s.power := rfl
@[simp] theorem awoken_holdup : (awoken s).holdup = s.holdup := rfl
@[simp] theorem awoken_thermal : (awoken s).thermal = s.thermal := rfl
@[simp] theorem awoken_clock : (awoken s).clock = s.clock := rfl
@[simp] theorem awoken_hw : (awoken s).hw = s.hw := rfl
@[simp] theorem awoken_pins : (awoken s).pins = s.pins := rfl
@[simp] theorem awoken_drawn : (awoken s).drawn = s.drawn := rfl
@[simp] theorem awoken_lastRead : (awoken s).lastRead = s.lastRead := rfl

end Sys2Proof.Machine
end

