-- ==== Sys2Proof/Laws/Ops.lean ====
section
/-!
SUPPORT. What the shared operations can do, said once: the dispatch of a queue command, range locks,
mailbox requests, completions, result slots and errors. Proofs cite these in place of unfolding them.
-/

namespace Sys2Proof.Machine

/-! ### The dispatch of a queue command (R351, R353) -/

section dispatch

variable {s : State} {q : QueueId} {mine : Cmd → Bool} {pre : State → Cmd → Option Err}
  {ranges : State → Cmd → List Range} {check : State → Cmd → Option Err}
  {slots : State → Cmd → List (Nat × Nat)} {act : State → Cmd → State} {c : Cmd}

/-- A command that is dispatched begins: it acts again, or its checks are made. -/
theorem runCommand_taken (ht : Taken s q mine c) :
    runCommand s q.toNat mine pre ranges check slots act =
      if c.checked then act (setPhase s c.id .running) { c with phase := .running }
      else match firstErr [entryErr s c, pre s c] with
        | some e => fail s c e
        | none => touching s c 5 (ranges s c) fun s => match check s c with
          | some e => fail s c e
          | none => takeSlots s c (slots s c) act := by
  obtain ⟨h1, h2, h3⟩ := ht
  have h : (if c.retry then resumeFetch s q.toNat else s) = s := by
    split
    · exact h3 (by assumption)
    · rfl
  simp only [runCommand, h1, h2, h, Bool.false_eq_true, if_false] <;> rfl

/-- A command that is dispatched and passes its checks acts, with its slots BUSY. -/
theorem runCommand_passes (ht : Taken s q mine c) (hp : Passes s pre ranges check slots c) :
    runCommand s q.toNat mine pre ranges check slots act = act (begun s c (slots s c)) (ran c) := by
  obtain ⟨a, b, d, e, f, g, h⟩ := hp
  rw [runCommand_taken ht]
  simp [a, b, d, firstErr, touching, e, f, takeSlots, g, h, begun, ran, busySlots]

/-- A command that has passed its checks before acts at once. -/
theorem runCommand_again (ht : Taken s q mine c) (hc : c.checked = true) :
    runCommand s q.toNat mine pre ranges check slots act =
      act (setPhase s c.id .running) { c with phase := .running } := by
  rw [runCommand_taken ht]; simp [hc]

/-- A row that finds no command of its own leaves the state as it is. -/
theorem runCommand_none {n : Nat} (h : pick s n mine = none) :
    runCommand s n mine pre ranges check slots act = s := by simp [runCommand, h]

/-- Out of Serving, or with a domain not ready, a command only wakes the module. -/
theorem runCommand_asleep {n : Nat} (h : pick s n mine = some c) (hn : notServing s = true) :
    runCommand s n mine pre ranges check slots act =
      { s with power := { s.power with wake := s.power.wake || awayFromServing s } } := by
  simp [runCommand, h, hn]

/-- A command whose entry or own structure fails its check completes with that error. -/
theorem runCommand_entryErr {e : Err} (ht : Taken s q mine c) (hc : c.checked = false)
    (he : firstErr [entryErr s c, pre s c] = some e) :
    runCommand s q.toNat mine pre ranges check slots act = fail s c e := by
  rw [runCommand_taken ht]; simp [hc, he]

/-- A command whose structures read well and fail their check completes with that error. -/
theorem runCommand_checkErr {e : Err} (ht : Taken s q mine c) (hc : c.checked = false)
    (he : firstErr [entryErr s c, pre s c] = none) (hr : reachRanges s c.loaded (ranges s c) = none)
    (hk : check s c = some e) :
    runCommand s q.toNat mine pre ranges check slots act = fail s c e := by
  rw [runCommand_taken ht]; simp [hc, he, touching, hr, hk]

/-- Everything that the step of a queue command can come to: with the copy that RETRY dispatches, its queue
fetches again first. -/
theorem runCommand_cases (n : Nat) :
    let r := runCommand s n mine pre ranges check slots act
    (pick s n mine = none ∧ r = s) ∨
    (∃ c, pick s n mine = some c ∧
      ((notServing s = true ∧
          r = { s with power := { s.power with wake := s.power.wake || awayFromServing s } }) ∨
       ∃ t, (t = if c.retry then resumeFetch s n else s) ∧
        ((c.checked = true ∧ r = act (setPhase t c.id .running) { c with phase := .running }) ∨
         (∃ e, r = fail t c e) ∨
         (∃ u g x, reachRanges t c.loaded (ranges t c) = some (u, g, x) ∧ r = blockOn t c u g 5 x) ∨
         r = awaitSlots t c (slotMissing t c (slots t c)) ∨
         r = act (begun t c (slots t c)) (ran c)))) := by
  intro r
  cases hp : pick s n mine with
  | none => exact .inl ⟨rfl, runCommand_none hp⟩
  | some c =>
    refine .inr ⟨c, rfl, ?_⟩
    simp only [r, runCommand, hp]
    split
    · exact .inl ⟨by assumption, rfl⟩
    · refine .inr ⟨_, rfl, ?_⟩
      generalize (if c.retry = true then resumeFetch s n else s) = t
      split
      · exact .inl ⟨by assumption, rfl⟩
      · split
        · exact .inr (.inl ⟨_, rfl⟩)
        · simp only [touching]
          split
          · rename_i u g x h
            exact .inr (.inr (.inl ⟨u, g, x, h, rfl⟩))
          · split
            · exact .inr (.inl ⟨_, rfl⟩)
            · simp only [takeSlots]
              split
              · split
                · exact .inr (.inl ⟨_, rfl⟩)
                · exact .inr (.inr (.inr (.inl rfl)))
              · split
                · exact .inr (.inl ⟨_, rfl⟩)
                · exact .inr (.inr (.inr (.inr rfl)))

/-- Ranges with nothing in the way are touched at once. -/
theorem touching_clear {stop : Nat} {rs : List Range} {f : State → State}
    (h : reachRanges s c.loaded rs = none) : touching s c stop rs f = f s := by
  simp [touching, h]

end dispatch

/-! ### Range locks (R173, R174) -/

/-- A command that finds room and no overlap holds its entry at once. -/
theorem locked_once {s : State} {c : Cmd} {l : Lock} {act : State → State} (hl : l.cmd = c.id)
    (h : LockAtOnce s { l with held := true }) :
    locked s c l act = act (withLock s { l with held := true }) := by
  obtain ⟨h1, h2, h3, h4⟩ := h
  rw [show lockOf s ({ l with held := true } : Lock).cmd = lockOf s c.id by rw [← hl]] at h1
  have h4 : s.index.locks.any (fun x => lockOverlap x l) = false := h4
  have h5 : s.index.locks.any (fun x => lockOverlap x l && !yields s x c.id) = false := by
    rw [List.any_eq_false] at h4 ⊢
    intro x hx
    simp [h4 x hx]
  simp [locked, h1, h2, h3, h5, withLock]

/-- A command that holds its entry acts. -/
theorem locked_held {s : State} {c : Cmd} {l x : Lock} {act : State → State}
    (h : lockOf s c.id = some x) (hx : x.held = true) : locked s c l act = act s := by
  simp [locked, h, hx]

/-- A command over vector IDs that holds its entry at once acts on its collection. -/
theorem onIds_once {s : State} {c : Cmd} {k : Coll} {ids : List Nat}
    {act : State → Cmd → Coll → State} (hb : c.born = none) (hk : k.id = entColl c)
    (hf : findColl s k.id = some k) (hl : LockAtOnce s (idLock c ids)) :
    onIds s c ids act = act (holding s c k (idLock c ids)) { c with born := some k.born } k := by
  simp only [onIds]
  rw [← hk, hf]
  simp only [hb]
  have he : idLock c ids = ⟨c.id, false, k.id, (idSpan ids).1, (idSpan ids).2, true⟩ := by
    simp [idLock, hk]
  have ho : entColl { c with born := some (none.getD k.born) } = k.id := hk.symm
  rw [he] at hl
  simp only [ho]
  rw [locked_once (by rfl) hl]
  have hg : ∀ l, findColl (withLock (updCmd s c.id fun x => { x with born := some k.born }) l) k.id =
      some k := fun _ => hf
  simp only [Option.getD_none, hg, beq_self_eq_true, if_true]
  simp [holding, withLock, he]

/-! ### Mailbox requests (R485, R487) -/

/-- A request that its path brings is taken and acts. -/
theorem mailRun_requested {s : State} {r : MailReq} {op : Nat} {req : List Byte} {b any : Bool}
    {act : State → List Byte → State} (h : Requested s r op req b) :
    mailRun s r op any act = act (mailStart s b req) req := by
  obtain ⟨h1, h2, h3 | h3⟩ := h
  · obtain ⟨rfl, rfl, h4, rfl⟩ := h3
    simp [mailRun, h1, h4, h2]
  · obtain ⟨rfl, rfl, h4, h5⟩ := h3
    simp [mailRun, h1, smbusMatches, h2, h4, h5]

/-! ### Writes at names and by the agents (R419, R424, R425, R454)

They change memory with the poison of its lines, and what travels over Uzone and Mortar. -/

/-- Beside memory, its poisoned lines, Uzone and Mortar, `t` is as `s` is. -/
def Written (s t : State) : Prop :=
  t = { s with mem := t.mem, uzone := t.uzone, mortar := t.mortar
               hw := { s.hw with poisoned := t.hw.poisoned } }

theorem Written.refl (s : State) : Written s s := rfl

theorem Written.trans {s t u : State} (h1 : Written s t) (h2 : Written t u) : Written s u := by
  unfold Written at *
  rw [h2, h1]

theorem Written.foldl {α : Type} {f : State → α → State} (h : ∀ s x, Written s (f s x)) (l : List α)
    (s : State) : Written s (l.foldl f s) := by
  induction l generalizing s with
  | nil => exact .refl s
  | cons x l ih => exact (h s x).trans (ih _)

theorem written_mortarRequest (s : State) (op d : Nat) (o : Option Owner) (u a : Nat) (p : List Byte) :
    Written s (mortarRequest s op d o u a p) := rfl

theorem written_homeWrite (o : Option Owner) (s : State) (h : Home) (a : Nat) (bs : List Byte) :
    Written s (homeWrite o s h a bs) := by
  cases h with
  | neighbour p => exact .foldl (fun s x => written_mortarRequest s _ _ _ _ _ _) _ s
  | _ => rfl

theorem written_unitWrite (o : Option Owner) (s : State) (a : Nat) (bs : List Byte) :
    Written s (unitWrite o s a bs) :=
  Written.trans (by exact rfl) (written_homeWrite o { s with mem := writeBytes s.mem a bs } _ a bs)

theorem written_deviceWrite (s : State) (o : Option Owner) (a : Nat) (bs : List Byte) :
    Written s (deviceWrite s o a bs) :=
  Written.trans (t := clearPoison s a bs.length) rfl
    (.foldl (fun s _ => written_unitWrite o s _ _) _ _)

theorem written_outStep (s : State) (o : Out) : Written s (outStep s o).1 := by
  unfold outStep
  split
  · exact .refl s
  · split
    · rfl
    · split <;> rfl
    · dsimp only
      split
      · rfl
      · split <;> rfl

theorem written_drainItems (os : List Out) (stuck : List (Bool × Nat)) (s : State) :
    Written s (drainItems s os stuck) := by
  induction os generalizing s stuck with
  | nil => exact .refl s
  | cons o os ih =>
    have h : ∀ x : State × Bool, Written s x.1 → Written s
        (if x.2 then drainItems x.1 os stuck
          else drainItems { x.1 with uzone := { x.1.uzone with out := x.1.uzone.out ++ [o] } } os
            (o.key :: stuck)) := by
      intro x hx
      split
      · exact hx.trans (ih _ _)
      · exact hx.trans (Written.trans (by exact rfl) (ih _ _))
    refine h _ ?_
    split
    · exact .refl s
    · exact written_outStep s o

theorem written_drainOut (s : State) : Written s (drainOut s) :=
  Written.trans (by exact rfl) (written_drainItems _ _ _)

theorem written_emit (s : State) (os : List Out) : Written s (emit s os) :=
  Written.trans (by exact rfl) (written_drainOut _)

/-! ### Completions, result slots and errors (R357, R358, R364, R370)

They change the scheduler, memory, Uzone, range locks, sequence lengths and the waiters of tier faults; and
where a pinned command ends, the entries of the change table that the release epoch then passes (R148). -/

/-- What a completion, a result slot or an error leaves as it is. -/
structure Completes (s t : State) : Prop where
  same : t = { s with sched := t.sched, mem := t.mem, index := t.index, kv := t.kv, tiers := t.tiers
                      uzone := t.uzone, mortar := t.mortar, hw := t.hw }
  index : t.index = { s.index with colls := t.index.colls, changes := t.index.changes
                                   patches := t.index.patches, locks := t.index.locks }
  kv : t.kv = { s.kv with seqs := t.kv.seqs }
  tiers : t.tiers = { s.tiers with faults := t.tiers.faults, migrations := t.tiers.migrations }
  hw : t.hw = { s.hw with poisoned := t.hw.poisoned }

theorem Completes.refl (s : State) : Completes s s := ⟨rfl, rfl, rfl, rfl, rfl⟩

theorem Completes.trans {s t u : State} (h1 : Completes s t) (h2 : Completes t u) : Completes s u :=
  ⟨by rw [h2.same, h1.same], by rw [h2.index, h1.index], by rw [h2.kv, h1.kv],
    by rw [h2.tiers, h1.tiers], by rw [h2.hw, h1.hw]⟩

theorem Completes.foldl {α : Type} {f : State → α → State} (h : ∀ s x, Completes s (f s x)) (l : List α)
    (s : State) : Completes s (l.foldl f s) := by
  induction l generalizing s with
  | nil => exact .refl s
  | cons x l ih => exact (h s x).trans (ih _)

theorem Written.completes {s t : State} (h : Written s t) : Completes s t := by
  unfold Written at h
  constructor <;> rw [h]

theorem completes_updCmd (s : State) (id : Nat) (f : Cmd → Cmd) : Completes s (updCmd s id f) :=
  ⟨rfl, rfl, rfl, rfl, rfl⟩
theorem completes_setPhase (s : State) (id : Nat) (p : Phase) : Completes s (setPhase s id p) :=
  ⟨rfl, rfl, rfl, rfl, rfl⟩
theorem completes_updCq (s : State) (q : Nat) (f : ComplQ → ComplQ) : Completes s (updCq s q f) :=
  ⟨rfl, rfl, rfl, rfl, rfl⟩
theorem completes_updSq (s : State) (q : Nat) (f : SubQ → SubQ) : Completes s (updSq s q f) :=
  ⟨rfl, rfl, rfl, rfl, rfl⟩
theorem completes_updColl (s : State) (id : Nat) (f : Coll → Coll) : Completes s (updColl s id f) :=
  ⟨rfl, rfl, rfl, rfl, rfl⟩
theorem completes_deviceWrite (s : State) (o : Option Owner) (a : Nat) (bs : List Byte) :
    Completes s (deviceWrite s o a bs) := (written_deviceWrite s o a bs).completes

theorem completes_putCode (s : State) (coll slot code : Nat) : Completes s (putCode s coll slot code) := by
  unfold putCode
  split
  · exact .refl s
  · unfold writeCode
    split
    · exact completes_updColl _ _ _
    · exact (completes_updColl _ _ _).trans (completes_deviceWrite _ _ _ _)

theorem completes_freeSlot (s : State) (coll slot : Nat) : Completes s (freeSlot s coll slot) := by
  unfold freeSlot
  split
  · exact .refl s
  · dsimp only
    refine Completes.trans ?_ (completes_putCode _ _ _ _)
    have h : ∀ (l : List ScafRec) (g : ScafRec → Nat) (k : ScafRec → List Byte) (t : State),
        Completes s t → Completes s (l.foldl (fun s r => deviceWrite s none (g r) (k r)) t) :=
      fun l g k t ht => ht.trans (.foldl (fun _ _ => completes_deviceWrite _ _ _ _) l t)
    split
    · refine (h _ _ _ _ ?_).trans (completes_deviceWrite _ _ _ _)
      exact ⟨rfl, rfl, rfl, rfl, rfl⟩
    · refine h _ _ _ _ ?_
      exact ⟨rfl, rfl, rfl, rfl, rfl⟩

theorem completes_retire (s : State) : Completes s (retire s) := by
  unfold retire
  dsimp only
  refine Completes.trans (Completes.foldl (fun s e => ?_) _ s) ⟨rfl, rfl, rfl, rfl, rfl⟩
  split
  · exact completes_freeSlot _ _ _
  · exact completes_putCode _ _ _ _

theorem completes_unpinned (s : State) (pin : Option Nat) : Completes s (unpinned s pin) := by
  unfold unpinned
  split
  · exact completes_retire s
  · exact .refl s

theorem completes_writeCompletion (s : State) (q : ComplQ) (c : Completion) :
    Completes s (writeCompletion s q c) := by
  unfold writeCompletion
  refine Completes.trans ?_ (written_emit _ _).completes
  refine Completes.trans ?_ (completes_unpinned _ _)
  refine ⟨rfl, rfl, rfl, rfl, rfl⟩

theorem completes_slotWrite (s : State) (id a : Nat) (bs : List Byte) : Completes s (slotWrite s id a bs) :=
  (written_emit s _).completes
theorem completes_slotBusy (s : State) (id a : Nat) : Completes s (slotBusy s id a) :=
  (completes_slotWrite _ _ _ _).trans (completes_updCmd _ _ _)
theorem completes_slotPut (s : State) (id a st : Nat) (p : List Byte) (h : Nat) :
    Completes s (slotPut s id a st p h) :=
  ((completes_slotWrite _ _ _ _).trans (written_emit _ _).completes).trans (completes_updCmd _ _ _)
theorem completes_recordError (s : State) (c : Cmd) (e : Err) : Completes s (recordError s c e) :=
  ⟨rfl, rfl, rfl, rfl, rfl⟩

theorem completes_post1 (s : State) (c : Completion) : Completes s (post1 s c) := by
  unfold post1
  split
  · exact ⟨rfl, rfl, rfl, rfl, rfl⟩
  · split
    · exact ⟨rfl, rfl, rfl, rfl, rfl⟩
    · split
      · exact completes_setPhase _ _ _
      · split
        · exact completes_writeCompletion _ _ _
        · exact (completes_updCq _ _ _).trans (completes_setPhase _ _ _)

theorem completes_settleDelete (s : State) (q : SubQ) : Completes s (settleDelete s q) := by
  unfold settleDelete
  split
  · exact .refl s
  · split
    · exact .refl s
    · dsimp only
      split
      · exact ⟨rfl, rfl, rfl, rfl, rfl⟩
      · refine Completes.trans ?_ (completes_post1 _ _)
        exact ⟨rfl, rfl, rfl, rfl, rfl⟩

theorem completes_settleDeletes (s : State) : Completes s (settleDeletes s) :=
  .foldl completes_settleDelete _ s

theorem completes_post (s : State) (c : Completion) : Completes s (post s c) :=
  (completes_post1 s c).trans (completes_settleDeletes _)

theorem completes_flushHeld (n q : Nat) (s : State) : Completes s (flushHeld n q s) := by
  induction n generalizing s with
  | zero => exact .refl s
  | succ n ih =>
    unfold flushHeld
    split
    · exact .refl s
    · split
      · exact .refl s
      · split
        · exact ((completes_updCq s q _).trans (completes_writeCompletion _ _ _)).trans (ih _)
        · exact .refl s

theorem completes_flushAllHeld (s : State) : Completes s (flushAllHeld s) :=
  Completes.trans (.foldl (fun _ _ => completes_flushHeld _ _ _) _ s) (completes_settleDeletes _)

theorem completes_failSlots (s : State) (c : Cmd) (st : Nat) : Completes s (failSlots s c st) :=
  .foldl (fun _ _ => completes_slotPut _ _ _ _ _ _) _ s

theorem completes_busySlots (s : State) (c : Cmd) (l : List (Nat × Nat)) : Completes s (busySlots s c l) :=
  .foldl (fun _ _ => completes_slotBusy _ _ _) _ s

theorem completes_begun (s : State) (c : Cmd) (l : List (Nat × Nat)) : Completes s (begun s c l) :=
  (completes_updCmd s c.id _).trans (completes_busySlots _ _ _)

theorem completes_endFetched (s : State) (q st : Nat) : Completes s (endFetched s q st) :=
  .foldl (fun _ _ => completes_post _ _) _ s

theorem completes_succeed (s : State) (c : Cmd) (st fl i a b : Nat) :
    Completes s (succeed s c st fl i a b) := by
  unfold succeed
  split
  · exact completes_post _ _
  · exact .refl s

theorem completes_fail (s : State) (c : Cmd) (e : Err) : Completes s (fail s c e) := by
  have h : Completes s (post (recordError (failSlots s ((findCmd s c.id).getD c) e.status) c e)
      (completionOf c e.status 0 e.info32 e.a e.b)) :=
    (completes_failSlots s _ _).trans (Completes.trans (completes_recordError _ _ _) (completes_post _ _))
  unfold fail
  split
  · exact .refl s
  · dsimp only
    split
    · exact h
    · exact h.trans (completes_endFetched _ _ _)

theorem completes_slotReady (s : State) (id a st : Nat) (p : List Byte) (h : Nat) :
    Completes s (slotReady s id a st p h) := by
  unfold slotReady
  split
  · split
    · exact completes_fail _ _ _
    · exact .refl s
  · exact completes_slotPut _ _ _ _ _ _

theorem completes_settleWriting (s : State) (id : Nat) : Completes s (settleWriting s id) := by
  unfold settleWriting
  split
  · exact .refl s
  · split
    · split
      · exact .refl s
      · exact completes_post _ _
    · exact .refl s

theorem completes_resumeFetch (s : State) (q : Nat) : Completes s (resumeFetch s q) := by
  unfold resumeFetch
  split
  · exact .refl s
  · split
    · exact .refl s
    · dsimp only
      split
      · exact (completes_updSq _ _ _).trans (completes_succeed _ _ _ _ _ _ _)
      · exact completes_updSq _ _ _

theorem completes_sealed (s : State) (c : Cmd) (i a b : Nat) : Completes s (sealed s c i a b) := by
  unfold sealed
  dsimp only
  split
  · exact completes_setPhase _ _ _
  · exact completes_post _ _

@[simp] theorem post_pending (s : State) (c : Completion) :
    (post s c).pending = s.pending := by rw [(completes_post s c).same]
@[simp] theorem post_epochs (s : State) (c : Completion) :
    (post s c).epochs = s.epochs := by rw [(completes_post s c).same]
@[simp] theorem post_bricks (s : State) (c : Completion) :
    (post s c).bricks = s.bricks := by rw [(completes_post s c).same]
@[simp] theorem post_walks (s : State) (c : Completion) :
    (post s c).walks = s.walks := by rw [(completes_post s c).same]
@[simp] theorem post_nextWalk (s : State) (c : Completion) :
    (post s c).nextWalk = s.nextWalk := by rw [(completes_post s c).same]
@[simp] theorem post_slab (s : State) (c : Completion) :
    (post s c).slab = s.slab := by rw [(completes_post s c).same]
@[simp] theorem post_hod (s : State) (c : Completion) :
    (post s c).hod = s.hod := by rw [(completes_post s c).same]
@[simp] theorem post_plumb (s : State) (c : Completion) :
    (post s c).plumb = s.plumb := by rw [(completes_post s c).same]
@[simp] theorem post_time (s : State) (c : Completion) :
    (post s c).time = s.time := by rw [(completes_post s c).same]
@[simp] theorem post_quoin (s : State) (c : Completion) :
    (post s c).quoin = s.quoin := by rw [(completes_post s c).same]
@[simp] theorem post_lintel (s : State) (c : Completion) :
    (post s c).lintel = s.lintel := by rw [(completes_post s c).same]
@[simp] theorem post_power (s : State) (c : Completion) :
    (post s c).power = s.power := by rw [(completes_post s c).same]
@[simp] theorem post_holdup (s : State) (c : Completion) :
    (post s c).holdup = s.holdup := by rw [(completes_post s c).same]
@[simp] theorem post_thermal (s : State) (c : Completion) :
    (post s c).thermal = s.thermal := by rw [(completes_post s c).same]
@[simp] theorem post_clock (s : State) (c : Completion) :
    (post s c).clock = s.clock := by rw [(completes_post s c).same]
@[simp] theorem post_pins (s : State) (c : Completion) :
    (post s c).pins = s.pins := by rw [(completes_post s c).same]
@[simp] theorem post_drawn (s : State) (c : Completion) :
    (post s c).drawn = s.drawn := by rw [(completes_post s c).same]
@[simp] theorem post_lastRead (s : State) (c : Completion) :
    (post s c).lastRead = s.lastRead := by rw [(completes_post s c).same]

@[simp] theorem fail_pending (s : State) (c : Cmd) (e : Err) :
    (fail s c e).pending = s.pending := by rw [(completes_fail s c e).same]
@[simp] theorem fail_epochs (s : State) (c : Cmd) (e : Err) :
    (fail s c e).epochs = s.epochs := by rw [(completes_fail s c e).same]
@[simp] theorem fail_bricks (s : State) (c : Cmd) (e : Err) :
    (fail s c e).bricks = s.bricks := by rw [(completes_fail s c e).same]
@[simp] theorem fail_walks (s : State) (c : Cmd) (e : Err) :
    (fail s c e).walks = s.walks := by rw [(completes_fail s c e).same]
@[simp] theorem fail_nextWalk (s : State) (c : Cmd) (e : Err) :
    (fail s c e).nextWalk = s.nextWalk := by rw [(completes_fail s c e).same]
@[simp] theorem fail_slab (s : State) (c : Cmd) (e : Err) :
    (fail s c e).slab = s.slab := by rw [(completes_fail s c e).same]
@[simp] theorem fail_hod (s : State) (c : Cmd) (e : Err) :
    (fail s c e).hod = s.hod := by rw [(completes_fail s c e).same]
@[simp] theorem fail_plumb (s : State) (c : Cmd) (e : Err) :
    (fail s c e).plumb = s.plumb := by rw [(completes_fail s c e).same]
@[simp] theorem fail_time (s : State) (c : Cmd) (e : Err) :
    (fail s c e).time = s.time := by rw [(completes_fail s c e).same]
@[simp] theorem fail_quoin (s : State) (c : Cmd) (e : Err) :
    (fail s c e).quoin = s.quoin := by rw [(completes_fail s c e).same]
@[simp] theorem fail_lintel (s : State) (c : Cmd) (e : Err) :
    (fail s c e).lintel = s.lintel := by rw [(completes_fail s c e).same]
@[simp] theorem fail_power (s : State) (c : Cmd) (e : Err) :
    (fail s c e).power = s.power := by rw [(completes_fail s c e).same]
@[simp] theorem fail_holdup (s : State) (c : Cmd) (e : Err) :
    (fail s c e).holdup = s.holdup := by rw [(completes_fail s c e).same]
@[simp] theorem fail_thermal (s : State) (c : Cmd) (e : Err) :
    (fail s c e).thermal = s.thermal := by rw [(completes_fail s c e).same]
@[simp] theorem fail_clock (s : State) (c : Cmd) (e : Err) :
    (fail s c e).clock = s.clock := by rw [(completes_fail s c e).same]
@[simp] theorem fail_pins (s : State) (c : Cmd) (e : Err) :
    (fail s c e).pins = s.pins := by rw [(completes_fail s c e).same]
@[simp] theorem fail_drawn (s : State) (c : Cmd) (e : Err) :
    (fail s c e).drawn = s.drawn := by rw [(completes_fail s c e).same]
@[simp] theorem fail_lastRead (s : State) (c : Cmd) (e : Err) :
    (fail s c e).lastRead = s.lastRead := by rw [(completes_fail s c e).same]

@[simp] theorem succeed_pending (s : State) (c : Cmd) (st fl i a b : Nat) :
    (succeed s c st fl i a b).pending = s.pending := by rw [(completes_succeed s c st fl i a b).same]
@[simp] theorem succeed_epochs (s : State) (c : Cmd) (st fl i a b : Nat) :
    (succeed s c st fl i a b).epochs = s.epochs := by rw [(completes_succeed s c st fl i a b).same]
@[simp] theorem succeed_bricks (s : State) (c : Cmd) (st fl i a b : Nat) :
    (succeed s c st fl i a b).bricks = s.bricks := by rw [(completes_succeed s c st fl i a b).same]
@[simp] theorem succeed_walks (s : State) (c : Cmd) (st fl i a b : Nat) :
    (succeed s c st fl i a b).walks = s.walks := by rw [(completes_succeed s c st fl i a b).same]
@[simp] theorem succeed_nextWalk (s : State) (c : Cmd) (st fl i a b : Nat) :
    (succeed s c st fl i a b).nextWalk = s.nextWalk := by rw [(completes_succeed s c st fl i a b).same]
@[simp] theorem succeed_slab (s : State) (c : Cmd) (st fl i a b : Nat) :
    (succeed s c st fl i a b).slab = s.slab := by rw [(completes_succeed s c st fl i a b).same]
@[simp] theorem succeed_hod (s : State) (c : Cmd) (st fl i a b : Nat) :
    (succeed s c st fl i a b).hod = s.hod := by rw [(completes_succeed s c st fl i a b).same]
@[simp] theorem succeed_plumb (s : State) (c : Cmd) (st fl i a b : Nat) :
    (succeed s c st fl i a b).plumb = s.plumb := by rw [(completes_succeed s c st fl i a b).same]
@[simp] theorem succeed_time (s : State) (c : Cmd) (st fl i a b : Nat) :
    (succeed s c st fl i a b).time = s.time := by rw [(completes_succeed s c st fl i a b).same]
@[simp] theorem succeed_quoin (s : State) (c : Cmd) (st fl i a b : Nat) :
    (succeed s c st fl i a b).quoin = s.quoin := by rw [(completes_succeed s c st fl i a b).same]
@[simp] theorem succeed_lintel (s : State) (c : Cmd) (st fl i a b : Nat) :
    (succeed s c st fl i a b).lintel = s.lintel := by rw [(completes_succeed s c st fl i a b).same]
@[simp] theorem succeed_power (s : State) (c : Cmd) (st fl i a b : Nat) :
    (succeed s c st fl i a b).power = s.power := by rw [(completes_succeed s c st fl i a b).same]
@[simp] theorem succeed_holdup (s : State) (c : Cmd) (st fl i a b : Nat) :
    (succeed s c st fl i a b).holdup = s.holdup := by rw [(completes_succeed s c st fl i a b).same]
@[simp] theorem succeed_thermal (s : State) (c : Cmd) (st fl i a b : Nat) :
    (succeed s c st fl i a b).thermal = s.thermal := by rw [(completes_succeed s c st fl i a b).same]
@[simp] theorem succeed_clock (s : State) (c : Cmd) (st fl i a b : Nat) :
    (succeed s c st fl i a b).clock = s.clock := by rw [(completes_succeed s c st fl i a b).same]
@[simp] theorem succeed_pins (s : State) (c : Cmd) (st fl i a b : Nat) :
    (succeed s c st fl i a b).pins = s.pins := by rw [(completes_succeed s c st fl i a b).same]
@[simp] theorem succeed_drawn (s : State) (c : Cmd) (st fl i a b : Nat) :
    (succeed s c st fl i a b).drawn = s.drawn := by rw [(completes_succeed s c st fl i a b).same]
@[simp] theorem succeed_lastRead (s : State) (c : Cmd) (st fl i a b : Nat) :
    (succeed s c st fl i a b).lastRead = s.lastRead := by rw [(completes_succeed s c st fl i a b).same]

/-! ### Memory stays canonical under the shared operations -/

/-- Written memory is canonical if it was. -/
def Canon (s t : State) : Prop := memWf s.mem = true → memWf t.mem = true

theorem Canon.trans {s t u : State} (h1 : Canon s t) (h2 : Canon t u) : Canon s u := fun h => h2 (h1 h)

/-- An operation that keeps memory canonical does so over a list. -/
theorem Canon.foldl {α : Type} {f : State → α → State} (h : ∀ s x, Canon s (f s x)) (l : List α)
    (s : State) : Canon s (l.foldl f s) := by
  induction l generalizing s with
  | nil => exact id
  | cons x l ih => exact (h s x).trans (ih _)

/-- Sending messages leaves memory as it is. -/
@[simp] theorem mortarRequest_mem (s : State) (op d : Nat) (o : Option Owner) (u a : Nat)
    (p : List Byte) : (mortarRequest s op d o u a p).mem = s.mem := rfl

@[simp] theorem homeWrite_mem (o : Option Owner) (s : State) (h : Home) (a : Nat) (bs : List Byte) :
    (homeWrite o s h a bs).mem = s.mem := by
  have g : ∀ {α : Type} (f : State → α → State), (∀ s x, (f s x).mem = s.mem) → ∀ (l : List α) s,
      (l.foldl f s).mem = s.mem := by
    intro α f hf l
    induction l with
    | nil => intro s; rfl
    | cons x l ih => intro s; exact (ih _).trans (hf s x)
  cases h with
  | neighbour p => exact g _ (fun s _ => mortarRequest_mem s _ _ _ _ _ _) _ s
  | _ => rfl

theorem canon_deviceWrite (s : State) (o : Option Owner) (a : Nat) (bs : List Byte) :
    Canon s (deviceWrite s o a bs) :=
  Canon.foldl (fun s u h => by
    simp only [unitWrite, homeWrite_mem]
    exact memWf_writeBytes _ _ _ h) _ (clearPoison s a bs.length)

theorem canon_outStep (s : State) (o : Out) : Canon s (outStep s o).1 := by
  unfold outStep
  intro h
  split
  · exact h
  · split
    · exact h
    · split
      · exact h
      · exact memWf_writeBytes _ _ _ h
    · dsimp only
      split
      · exact memWf_writeBytes _ _ _ h
      · split
        · exact memWf_writeBytes _ _ _ h
        · exact h

theorem canon_drainItems (os : List Out) (stuck : List (Bool × Nat)) (s : State) :
    Canon s (drainItems s os stuck) := by
  induction os generalizing s stuck with
  | nil => exact id
  | cons o os ih =>
    have h : ∀ x : State × Bool, Canon s x.1 → Canon s
        (if x.2 then drainItems x.1 os stuck
          else drainItems { x.1 with uzone := { x.1.uzone with out := x.1.uzone.out ++ [o] } } os
            (o.key :: stuck)) := by
      intro x hx
      split
      · exact hx.trans (ih _ _)
      · exact hx.trans (fun g => ih _ _ g)
    refine h _ ?_
    split
    · exact id
    · exact canon_outStep s o

theorem canon_drainOut (s : State) : Canon s (drainOut s) := fun h => canon_drainItems _ _ _ h
theorem canon_emit (s : State) (os : List Out) : Canon s (emit s os) := fun h => canon_drainOut _ h

theorem canon_putCode (s : State) (coll slot code : Nat) : Canon s (putCode s coll slot code) := by
  unfold putCode
  split
  · exact id
  · unfold writeCode
    split
    · exact id
    · exact fun h => canon_deviceWrite _ _ _ _ h

theorem canon_freeSlot (s : State) (coll slot : Nat) : Canon s (freeSlot s coll slot) := by
  unfold freeSlot
  split
  · exact id
  · dsimp only
    refine fun h => canon_putCode _ _ _ _ ?_
    have g : ∀ (l : List ScafRec) (g : ScafRec → Nat) (k : ScafRec → List Byte) (t : State),
        memWf t.mem = true → memWf (l.foldl (fun s r => deviceWrite s none (g r) (k r)) t).mem = true :=
      fun l g k t ht => Canon.foldl (fun _ _ => canon_deviceWrite _ _ _ _) l t ht
    split
    · exact canon_deviceWrite _ _ _ _ (g _ _ _ _ h)
    · exact g _ _ _ _ h

theorem canon_retire (s : State) : Canon s (retire s) := by
  unfold retire
  exact fun h => Canon.foldl (fun s e => by
    split
    · exact canon_freeSlot _ _ _
    · exact canon_putCode _ _ _ _) _ s h

theorem canon_writeCompletion (s : State) (q : ComplQ) (c : Completion) :
    Canon s (writeCompletion s q c) := by
  unfold writeCompletion
  refine fun h => canon_emit _ _ ?_
  unfold unpinned
  split
  · exact canon_retire _ h
  · exact h

theorem canon_slotWrite (s : State) (id a : Nat) (bs : List Byte) : Canon s (slotWrite s id a bs) :=
  canon_emit _ _
theorem canon_slotBusy (s : State) (id a : Nat) : Canon s (slotBusy s id a) := canon_slotWrite _ _ _ _
theorem canon_slotPut (s : State) (id a st : Nat) (p : List Byte) (n : Nat) :
    Canon s (slotPut s id a st p n) := (canon_slotWrite _ _ _ _).trans (canon_emit _ _)

theorem canon_post1 (s : State) (c : Completion) : Canon s (post1 s c) := by
  unfold post1
  split
  · exact id
  · split
    · exact id
    · split
      · exact id
      · split
        · exact canon_writeCompletion _ _ _
        · exact id

theorem canon_settleDelete (s : State) (q : SubQ) : Canon s (settleDelete s q) := by
  unfold settleDelete
  split
  · exact id
  · split
    · exact id
    · dsimp only
      split
      · exact id
      · exact fun h => canon_post1 _ _ h

theorem canon_settleDeletes (s : State) : Canon s (settleDeletes s) := Canon.foldl canon_settleDelete _ s

theorem canon_post (s : State) (c : Completion) : Canon s (post s c) :=
  (canon_post1 s c).trans (canon_settleDeletes _)

theorem canon_flushHeld (n q : Nat) (s : State) : Canon s (flushHeld n q s) := by
  induction n generalizing s with
  | zero => exact id
  | succ n ih =>
    unfold flushHeld
    split
    · exact id
    · split
      · exact id
      · split
        · exact fun h => ih _ (canon_writeCompletion (updCq s q _) _ _ h)
        · exact id

theorem canon_flushAllHeld (s : State) : Canon s (flushAllHeld s) :=
  (Canon.foldl (fun _ _ => canon_flushHeld _ _ _) _ s).trans (canon_settleDeletes _)

theorem canon_failSlots (s : State) (c : Cmd) (st : Nat) : Canon s (failSlots s c st) :=
  Canon.foldl (fun _ _ => canon_slotPut _ _ _ _ _ _) _ s

theorem canon_busySlots (s : State) (c : Cmd) (l : List (Nat × Nat)) : Canon s (busySlots s c l) :=
  Canon.foldl (fun _ _ => canon_slotBusy _ _ _) _ s

theorem canon_begun (s : State) (c : Cmd) (l : List (Nat × Nat)) : Canon s (begun s c l) :=
  fun h => canon_busySlots (updCmd s c.id _) _ _ h

theorem canon_endFetched (s : State) (q st : Nat) : Canon s (endFetched s q st) :=
  Canon.foldl (fun _ _ => canon_post _ _) _ s

theorem canon_succeed (s : State) (c : Cmd) (st fl i a b : Nat) : Canon s (succeed s c st fl i a b) := by
  unfold succeed
  split
  · exact canon_post _ _
  · exact id

theorem canon_fail (s : State) (c : Cmd) (e : Err) : Canon s (fail s c e) := by
  have h1 : Canon s (post (recordError (failSlots s ((findCmd s c.id).getD c) e.status) c e)
      (completionOf c e.status 0 e.info32 e.a e.b)) :=
    fun h => canon_post (recordError (failSlots s _ _) c e) _ (canon_failSlots s _ _ h)
  unfold fail
  split
  · exact id
  · dsimp only
    split
    · exact h1
    · exact h1.trans (canon_endFetched _ _ _)

theorem canon_slotReady (s : State) (id a st : Nat) (p : List Byte) (n : Nat) :
    Canon s (slotReady s id a st p n) := by
  unfold slotReady
  split
  · split
    · exact canon_fail _ _ _
    · exact fun h => h
  · exact canon_slotPut _ _ _ _ _ _

theorem canon_sealed (s : State) (c : Cmd) (i a b : Nat) : Canon s (sealed s c i a b) := by
  unfold sealed
  dsimp only
  split
  · exact id
  · exact canon_post _ _

theorem canon_resumeFetch (s : State) (q : Nat) : Canon s (resumeFetch s q) := by
  unfold resumeFetch
  split
  · exact id
  · split
    · exact id
    · dsimp only
      split
      · exact fun h => canon_succeed (updSq s q _) _ _ _ _ _ _ h
      · exact id

theorem canon_postFault (s : State) (u : Nat) : Canon s (postFault s u) := by
  unfold postFault
  split
  · exact id
  · exact fun h => canon_emit _ _ h

theorem canon_postFaults (s : State) : Canon s (postFaults s) :=
  Canon.foldl (fun s f => by split <;> [exact canon_postFault _ _; exact id]) _ s

theorem canon_openFault (s : State) (w : Option Who) (u cause : Nat) (r : Range) (stop : Nat) :
    Canon s (openFault s w u cause r stop) := fun h => canon_postFaults _ h

@[simp] theorem peerReads_mem (s : State) (n : Nat) (owner : Owner) (u o f len : Nat) :
    (peerReads s n owner u o f len).mem = s.mem := by
  induction f generalizing s o len with
  | zero => rfl
  | succ f ih =>
    unfold peerReads
    split
    · rfl
    · simp [ih]

@[simp] theorem askPart_mem (s : State) (owner : Owner) (r : Range) (u : Nat) (x : Reach) :
    (askPart s owner r u x).mem = s.mem := by
  cases x <;> simp [askPart]

theorem canon_blockOn (s : State) (c : Cmd) (u : Nat) (r : Range) (stop : Nat) (x : Reach) :
    Canon s (blockOn s c u r stop x) := by
  intro h
  cases x <;> simp only [blockOn]
  · exact h
  · split
    · exact canon_openFault (setPhase s c.id _) _ _ _ _ _ h
    · exact canon_fail _ _ _ h
  · exact canon_fail _ _ _ h
  · exact h
  · exact h
  · simpa using h
  · simpa using h
  · simpa using h

/-- Work on ranges keeps memory canonical if the work itself does. -/
theorem canon_touching (s : State) (c : Cmd) (stop : Nat) (rs : List Range) {act : State → State}
    (ha : Canon s (act s)) : Canon s (touching s c stop rs act) := by
  unfold touching
  split
  · exact canon_blockOn _ _ _ _ _ _
  · exact ha

/-- The step of a queue command keeps memory canonical if what the command does keeps it. -/
theorem canon_runCommand (s : State) (n : Nat) (mine : Cmd → Bool) (pre : State → Cmd → Option Err)
    (ranges : State → Cmd → List Range) (check : State → Cmd → Option Err)
    (slots : State → Cmd → List (Nat × Nat)) {act : State → Cmd → State}
    (ha : ∀ t c, Canon t (act t c)) :
    Canon s (runCommand s n mine pre ranges check slots act) := by
  intro h
  obtain ⟨-, e⟩ | ⟨c, -, ⟨-, e⟩ | ⟨t, ht, e⟩⟩ :=
    runCommand_cases (s := s) (mine := mine) (pre := pre) (ranges := ranges) (check := check)
      (slots := slots) (act := act) n
  · rw [e]; exact h
  · rw [e]; exact h
  · have h1 : memWf t.mem = true := by
      rw [ht]
      split
      · exact canon_resumeFetch _ _ h
      · exact h
    obtain ⟨-, e⟩ | ⟨x, e⟩ | ⟨u, g, x, -, e⟩ | e | e := e <;> rw [e]
    · exact ha _ _ h1
    · exact canon_fail _ _ _ h1
    · exact canon_blockOn _ _ _ _ _ _ h1
    · exact h1
    · exact ha _ _ (canon_begun _ _ _ h1)

end Sys2Proof.Machine
end

