-- ==== Sys2Proof/WellFormed.lean ====
section
/-!
DEFINITION. Which commands can be sent: the sizes and ranges that the manual gives the operands which
a plain list or number does not bound.
-/

namespace Sys2Proof

/-- The sizes and ranges of a command's operands. Arguments that have no bound of their own are free. -/
def Instr.wf : Instr → Bool
  -- at most seven retries, the soft-decision read among them, and then none is left (R554)
  | .flashReadComplete _ _ retries _ => decide (retries ≤ 8)
  -- a round holds at most sixteen reads (R78)
  | .blockLanded _ entry => decide (entry < 16)
  -- domains 0 to 23 (R537)
  | .domainReady domain => decide (domain < 24)
  -- a flit is 256 bytes (R412, R443), over sixteen lanes, or eight of a Mortar port (R408, R440)
  | .uzoneFlitReceived flit low high =>
    flit.length == 256 && decide (low.length ≤ 8) && decide (high.length ≤ 8)
  | .mortarFlitReceived _ flit errors => flit.length == 256 && decide (errors.length ≤ 8)
  -- one to four lines (R418)
  | .devWr _ ds _ => ds.length % 64 == 0 && decide (64 ≤ ds.length) && decide (ds.length ≤ 256)
  | .devWrPartial _ _ ds _ => ds.length == 64
  -- DATA carries whole lines, or none (R418)
  | .data _ _ _ bytes => bytes.length % 64 == 0 && decide (bytes.length ≤ 256)
  -- the block of R448, the salt of R466
  | .hello _ _ block => block.length == 32
  | .keyRoll _ _ _ salt => salt.length == 32
  -- a message is at most 32 + 65,536 bytes (R445)
  | .mortarTransitForward _ _ message =>
      decide (32 ≤ message.length) && decide (message.length ≤ 65568)
  | .remoteWr _ bytes => decide (bytes.length ≤ 65536)
  | .remoteData _ bytes => decide (bytes.length ≤ 65536)
  | .fanout _ payload => decide (payload.length ≤ 65536)
  | .partialList _ payload => decide (payload.length ≤ 65536)
  -- 64 Bricks of eight dies, eight stacks, four expander links (R17, R297)
  | .coldBoot f => findingsOk f
  | .mainInputReturn f => findingsOk f
  | .memoryScrub _ findings => findings.all fun x => decide (x.offset < 2 ^ 37)
  | _ => true
where
  findingsOk (f : BootFindings) : Bool :=
    f.stackFail.all (· < 8) && f.dieFail.all (fun x => decide (x.1 < 64) && decide (x.2 < 8)) &&
    decide (f.xfMode ≤ 3) && f.xfBytes.length == 4

end Sys2Proof
end

