-- ==== Sys2Proof/Tests/Slice0.lean ====
section
/-!
SUPPORT. Tests of the model, and witnesses that the statements' hypotheses are met: each `wit_` theorem
shows, for the statement that it names, states and operands that meet the hypotheses of its clauses.
-/

open Sys2Proof Sys2Proof.Machine

namespace Sys2Proof.Tests

set_option Elab.async false

/-! ### WellFormed refuses -/

def anyHeader : MortarHeader :=
  { port := 0, dest := 0, source := 0, alive := 0, tag := 0, pairSeq := 0, route := 0, address := 0, last := true }

def bootOf (stack die brick mode links : Nat) : BootFindings :=
  { romOk := true, identityOk := true, stackFail := [stack], dieFail := [(brick, die)], xfMode := mode
    xfBytes := List.replicate links 0, mainOk := true, flushMissing := none }

theorem test_wf_retries : (Instr.flashReadComplete 0 0 9 false).wf = false := by decide
theorem test_wf_round : (Instr.blockLanded 0 16).wf = false := by decide
theorem test_wf_domain : (Instr.domainReady 24).wf = false := by decide
theorem test_wf_flit : (Instr.uzoneFlitReceived [] [] []).wf = false := by decide
theorem test_wf_flit_lanes :
    (Instr.uzoneFlitReceived (List.replicate 256 0) (List.replicate 9 0) []).wf = false := by decide +kernel
theorem test_wf_mortar_flit : (Instr.mortarFlitReceived 0 [1] []).wf = false := by decide
theorem test_wf_write_part_of_a_line : (Instr.devWr 0 (List.replicate 63 0) 0).wf = false := by decide
theorem test_wf_write_nothing : (Instr.devWr 0 [] 0).wf = false := by decide
theorem test_wf_write_five_lines : (Instr.devWr 0 (List.replicate 320 0) 0).wf = false := by decide +kernel
theorem test_wf_partial_write : (Instr.devWrPartial 0 0 [] 0).wf = false := by decide
theorem test_wf_data : (Instr.data 0 0 0 [1]).wf = false ∧
    (Instr.data 0 0 0 (List.replicate 320 0)).wf = false := by decide +kernel
theorem test_wf_hello : (Instr.hello 0 0 []).wf = false := by decide
theorem test_wf_salt : (Instr.keyRoll 0 0 0 []).wf = false := by decide
theorem test_wf_transit_short : (Instr.mortarTransitForward 0 false []).wf = false := by decide
theorem test_wf_transit_long (m : List Byte) (h : 65568 < m.length) :
    (Instr.mortarTransitForward 0 false m).wf = false := by
  simp [Instr.wf]; omega
theorem test_wf_remote_payloads (m : List Byte) (h : 65536 < m.length) :
    (Instr.remoteWr anyHeader m).wf = false ∧ (Instr.remoteData anyHeader m).wf = false ∧
    (Instr.fanout anyHeader m).wf = false ∧ (Instr.partialList anyHeader m).wf = false := by
  simp [Instr.wf]; omega
theorem test_wf_boot_findings :
    (Instr.coldBoot (bootOf 8 0 0 0 4)).wf = false ∧ (Instr.coldBoot (bootOf 7 8 0 0 4)).wf = false ∧
    (Instr.coldBoot (bootOf 7 7 64 0 4)).wf = false ∧ (Instr.coldBoot (bootOf 7 7 63 4 4)).wf = false ∧
    (Instr.coldBoot (bootOf 7 7 63 3 3)).wf = false ∧ (Instr.mainInputReturn (bootOf 8 0 0 0 4)).wf = false ∧
    (Instr.coldBoot (bootOf 7 7 63 3 4)).wf = true := by decide
theorem test_wf_scrub :
    (Instr.memoryScrub 0 [{ offset := 2 ^ 37, corrected := true }]).wf = false := by decide

/-! ### Small states -/

/-- Fields of a structure: offset, bytes, value. -/
def lay (n : Nat) (fs : List (Nat × Nat × Nat)) : List Byte :=
  fs.foldl (fun l f => l.take f.1 ++ leBytes f.2.1 f.2.2 ++ l.drop (f.1 + f.2.1)) (zeros n)

/-- A structure with version 1.0 and its size. -/
def struct (n : Nat) (fs : List (Nat × Nat × Nat)) : List Byte :=
  lay n ([(1, 1, 1), (2, 2, n)] ++ fs)

/-- A submission entry: its opcode and further fields. -/
def entry (op : Nat) (fs : List (Nat × Nat × Nat)) : List Byte :=
  lay 128 ([(0, 1, op), (2, 2, 77), (5, 1, 1), (6, 2, 128)] ++ fs)

/-- Bytes put in memory: address and contents. -/
def memOf (l : List (Nat × List Byte)) : Mem := l.foldl (fun m x => writeBytes m x.1 x.2) {}

/-- A module that serves, with the factory image, a queue pair 1, a result area at 1 MiB, and one
command. -/
def serving (c : List Cmd) (m : List (Nat × List Byte)) : State :=
  { mem := memOf m
    sched := {
      sqs := [{ id := 0, cls := 4, depth := 16, cq := 0, base := 0x10000 },
        { id := 1, cls := 1, depth := 16, cq := 1, base := 0x20000 }]
      cqs := [{ id := 0, depth := 16, base := 0x30000, vector := some 0, coCount := 1, coTime := 0 },
        { id := 1, depth := 16, base := 0x40000, vector := some 1, coCount := 4, coTime := 10 }]
      areas := [{ id := 0, base := 0x100000, bytes := 0x40000 }]
      cmds := c
      nextCmd := 10 }
    epochs := { published := 4, opened := 5, pubs := [2, 3, 4] }
    time := { ns := 1000012, valid := true }
    uzone := { link := { st := 2, credits := [64, 64, 64, 64] } }
    quoin := { stage := 7, active := some factoryImage }
    holdup := { below := false, health := 40000, stored := 40000 }
    power := { aonOn := true, mainOn := true } }

/-- A command of queue 1, numbered 3. -/
def cmd (op : Nat) (fs : List (Nat × Nat × Nat)) : Cmd :=
  { id := 3, sq := 1, urgent := false, entry := entry op fs }

/-- A command of the admin queue. -/
def adm (op : Nat) (fs : List (Nat × Nat × Nat)) : Cmd := { cmd op fs with sq := 0, urgent := true }

/-! ### Queues (R342 to R383) -/

/-- QUEUE_CREATE with a descriptor. -/
def qc (fs : List (Nat × Nat × Nat)) : State × Cmd :=
  let c := adm 0x60 [(48, 8, 0x1000)]
  (serving [c] [(0x1000, struct 64 fs)], c)

/-- The premises of QueueCreateAddsWhatItsDescriptorSays. -/
def createReady (x : State × Cmd) : Prop :=
  Taken x.1 0 (opIs 0x60) x.2 ∧
  Passes x.1 (fun _ c => descErr c 64) (fun _ c => [{ addr := entDesc c, len := 64 }])
    (fun s c => queueErr s (readBytes s.mem (entDesc c) 64)) noSlots x.2 ∧
  auditOk (begun x.1 x.2 []) = true

def newSq := qc [(4, 1, 0), (5, 1, 4), (6, 2, 4095), (8, 2, 4096), (10, 2, 1), (16, 8, 0x200000)]
def newCq := qc [(4, 1, 1), (6, 2, 2), (8, 2, 2), (12, 2, 0xFFFF), (14, 2, 256), (16, 8, 0x50000)]
def newArea := qc [(4, 1, 2), (6, 2, 63), (16, 8, 0x50000), (32, 8, 4096)]

theorem wit_QueueCreateAddsWhatItsDescriptorSays :
    (createReady newSq ∧ byteAt (readBytes newSq.1.mem (entDesc newSq.2) 64) 4 = 0) ∧
    (createReady newCq ∧ byteAt (readBytes newCq.1.mem (entDesc newCq.2) 64) 4 = 1) ∧
    (createReady newArea ∧ byteAt (readBytes newArea.1.mem (entDesc newArea.2) 64) 4 = 2) := by
  unfold createReady Taken Passes; decide +kernel

/-- An administration command on a state. -/
def onAdmin (op : Nat) (fs : List (Nat × Nat × Nat)) : State × Cmd :=
  (serving [adm op fs] [], adm op fs)

/-- A queue 2 and its completion queue beside those of `serving`. -/
def spare (x : State × Cmd) : State × Cmd :=
  ({ x.1 with
    sched := { x.1.sched with
      cqs := x.1.sched.cqs ++ [{
        id := 2, depth := 16, base := 0x60000, vector := none, coCount := 0, coTime := 0 }] } }, x.2)

def deleteReady (x : State × Cmd) : Prop :=
  Taken x.1 0 (opIs 0x61) x.2 ∧ Passes x.1 queueDeleteErr noRanges noErr noSlots x.2 ∧
  auditOk (begun x.1 x.2 []) = true

theorem wit_QueueDeleteRemovesOrStops :
    (deleteReady (onAdmin 0x61 [(8, 4, 1)]) ∧ entField (adm 0x61 [(8, 4, 1)]) 64 1 = 0) ∧
    (deleteReady (spare (onAdmin 0x61 [(8, 4, 2), (64, 1, 1)])) ∧
      entField (adm 0x61 [(8, 4, 2), (64, 1, 1)]) 64 1 = 1) ∧
    (deleteReady (onAdmin 0x61 [(8, 4, 0), (64, 1, 2)]) ∧
      entField (adm 0x61 [(8, 4, 0), (64, 1, 2)]) 64 1 = 2) := by
  unfold deleteReady Taken Passes; decide +kernel

/-- Queue 1 frozen with an entry kept. -/
def frozen (x : State × Cmd) : State × Cmd :=
  ({ x.1 with
    sched := { x.1.sched with
      sqs := [{ id := 0, cls := 4, depth := 16, cq := 0, base := 0x10000 },
        { id := 1, cls := 1, depth := 16, cq := 1, base := 0x20000, frozen := true,
          kept := some (entry 0x10 []) }] } }, x.2)

def restart1 := frozen (onAdmin 0x62 [(8, 4, 1)])
def restart2 := frozen (onAdmin 0x62 [(8, 4, 1), (64, 1, 1)])

/-- Queue 1 while the QUEUE_RESTART numbered 3 waits for the dispatch of its copy. -/
def restarting : State :=
  let s := restart1.1
  { s with sched := { s.sched with
      sqs := mapIf (·.id == 1) (fun x => { x with kept := none, restart := some (some 3) }) s.sched.sqs } }

theorem wit_RestartResumesFrozenQueue :
    (((findSq restart1.1 (entQueue restart1.2)).bind (·.kept)) = some (entry 0x10 []) ∧
      (restart1.1.sched.sqs.filter (·.id == entQueue restart1.2)).length = 1 ∧
      Taken restart1.1 0 isRetry restart1.2 ∧
      (∀ y ∈ restart1.1.sched.sqs, y.restart = none) ∧
      Passes restart1.1 restartErr noRanges noErr noSlots restart1.2) ∧
    (((findSq restart2.1 (entQueue restart2.2)).bind (·.kept)) = some (entry 0x10 []) ∧
      (restart2.1.sched.sqs.filter (·.id == entQueue restart2.2)).length = 1 ∧
      Taken restart2.1 0 isSkip restart2.2 ∧
      Passes restart2.1 restartErr noRanges noErr noSlots restart2.2) ∧
    (let s := restarting
     ((findSq s 1).bind (·.restart)) = some (some 3) ∧ (findCmd s 3).isSome) := by
  unfold Taken Passes; decide +kernel

def onQueue (op : Nat) (fs : List (Nat × Nat × Nat)) : State × Cmd :=
  (serving [cmd op fs] [], cmd op fs)

def readLog := onQueue 0x63 [(12, 4, 256), (32, 8, 0x100000), (40, 4, 65552), (64, 1, 3)]
def ident (n : Nat) := onQueue 0x6F [(32, 8, 0x100000), (40, 4, 656), (64, 1, n), (8, 4, 7)]
def toPower (n : Nat) := onQueue 0x68 [(64, 1, n)]

def identSlots (_ : State) (c : Cmd) : List (Nat × Nat) :=
  oneSlot (if identSelector c == 0 then 256 else 640) c

/-- A collection 7 of 128 vectors of 64 dimensions. -/
def coll7 : Coll :=
  { id := 7
    desc := struct 64 [(4, 1, 7), (7, 1, 8), (8, 2, 64), (10, 1, 5), (16, 8, 128),
      (24, 8, 0x8000), (32, 8, 0x2000000000), (40, 8, 0x1000)]
    proj := { kv5 := false } }

def withColl (k : Coll) (x : State × Cmd) : State × Cmd :=
  ({ x.1 with index := { x.1.index with colls := [k] } }, x.2)

theorem wit_LogReadIdentifyAndPowerStateComplete :
    (Taken readLog.1 1 (opIs 0x63) readLog.2 ∧ Passes readLog.1 logReadErr noRanges noErr
      (fun _ c => oneSlot (entCount c * recordBytes (entField c 64 1)) c) readLog.2) ∧
    (Taken (toPower 0).1 1 (opIs 0x68) (toPower 0).2 ∧
      Passes (toPower 0).1 powerErr noRanges noErr noSlots (toPower 0).2 ∧
      entField (toPower 0).2 64 1 = 0 ∧ (toPower 0).1.power.request = none) ∧
    (Taken (toPower 3).1 1 (opIs 0x68) (toPower 3).2 ∧
      Passes (toPower 3).1 powerErr noRanges noErr noSlots (toPower 3).2 ∧
      entField (toPower 3).2 64 1 ≠ 0 ∧ (toPower 3).1.power.request = none) ∧
    (Taken (ident 0).1 1 (opIs 0x6F) (ident 0).2 ∧
      Passes (ident 0).1 identifyErr noRanges noErr identSlots (ident 0).2 ∧
      identSelector (ident 0).2 = 0) := by
  unfold Taken Passes; decide +kernel

theorem wit_IdentifyDescribes :
    let x := withColl coll7 (ident 1)
    Taken x.1 1 (opIs 0x6F) x.2 ∧ Passes x.1 identifyErr noRanges noErr identSlots x.2 ∧
    identSelector x.2 = 1 ∧ findColl x.1 (entColl x.2) = some coll7 := by
  unfold Taken Passes; decide +kernel

/-- One entry waits in queue `q`. -/
def fetchable (q : Nat) : State :=
  let s := serving [] [(if q = 0 then 0x10000 else 0x20000, entry 0x68 [])]
  { s with sched := { s.sched with sqs := mapIf (·.id == q) (fun x => { x with tail := 1 }) s.sched.sqs } }

/-- The premises of CommandFetchCopiesTheEntryAtHead. -/
def fetchReady (s : State) (q : SubQ) (cls : Nat) (credit : List Nat) : Prop :=
  arbiter s = (some cls, credit) ∧ (rrNext s cls).bind (findSq s) = some q ∧
  courseOff s (unitOf (q.base + 128 * q.head)) = false ∧
  entryMissing s q = [] ∧
  (∀ x ∈ s.sched.cmds, x.phase = .fetched → entryErr s x = none) ∧
  entryErr s {
  id := s.sched.nextCmd, sq := q.id, urgent := q.cls == 4,
    entry := readBytes s.mem (q.base + 128 * q.head) 128 } = none

/-- The same with the domain of course 0 off. -/
def offCourse : State :=
  let s := fetchable 0
  { s with power := { s.power with domains := 0xFFFFEF } }

theorem wit_CommandFetchCopiesTheEntryAtHead :
    (fetchReady (fetchable 0) { id := 0, cls := 4, depth := 16, cq := 0, base := 0x10000, tail := 1 } 4
      [0, 0, 0, 0] ∧
    fetchReady (fetchable 1) { id := 1, cls := 1, depth := 16, cq := 1, base := 0x20000, tail := 1 } 1
      [8, 4, 2, 1] ∧
    (arbiter offCourse = (some 4, [0, 0, 0, 0]) ∧
      ((rrNext offCourse 4).bind (findSq offCourse)).map (·.id) = some 0 ∧
      courseOff offCourse (unitOf 0x10000) = true)) ∧
    raiseCopies (fetchable 0) = fetchable 0 ∧ raiseCopies (fetchable 1) = fetchable 1 ∧
    raiseCopies offCourse = offCourse := by
  refine ⟨?_, rfl, rfl, rfl⟩
  unfold fetchReady; decide +kernel

/-- A queue with a first completion counted, 10 µs and longer ago, and the admin queues off or on. -/
def coalesced : State :=
  let s := serving [] []
  { s with
    sched := { s.sched with
      cqs := [{
      id := 1, depth := 16, base := 0x40000, vector := some 1, coCount := 4, coTime := 10,
        since := 1, firstAt := some 990000 }] } }

def noAdmin : State :=
  let s := serving [] []
  { s with
    sched := { s.sched with
      sqs := [], cqs := [], areas := [], adminSqBase := 0x10000, adminCqBase := 0x30000 } }

def frozenAdmin : State :=
  let s := serving [] []
  { s with
    sched := { s.sched with
      adminEnable := true
      sqs := [{
      id := 0, cls := 4, depth := 16, cq := 0, base := 0x10000, frozen := true,
        kept := some (entry 0x60 []) }] } }

theorem wit_DoorbellsCoalescingAndAdminQueues :
    (RequestArrives (serving [] []) ∧ (serving [] []).quoin.stage = 7 ∧
      (∀ x ∈ (serving [] []).sched.cqs, x.held = []) ∧
      (∀ x ∈ (serving [] []).sched.sqs, x.deletedBy = none)) ∧
    ((findCq coalesced 1).bind (·.firstAt) = some 990000 ∧
      (findCq coalesced 1).map (·.coTime) = some 10 ∧ 990000 + 10 * 1000 ≤ now coalesced) ∧
    (RequestArrives noAdmin ∧ noAdmin.quoin.stage = 7 ∧ blockUp noAdmin .sched = true ∧
      noAdmin.sched.adminEnable = false ∧
      (0x80001001 : BitVec 32).toNat / 2 ^ 29 % 4 = 0 ∧ adminOk noAdmin 1 1 = true) ∧
    (RequestArrives frozenAdmin ∧ frozenAdmin.quoin.stage = 7 ∧ blockUp frozenAdmin .sched = true ∧
      frozenAdmin.sched.adminEnable = true ∧ restartable frozenAdmin 0 = true) := by
  unfold RequestArrives; decide +kernel

/-- A completion of the command numbered 3. -/
def complOf3 : Completion :=
  { cmd := 3, sq := 1, tag := 77, status := 0, flags := 0, info32 := 0, infoA := 0, infoB := 0 }

theorem wit_CompletionIsWrittenAtTheTail :
    let s := serving [] []
    (∃ sq q, Posts s complOf3 sq q) ∧ memWf s.mem = true :=
  ⟨⟨_, _, rfl, rfl, by decide +kernel, by decide +kernel, by decide +kernel, by decide +kernel,
    by decide +kernel, by decide +kernel, .inl (by decide +kernel)⟩, by decide +kernel⟩

/-- With what `wit_CompletionIsWrittenAtTheTail` shows of the same state. -/
theorem wit_CommandFetchCopiesTheEntryAtHead_reported :
    ((findSq (serving [] []) 1).map fun q => decide (q.head < 2 ^ 16)) = some true := by decide +kernel

theorem wit_ErrorFreezesTheQueue :
    ∃ q, findSq (serving [] []) (cmd 0x10 []).sq = some q ∧ q.frozen = false ∧
      q.id = (cmd 0x10 []).sq := ⟨_, rfl, rfl, rfl⟩

/-! ### Searches and walks (R69 to R137) -/

/-- A stored BF16 vector of ones, and slots 0 and 2 of collection 7 with their blocks. -/
def ones : QVec := { fmt := 7, g := 32, scale := 0x3F800000, codes := List.replicate 64 0x3F80 }
def slot (n v : Nat) : Machine.Slot := { num := n, vid := v, attr := 0, sketch := n, copy := ones }
def filled : Coll :=
  { coll7 with
    nextSlot := 3
    slots := [slot 0 100, slot 2 102], codes := [(0, 1), (2, 1)]
    idMap := idAdd 171 (idAdd 171 [] 100 0) 102 2
    extents := (List.range 64).map fun b => 0x3000000000000 + b * 2 ^ 41
    segments := [{
    num := 0, slotsUsed := 3, live := 2, creation := 1, rerank := 0x2000200000,
      side := 0, header := 0x2000400000 }]
    blocks := [{
    slot := 0, own := 0, entries := [{
      sketch := 2, slot := 2, attr := some 0, back := false,
      dist := 1 }] }, { slot := 2, own := 0 }] }

/-- A search of collection 7 with K 1. -/
def srch (op : Nat) (fs : List (Nat × Nat × Nat)) : State × Cmd :=
  withColl filled (onQueue op ([(8, 4, 7), (32, 8, 0x100000), (40, 4, 128), (56, 8, 0x2000),
    (72, 2, 1)] ++ fs))

def batch := srch 0x11 [(12, 4, 2), (44, 4, 128), (76, 4, 256)]
def rerank := srch 0x12 [(12, 4, 1), (48, 8, 0x3000)]

def searchReady (x : State × Cmd) (op : Nat) : Prop :=
  Passes x.1 searchPre searchRanges searchCheck searchSlots x.2 ∧ x.2.pin = none ∧
  fansOut (begun x.1 x.2 (searchSlots x.1 x.2)) (ran x.2) = false ∧
  findColl x.1 (entColl x.2) = some filled ∧ Taken x.1 1 (opIs op) x.2

theorem wit_SearchesPinAndBegin :
    searchReady (srch 0x10 []) 0x10 ∧ searchReady (srch 0x13 []) 0x13 ∧ searchReady batch 0x11 ∧
    searchReady rerank 0x12 ∧
    (let b := begun rerank.1 rerank.2 (searchSlots rerank.1 rerank.2)
     let p := updCmd b 3 fun x => { x with pin := some (pinOf rerank.1 (entEpoch rerank.2)) }
     reachRanges p [] (idRanges p rerank.2 filled) = none ∧
     ∀ r ∈ idRanges p rerank.2 filled, bulkHomed p r = false) := by
  unfold searchReady Taken Passes; decide +kernel

theorem wit_SelectionIsOrderedAndDistinct :
    (let row : List (Nat × F32) := [(1, 0x3F800000), (2, 0x40000000), (1, 0x40400000)]
     (2, (0x40000000 : F32)) ∈ row ∧ 2 ∉ (selectPiece 1 row).entries.map (·.1)) ∧
    isNaN32 0x3F800000 = false ∧ isNaN32 0x7FC00000 = true ∧ isNaN32 0xFFC00001 = true ∧
    isFin32 0x3F800000 = true ∧ isFin32 0x80000000 = true ∧
    (0x3F800000 : F32) ≠ negInf32 ∧ (0x3F800000 : F32) ≠ posInf32 := by
  decide +kernel

/-- A walk of collection 7 in Brick 63, with one candidate. -/
def walk (st : WalkStage) (round : List REntry) : Walk :=
  { id := 9, brick := 63, sender := some 63, urgent := false
    query := { cmd := 3, idx := 0, coll := 7, epoch := 4, k := 1, vec := List.replicate 64 0 }
    scorer := .sketch 0
    params := { W := 8, L := 64, R := 64, budget := 100, deadline := 1000001 }
    core := { cq := [{ d := 5, slot := 0, live := true, know := true, pass := true }] }
    stage := st, slots := 1, round := round }

def cand (st : RState) : REntry :=
  { cand := { d := 5, slot := 0, live := true, know := true, pass := true }, st := st }

/-- The walk in a module, and its Brick. -/
def walking (w : Walk) (b : Brick) : State :=
  let s := (srch 0x10 []).1
  { s with walks := [w], bricks := modAt s.bricks 63 fun _ => b }

theorem wit_WalkAdmission :
    (let s := walking (walk .queued []) { normalQ := [9] }
     s.bricks.length = 64 ∧ findWalk s 9 = some (walk .queued []) ∧ brickOn s 63 = true ∧
     admissionHead (s.bricks.getD 63 {}) = some 9 ∧
     slotsHeld s 63 + 1 ≤ slotTotal s ∧
     pastDeadline s (walk .queued []).params = false ∧
     (roundOf (walk .queued []).params (walk .queued []).core).isEmpty = false) ∧
    (let s := walking (walk .handoff []) {}
     s.bricks.length = 64 ∧ findWalk s 9 = some (walk .handoff []) ∧ brickOn s 63 = true ∧
     s.walks = [walk .handoff []] ∧ admissionDepth (s.bricks.getD 63 {}) < 2048) := by
  decide +kernel

/-- A read of slot `n` for the walk. -/
def blockRead (n : Nat) : ReadReq := { owner := .walk 9 0, origin := 63, coll := 7, slot := n }

def hasExtents (s : State) : State :=
  { s with
  bricks := s.bricks.zipIdx.map fun x =>
    { x.1 with extents := [(7, 0x3000000000000 + x.2 * 2 ^ 41, 2097152)] } }

theorem wit_BlockReadsGoThroughTheirOwners :
    (let s := walking (walk .running [cand .pending]) { asks := [blockRead 0], buffers := List.range 255 }
     s.bricks.length = 64 ∧ brickOn s 63 = true ∧ (s.bricks.getD 63 {}).asks = [blockRead 0] ∧
     freeBuffer (s.bricks.getD 63 {}) = some 255 ∧ brickOf 0 ≠ 63) ∧
    (let s := hasExtents { walking (walk .running [cand .issued]) {} with
       bricks := modAt (List.replicate 64 {}) (brickOf 0) fun _ => { remote := [blockRead 0] } }
     s.bricks.length = 64 ∧ brickOn s (brickOf 0) = true ∧
     (s.bricks.getD (brickOf 0) {}).remote = [blockRead 0] ∧
     homeOf s (unitOf (readRange s (blockRead 0)).addr) = .tile ∧
     faultOn s (unitOf (readRange s (blockRead 0)).addr) = false) ∧
    (let s := { walking (walk .running [cand .issued]) {} with
       bricks := modAt (List.replicate 64 {}) (brickOf 0) fun _ =>
         { planes := [blockRead 0] :: List.replicate 31 [] } }
     s.bricks.length = 64 ∧ brickOn s (brickOf 0) = true ∧
     (s.bricks.getD (brickOf 0) {}).planes.getD 0 [] = [blockRead 0] ∧ s.lintel.withheld = false ∧
     planeBusy (s.bricks.getD (brickOf 0) {}) 0 = false ∧
     (s.bricks.getD (brickOf 0) {}).deadDies.contains 0 = false ∧
     ((blockOf s (blockRead 0)).map fun x => (x.corrupt, x.lost)) = some (false, false)) := by
  decide +kernel

theorem wit_LandedBlocksAreProcessedInOrder :
    (let w := walk .running [cand .issued, cand .returned]
     let s := walking w {}
     findWalk s 9 = some w ∧ w.round[1]? = some (cand .returned) ∧ brickOn s 63 = true ∧
     nextEntry w = some (0, cand .issued) ∧ w.core.hops < w.params.budget) ∧
    (let w := walk .running [cand .returned]
     let s := walking w {}
     findWalk s 9 = some w ∧ w.round[0]? = some (cand .returned) ∧ brickOn s 63 = true ∧
     nextEntry w = some (0, cand .returned) ∧ w.core.hops < w.params.budget ∧
     pastDeadline s w.params = false) := by
  decide +kernel

/-- A re-rank tile of one request, open for 2 µs. -/
def openTile (s : State) : State :=
  { s with
    slab := { s.slab with
      tiles := [{
      id := 0, coll := 7, since := 998000,
        reqs := [{
        id := 0, query := (walk .running []).query, cands := [(0, 100), (2, 102)],
          urgent := false, loaded := true }] }] } }

theorem wit_WalkDeadlineAndTileClose :
    (let w := { walk .running [] with params := { W := 8, L := 64, R := 64, budget := 100, deadline := 1000000 } }
     let s := walking w {}
     findWalk s 9 = some w ∧ w.stage = .running ∧ pastDeadline s w.params = true ∧
     findColl s w.query.coll = some filled) ∧
    (let s := openTile (srch 0x10 []).1
     (s.slab.tiles.find? (·.id == 0)).map (·.since) = some 998000 ∧ 998000 + 2000 ≤ now s ∧
     s.slab.heldWork = [] ∧ s.slab.queue.length < 4096) := by
  decide +kernel

/-- Epoch 5 closed and not published, and a schedule that is due. -/
def closed : State :=
  let s := serving [] []
  { s with epochs := { s.epochs with opened := 6, closing := [(5, 999000, none)] } }
def scheduled : State :=
  let s := serving [] []
  { s with epochs := { s.epochs with schedule := some { base := 1000000, period := 1000, epoch := 5 } } }
def waitingFan : State :=
  let s := serving [] []
  { s with
    mortar := { s.mortar with
      fans := [{
      id := 0, members := [(0, 7)], fanIn := 2, coll := 7, epoch := 9, k := 1, entry := [],
        vec := [], pred := [], epochWait := some 900000 }] } }

theorem wit_EpochsCloseAndArePublished :
    (closed.epochs.closing = [(5, 999000, none)] ∧ closed.mortar.fans = [] ∧ closed.power.st ≤ 1 ∧
      closed.quoin.stage = 7) ∧
    ((findFan waitingFan 0).map (·.epochWait) = some (some 900000) ∧
      900000 + 100000 ≤ now waitingFan) ∧
    (scheduled.time.valid = true ∧ 1000000 + 0 * 1000 ≤ now scheduled) := by
  decide +kernel

/-! ### Collections and epochs (R35 to R68, R138 to R185) -/

/-- COLLECTION_CREATE of collection 7 with a BF16 projection matrix of 128 rows. -/
def creating : State × Cmd :=
  let c := cmd 0x26 [(48, 8, 0x1000)]
  (serving [c] [(0x1000, struct 64 [(4, 1, 7), (7, 1, 8), (8, 2, 64), (10, 1, 3), (14, 1, 20),
    (16, 8, 1), (24, 8, 0x8000), (32, 8, 0x10000), (40, 8, 0x20000)]),
    (0x8000, struct 64 [(4, 1, 7), (8, 4, 128), (12, 4, 64), (16, 8, 128), (24, 8, 0x9000)])], c)

theorem wit_CollectionCreateAddsAnEmptyCollection :
    let s := creating.1
    let c := creating.2
    let d := readBytes s.mem (entDesc c) 64
    let b := begun s c []
    Taken s 1 (opIs 0x26) c ∧
    Passes s (fun _ c => descErr c 64) createRanges createErr noSlots c ∧
    s.lintel.withheld = false ∧ s.lintel.entropyFault = false ∧ auditOk b = true ∧
    (allotExtents b d).isSome = true ∧ (allotIndex b (dHome d) (collSizes b d)).isSome = true := by
  unfold Taken Passes; decide +kernel

def dropping : State × Cmd := withColl filled (onQueue 0x27 [(8, 4, 7)])

theorem wit_CollectionDropRemovesItsCollectionAlone :
    let s := dropping.1
    let c := dropping.2
    Taken s 1 (opIs 0x27) c ∧ Passes s collPre noRanges noErr noSlots c ∧
    findColl s (entColl c) = some filled ∧ c.born = none ∧ c.after = [] ∧ s.index.locks = [] ∧
    s.index.lockQueue = [] ∧ auditOk s = true ∧
    (∀ x ∈ s.sched.cmds, x.id ≠ c.id → x.phase = .fetched ∧ x.checked = false) := by
  unfold Taken Passes; decide +kernel

/-- A command with the SEAL flag, and one without. -/
def sealFlag : Cmd := cmd 0x20 [(1, 1, 1)]

theorem wit_SealWaitsForNand :
    entSeal sealFlag = true ∧ entSeal (cmd 0x20 []) = false ∧
    (serving [] []).holdup.below = false ∧ State.reset.holdup.below = true := by
  decide +kernel

/-- EPOCH_PUBLISH with a block, with the floor manual. -/
def epoch (fs : List (Nat × Nat × Nat)) : State × Cmd :=
  let c := cmd 0x23 [(48, 8, 0x1000)]
  let s := serving [c] [(0x1000, struct 32 fs)]
  ({ s with epochs := { s.epochs with manual := true, floor := 2 } }, c)

def epochReady (x : State × Cmd) : Prop :=
  Passes x.1 epochPre epochRange epochErr noSlots x.2 ∧ auditOk (begun x.1 x.2 []) = true

def setSchedule := epoch [(8, 8, 1000001), (16, 4, 100000), (24, 8, 5)]
def cancelSchedule := epoch [(5, 1, 1), (6, 1, 64), (7, 1, 1)]
def publishNow := epoch [(4, 1, 1)]
def setFloor := epoch [(4, 1, 2), (24, 8, 4)]

theorem wit_EpochPublishActions :
    (epochReady setSchedule ∧ Taken setSchedule.1 1 (isSchedule setSchedule.1) setSchedule.2 ∧
      byteAt (readBytes setSchedule.1.mem (entDesc setSchedule.2) 32) 4 = 0) ∧
    (epochReady cancelSchedule ∧
      Taken cancelSchedule.1 1 (isCancel cancelSchedule.1) cancelSchedule.2) ∧
    (epochReady publishNow ∧ Taken publishNow.1 1 (isAction publishNow.1 1) publishNow.2 ∧
      publishNow.1.epochs.schedule = none) ∧
    (epochReady setFloor ∧ Taken setFloor.1 1 (isAction setFloor.1 2) setFloor.2) := by
  unfold epochReady Taken Passes; decide +kernel

/-- Eight patches of block 0 at or below the floor, and one above it. -/
def folding : State :=
  let s := (srch 0x10 []).1
  let patch := fun (i : Nat) => ({
    brick := brickOf 0, coll := 7, target := 0, add := true, tag := if i = 8 then 5 else i % 3 + 1,
    nb := { sketch := i, slot := 10 + i, attr := some 0, back := true, dist := i } } : Patch)
  { s with
    sched := { s.sched with cmds := [] }
    epochs := { s.epochs with floor := 4 }
    index := { s.index with patches := (List.range 9).map patch } }

theorem wit_FoldKeepsTheView :
    let r := retire folding
    (foldChoice r (BitVec.ofNat 6 (brickOf 0)).toNat).map (fun x => (x.1.id, x.2.1.slot, x.2.2)) =
      [(7, 0, 8)] ∧
    findColl r 7 = some filled ∧ ((findBlock filled 0).map fun b => (b.corrupt, b.lost)) =
      some (false, false) := by
  decide +kernel

/-- A change-table entry with every epoch. -/
def changed (x : Change) : State :=
  let s := (srch 0x10 []).1
  { s with index := { s.index with changes := [x] } }

theorem wit_VisibilityFollowsTheChangeTable :
    changeOf (changed { coll := 7, slot := 0, vid := 100, ins := 2, del := some 3, rep := some 4 })
      7 0 = some { coll := 7, slot := 0, vid := 100, ins := 2, del := some 3, rep := some 4 } ∧
    changeOf (srch 0x10 []).1 7 0 = none ∧ codeOf filled 0 = 1 ∧
    codeOf { filled with codes := [(0, 2)] } 0 = 2 ∧ codeOf filled 1 = 0 := by
  decide +kernel

/-! ### The Slab (R186 to R226) -/

/-- A MATMUL of two BF16 rows by two, to FP32. -/
def multiply : State × Cmd :=
  let c := cmd 0x40 [(48, 8, 0x1000)]
  let m := fun (a : Nat) => struct 64 [(4, 1, 7), (8, 4, 2), (12, 4, 32), (16, 4, 64), (24, 8, a)]
  (serving [c] [(0x1000, struct 64 [(4, 1, 4), (8, 8, 0x2000), (16, 8, 0x2040), (24, 8, 0x5000),
    (32, 4, 64)]), (0x2000, m 0x3000), (0x2040, m 0x4000)], c)

def rescaling : State × Cmd :=
  let c := cmd 0x41 [(48, 8, 0x1000)]
  (serving [c] [(0x1000, struct 32 [(4, 4, 65535), (8, 4, 1), (16, 8, 0x2000)])], c)

def projecting : State × Cmd :=
  withColl filled (onQueue 0x14 [(8, 4, 7), (12, 4, 1), (32, 8, 0x100000), (40, 4, 32), (56, 8, 0x2000),
    (76, 4, 256)])

theorem wit_SlabCommandsQueueTheirOperations :
    (multiply.2.count = 0 ∧ Taken multiply.1 1 (opIs 0x40) multiply.2 ∧
      Passes multiply.1 (fun _ c => descErr c 64) mmRanges mmErr noSlots multiply.2) ∧
    (rescaling.2.count = 0 ∧ Taken rescaling.1 1 (opIs 0x41) rescaling.2 ∧
      Passes rescaling.1 (fun _ c => descErr c 32)
        (fun _ c => [{ addr := entDesc c, len := 32 }]) rescaleErr noSlots rescaling.2 ∧
      rescaling.1.slab.heldWork = [] ∧ rescaling.1.slab.queue.length < 4096) ∧
    (projecting.2.count = 0 ∧ Taken projecting.1 1 (opIs 0x14) projecting.2 ∧
      Passes projecting.1 projectPre (fun s c => [vecRange s c (entCount c) (inStride c)]) projectErr
        projectSlot projecting.2 ∧
      findColl projecting.1 (entColl projecting.2) = some filled ∧
      projecting.1.slab.heldWork = [] ∧ projecting.1.slab.queue.length < 4096) := by
  unfold Taken Passes; decide +kernel

def slabOp (u : Bool) (w : SlabWork) : SlabOp :=
  { id := 5, urgent := u, work := w, M := 2, N := 2, K := 32, arith := 7, mayPack := false }

/-- A module with a Slab. -/
def slab (b : Machine.Slab) : State := { serving [cmd 0x41 []] [] with slab := b }

/-- The sketch of a query. -/
def sketchWork : SlabWork := .sketch 1 7 (List.replicate 64 0)

/-- The stream that loads operation 5. -/
def loadStream : Stream :=
  { id := 0, cmd := 3, stage := 0, own := some (.load 5), engine := 0, urgent := false, desc := []
    inFlight := [0], nextIssue := 1, nextDeliver := 0, taken := 0, count := 1, tileBytes := 64 }

theorem wit_SlabAdmitsAndLoads :
    (let s := slab { queue := [{ slabOp false sketchWork with id := 4 }, slabOp true sketchWork] }
     s.slab.pair0 = .free ∧
     admitOrder s.slab.queue = [slabOp true sketchWork, { slabOp false sketchWork with id := 4 }] ∧
     slabOn s = true ∧ opBlocked s (slabOp true sketchWork) = none) ∧
    (let s := { slab { pair0 := .prologue [slabOp false sketchWork] } with
       hod := { streams := [loadStream] } }
     s.slab.pair0 = .prologue [slabOp false sketchWork] ∧ s.slab.pair1 = .free ∧ slabOn s = true ∧
     (∀ op ∈ [slabOp false sketchWork], ownInFlight s (.load op.id) = true ∧ opAwaits s op = false ∧
       opBlocked s op = none)) ∧
    (admitOrder [slabOp false sketchWork] = [slabOp false sketchWork] ∧
      (slabOp false sketchWork).urgent = false) := by
  decide +kernel

theorem wit_SlabComputesAndFinishes :
    (let s := slab { pair0 := .compute [slabOp false sketchWork] }
     s.slab.pair0 = .compute [slabOp false sketchWork] ∧ s.slab.pair1 = .free ∧ slabOn s = true) ∧
    (let r : RerankReq := { id := 0, query := (walk .running []).query, cands := [], urgent := false }
     ∀ w ∈ [SlabWork.rows r 0 1, .tile [r], sketchWork, .rescale 3 65535 [(0, 0)]],
      let s := slab { epilogue := [[slabOp false w]] }
      s.slab.epilogue = [[slabOp false w]] ∧ slabOn s = true ∧
      (epilogueBlock s [slabOp false w]).isNone = true ∧
      ((findCmd s 3).map fun c => decide (c.count ≤ 1)) = some true) := by
  decide +kernel

/-! ### The live index and its NAND (R150 to R185, R554 to R559) -/

/-- An insert record of a BF16 vector. -/
def insRec (vid : Nat) : List Byte :=
  struct 160 [(4, 1, 5), (5, 1, 1), (8, 6, vid)]

/-- INSERT or UPDATE of one record into collection 7. -/
def inserting (op vid : Nat) : State × Cmd :=
  let c := cmd op [(8, 4, 7), (12, 4, 1), (48, 8, 0x2000)]
  (hasExtents (withColl filled (serving [c] [(0x2000, insRec vid)], c)).1, c)

/-- The premises of the first clauses of InsertAndUpdateCommitAtTheOpenEpoch, for the collection `filled`. -/
def asksSketches (x : State × Cmd) : Prop :=
  let s := x.1
  let c := x.2
  let recs := insRecs s c
  let b2 := (insDispatch (begun s c []) (ran c) recs).1
  c.born = none ∧ (insDispatch (begun s c []) (ran c) recs).2 = none ∧
  findColl b2 (entColl c) = some filled ∧ LockAtOnce b2 (idLock (ran c) (recs.map (·.vid))) ∧
  b2.lintel.withheld = false ∧ stagingRoom b2 filled.desc recs.length = true ∧
  c.projected = false ∧ filled.proj.kv5 = false ∧
  Passes s insPre insRanges (fun s c => (insLocate s c).2) noSlots c

/-- The command once the Slab has its sketches, with its range held. -/
def projected (x : State × Cmd) : State × Cmd :=
  let c := { x.2 with phase := .ready, checked := true, born := some filled.born, projected := true }
  ({ x.1 with
    sched := { x.1.sched with cmds := [c] }
    index := { x.1.index with
      locks := [{ idLock (ran c) ((insRecs x.1 x.2).map (·.vid)) with held := true }] } }, c)

/-- The premises of its second clauses. -/
def commits (x : State × Cmd) : Prop :=
  let s := x.1
  let c := x.2
  let recs := insRecs s c
  let g := updCmd (setPhase s c.id .running) c.id fun x => { x with born := some filled.born }
  let a := assignSlots 7 (closeDue (retire g)) (recs.map fun r => !(recCopy filled.desc r).side.isEmpty) []
  let k1 := (findColl a.1 7).getD filled
  let places := a.2.getD []
  let built := buildNodes a.1 c.loaded k1 (recs.zip places)
  let ns := pruned a.1 k1 built
  let old := replaced k1 recs
  let fresh := old.filter fun x => (changeOf a.1 k1.id x).isNone
  let reads := nodeRanges a.1.mem k1 ns
  c.checked = true ∧ c.born = some filled.born ∧ findColl s (entColl c) = some filled ∧
  (lockOf s c.id).map (·.held) = some true ∧ s.lintel.withheld = false ∧
  stagingRoom s filled.desc recs.length = true ∧ c.projected = true ∧
  a.2.isSome = true ∧ (findColl a.1 7).isSome = true ∧
  (places.map (·.slot) ++ old).any (compactingSlot k1) = false ∧
  built.findSome? (·.err) = none ∧ (built.findSome? (·.stop)).isNone = true ∧
  (∀ n ∈ built, ∀ y ∈ n.cands, ∀ r ∈ copyRanges k1 y.num, bulkHomed a.1 r = false) ∧
  changeRoom a.1 (fresh ++ ns.map (·.place.slot)) = true ∧
  patchRoom a.1 k1.desc (ns.flatMap (nodePatches k1 a.1.epochs.opened)) = true ∧
  reachRanges a.1 c.loaded reads = none ∧
  (∀ r ∈ reads, r.write = false → bulkHomed a.1 r = false) ∧ ns.length = 1

def insertNow := projected (inserting 0x20 200)
def updateNow := projected (inserting 0x22 100)

theorem wit_InsertAndUpdateCommitAtTheOpenEpoch_sketches :
    asksSketches (inserting 0x20 200) ∧
    Taken (inserting 0x20 200).1 1 (opIs 0x20) (inserting 0x20 200).2 ∧
    liveErr filled (insRecs (inserting 0x20 200).1 (inserting 0x20 200).2) = none ∧
    asksSketches (inserting 0x22 100) ∧
    Taken (inserting 0x22 100).1 1 (opIs 0x22) (inserting 0x22 100).2 := by
  unfold asksSketches LockAtOnce Taken Passes; decide +kernel

theorem wit_InsertAndUpdateCommitAtTheOpenEpoch_insert :
    commits insertNow ∧ Taken insertNow.1 1 (opIs 0x20) insertNow.2 ∧
    liveErr filled (insRecs insertNow.1 insertNow.2) = none := by
  unfold commits Taken; decide +kernel

theorem wit_InsertAndUpdateCommitAtTheOpenEpoch_update :
    commits updateNow ∧ Taken updateNow.1 1 (opIs 0x22) updateNow.2 := by
  unfold commits Taken; decide +kernel

/-- A new node in slot 1. -/
def node (v : Nat) : NewNode :=
  { place := { slot := 1, scaf := none, row := none }, vid := v, attr := 0, code := 0, copy := ones
    kept := [slot 0 100] }

theorem wit_CommitGivesTheNodeItsSlotAndEpoch :
    findColl (inserting 0x20 200).1 filled.id = some filled ∧ idLookup filled 200 = none ∧
    idLookup filled 100 = some 0 := by
  decide +kernel

/-- DELETE of the LIVE ID 100 and of an ID that no vector has. -/
def deleting : State × Cmd :=
  let c := cmd 0x21 [(8, 4, 7), (12, 4, 2), (48, 8, 0x2000)]
  withColl filled (serving [c] [(0x2000, leBytes 8 100 ++ leBytes 8 999)], c)

theorem wit_DeleteCommitsAtTheOpenEpoch :
    let s := deleting.1
    let c := deleting.2
    let b := begun s c []
    let ids := delIds b (ran c)
    let live := ids.filterMap (idLookup filled)
    let h := closeDue (retire (holding b (ran c) filled (idLock (ran c) ids)))
    let reads := idReadRanges h.mem filled.desc filled.idMap.length ids
    Taken s 1 (opIs 0x21) c ∧
    Passes s delPre (fun _ c => [{ addr := entDesc c, len := 8 * entCount c }])
      (fun s c => delErr 0 [] (delIds s c)) noSlots c ∧
    c.born = none ∧ filled.id = entColl c ∧ findColl s filled.id = some filled ∧
    LockAtOnce b (idLock (ran c) ids) ∧
    changeRoom h (live.filter fun x => (changeOf h 7 x).isNone) = true ∧
    reachRanges h c.loaded (reads ++ idWriteRanges filled.desc filled.idMap
      (ids.foldl (fun m v => idRemove (dIdEntries filled.desc) m v) filled.idMap)) = none ∧
    (∀ r ∈ reads, bulkHomed h r = false) ∧ idLookup filled 999 = none := by
  unfold LockAtOnce Taken Passes; decide +kernel

/-- Slot 2 deleted, and REPAIR or COMPACT of the collection. -/
def dead2 : Coll := { filled with codes := [(0, 1), (2, 2)], idMap := idAdd 171 [] 100 0 }
def maintaining (op : Nat) (k : Coll) (f : Cmd → Cmd) : State × Cmd :=
  let c := f (cmd op [(48, 8, 0x2000)])
  let x := withColl k (serving [c] [(0x2000, struct 32 [(4, 1, 7), (16, 8, 0x20000000)])], c)
  (hasExtents x.1, x.2)

def repair1 := maintaining 0x25 dead2 id
def repair2 := maintaining 0x25 { dead2 with repairing := some 3 } fun c =>
  { c with phase := .ready, checked := true, pin := some 4, born := some 0 }

theorem wit_RepairAndCompactRunInTwoVisits_repair :
    (let s := repair1.1
     let c := repair1.2
     Taken s 1 (opIs 0x25) c ∧ Passes s maintPre maintRange (fun s c => maintErr s c none) noSlots c ∧
     c.born = none ∧ c.pin = none ∧ findColl s (byteAt (maintBlock s c) 4) = some dead2 ∧
     dead2.repairing = none ∧ s.epochs.published = 3 + 1 ∧ dead2.repairCommit ≤ release s) ∧
    (let s := repair2.1
     let c := repair2.2
     let g := closeDue (retire (setPhase s c.id .running))
     let k := { dead2 with repairing := some 3 }
     let dead := repairDead g k 4
     let ps := (repairReads g k 4).flatMap fun x => match x.2 with
       | some b => repairBlock g k 4 g.epochs.opened b x.1
       | none => []
     Taken s 1 (opIs 0x25) c ∧ c.checked = true ∧ c.pin = some 4 ∧
     findColl s (byteAt (maintBlock s c) 4) = some k ∧ s.lintel.withheld = false ∧
     reachRanges g c.loaded ((repairSlots g k 4).map (blockRange k)) = none ∧
     repairBad g k 4 = none ∧
     changeRoom g ((dead.filter fun x => (changeOf g k.id x.num).isNone).map (·.num)) = true ∧
     patchRoom g k.desc ps = true ∧ dead.map (·.num) = [2] ∧ ps.length = 1) := by
  unfold Taken Passes; decide +kernel

def claimed : Coll :=
  { filled with
    segments := [{
    num := 0, slotsUsed := 3, live := 2, creation := 1, rerank := 0x2000200000,
      side := 0, header := 0x2000400000, compacting := some 3 }] }
def compact1 := maintaining 0x24 filled id
def compact2 := maintaining 0x24 claimed fun c =>
  { c with phase := .ready, checked := true, born := some 0 }

/-- The same with the header of the segment in memory. -/
def compact3 : State :=
  let s := compact2.1
  { s with mem := claimed.segments.foldl (fun m g => writeBytes m g.header (segBytes claimed.desc g)) s.mem }

theorem wit_RepairAndCompactRunInTwoVisits_compact :
    (let s := compact1.1
     let c := compact1.2
     ((compactSeg s c).map fun x => (x.1.id, x.2.num, x.2.compacting)) = some (7, 0, none) ∧
     Taken s 1 (opIs 0x24) c ∧ Passes s maintPre maintRange compactErr noSlots c ∧ c.born = none ∧
     s.lintel.withheld = false ∧ compactErr (begun s c []) (ran c) = none) ∧
    (let s := compact2.1
     let c := compact2.2
     ((compactSeg s c).map fun x => (x.1.id, x.2.num, x.2.compacting)) = some (7, 0, some 3) ∧
     Taken s 1 (opIs 0x24) c ∧ c.checked = true ∧
     ((compactSeg s c).map fun x =>
       let r := setPhase s c.id .running
       (decide (reachRanges r c.loaded
           (compactReads x.1 x.2 ++ compactWrites r x.1.desc 0x20000000) = none),
         (compactReads x.1 x.2).any (bulkHomed r))) = some (true, false) ∧
     claimed.segments.all (headerFails (setPhase s c.id .running).mem) = true) ∧
    (let s := compact3
     let c := compact2.2
     ((compactSeg s c).map fun x => (x.1.id, x.2.num, x.2.compacting)) = some (7, 0, some 3) ∧
     Taken s 1 (opIs 0x24) c ∧ c.checked = true ∧
     ((compactSeg s c).map fun x =>
       let r := setPhase s c.id .running
       (decide (reachRanges r c.loaded
           (compactReads x.1 x.2 ++ compactWrites r x.1.desc 0x20000000) = none),
         (compactReads x.1 x.2).any (bulkHomed r), headerFails r.mem x.2)) =
       some (true, false, false) ∧
     (findColl (foldSegment (setPhase s c.id .running) claimed 0) 7).isSome = true) := by
  unfold Taken Passes; decide +kernel

/-- A command in a phase. -/
def inPhase (p : Phase) : Cmd := { cmd 0x20 [] with phase := p, checked := true }

/-- A range-lock entry that command 3 waits for. -/
def lockWait : State :=
  let s := serving [inPhase (.waiting .rangeLock)] []
  { s with
    index := { s.index with
      locks := [{ cmd := 2, kv := false, obj := 7, lo := 0, hi := 99, held := true },
        { cmd := 3, kv := false, obj := 7, lo := 100, hi := 100, held := false }] } }

def done : Completion :=
  { cmd := 3, sq := 1, tag := 77, status := 0, flags := 4, info32 := 0, infoA := 0, infoB := 0 }

theorem wit_LiveIndexWaitsEnd :
    (∀ w ∈ [Wait.change, .patchLog, .staging, .compact, .repair, .migrate, .kvBusy, .linkPool, .drain,
      .power], findCmd (serving [inPhase (.waiting w)] []) 3 = some (inPhase (.waiting w))) ∧
    (findCmd lockWait 3 = some (inPhase (.waiting .rangeLock)) ∧
      ((lockOf lockWait 3).map fun l => (l.held, lockFree lockWait l)) = some (false, true)) ∧
    findCmd (serving [inPhase (.sealing done)] []) 3 = some (inPhase (.sealing done)) := by
  decide +kernel

def nand (b : Brick) : State :=
  let s := (srch 0x10 []).1
  { s with bricks := modAt s.bricks (brickOf 0) fun _ => b }

theorem wit_NandProgramsDiesAndRefreshes :
    (let s := nand {
       programs := [{ cmd := none, course := 0, bytes := 0, started := true }], refresh := [(7, 0)] }
     s.bricks.length = 64 ∧
     (s.bricks.getD (brickOf 0) {}).programs.find? (·.started) =
       some { cmd := none, course := 0, bytes := 0, started := true } ∧
     (s.bricks.getD (brickOf 0) {}).deadDies.contains 7 = false ∧
     (s.bricks.getD (brickOf 0) {}).refresh = [(7, 0)] ∧ findColl s 7 = some filled ∧
     (findBlock filled 0).isSome = true) := by
  decide +kernel

/-! ### Key-value memory (R227 to R270) -/

/-- A sequence 9 of one head of 32 dimensions in E4M3, its table and summaries in course 0. -/
def seqDesc9 (policy : Nat) : List Byte :=
  struct 64 [(4, 4, 9), (8, 1, 1), (9, 1, 1), (10, 2, 32), (12, 1, 4), (14, 1, policy), (16, 1, 1),
    (20, 4, 128)]

/-- `n` pages, each in STATE `st`, and the tokens that fill them. -/
def seq9 (policy n st : Nat) : KvSeq :=
  { id := 9, desc := seqDesc9 policy, len := 256 * n
    pages := (List.range n).map fun p => { head := 0, page := p, st := st, loc := 0x3FE400000 + p * 16384 }
    units := [(0x3FE000000, 1024), (0x3FE200000, 10240)] }

def withSeq (q : KvSeq) (x : State × Cmd) : State × Cmd :=
  ({ x.1 with kv := { x.1.kv with seqs := [q] } }, x.2)

/-- A key-value command with its block. -/
def kvOp (op n : Nat) (fs : List (Nat × Nat × Nat)) : State × Cmd :=
  let c := cmd op [(48, 8, 0x1000), (32, 8, 0x100000), (40, 4, 4096)]
  (serving [c] [(0x1000, struct n ([(4, 4, 9)] ++ fs))], c)

def kvNew : State × Cmd :=
  let c := cmd 0x30 [(48, 8, 0x1000)]
  (serving [c] [(0x1000, seqDesc9 0)], c)

/-- The premises of a command of R261. -/
def evictReady (x : State × Cmd) (mine : Cmd → Bool) (q : KvSeq) : Prop :=
  x.1.lintel.withheld = false ∧ Evicts x.1 1 mine x.2 q

theorem wit_KvCreateAndDestroy :
    (let s := kvNew.1
     let c := kvNew.2
     let d := kvBlock s c 64
     let h := withLock (begun s c []) (pageLock c (kvSeqId d) 0 allPages)
     Taken s 1 (opIs 0x30) c ∧
     Passes s (fun _ c => descErr c 64) (fun _ c => [{ addr := entDesc c, len := 64 }])
       (fun s c => kvDescErr s (kvBlock s c 64)) noSlots c ∧
     LockAtOnce s (pageLock c (kvSeqId d) 0 allPages) ∧ findSeq s (kvSeqId d) = none ∧
     (allotKv h d).isSome = true ∧ kvKey d = 0 ∧ s.lintel.entropyFault = false) ∧
    evictReady (withSeq (seq9 0 66 1) (kvOp 0x36 32 [])) (opIs 0x36) (seq9 0 66 1) := by
  unfold evictReady Evicts LockAtOnce Taken Passes; decide +kernel

/-- KV_APPEND of one BF16 token after one full page, and after none. -/
def appending (n : Nat) : State × Cmd :=
  withSeq (seq9 0 n 1) (kvOp 0x31 32 [(8, 2, 1), (10, 1, 1), (16, 8, 256 * n), (24, 8, 0x2000)])

theorem wit_KvAppendStoresItsTokens : ∀ n ∈ [0, 1],
    let s := (appending n).1
    let c := (appending n).2
    let x := seq9 0 n 1
    let d := kvBlock s c 32
    let T := appTokens d
    let pages := headPages (kvHeads x.desc) (pagesOf x.len (x.len + T))
    let lk := pageLock c x.id (x.len / 256) ((x.len + T - 1) / 256)
    let h := withLock (updCmd (begun s c []) c.id fun y => { y with
      born := some 0, after := [], lens := [x.len] }) lk
    let s1 := (framePages (some (.cmd c.id)) x.id h pages).getD s
    let x1 := (findSeq s1 x.id).getD x
    Taken s 1 (opIs 0x31) c ∧
    Passes s (fun _ c => descErr c 32) (fun _ c => [{ addr := entDesc c, len := 32 }]) appErr noSlots
      c ∧ c.born = none ∧
    x.id = kvSeqId d ∧ findSeq s x.id = some x ∧ LockAtOnce s lk ∧ getLE d 16 8 = x.len ∧
    x.len + T ≤ 2 ^ 32 ∧ x.len + T ≤ 256 * kvMax x.desc ∧ s.lintel.withheld = false ∧
    (∀ p ∈ pages, pageSt x p.1 p.2 ≠ 3) ∧ pages ≠ [] ∧
    (∀ r ∈ (bulkOf x pages).flatMap (bulkParts x.desc), c.loaded.contains (bulkKey r) = true) ∧
    (framePages (some (.cmd c.id)) x.id h pages).isSome = true ∧
    (findSeq s1 x.id).isSome = true ∧
    reachRanges s1 c.loaded ({ addr := getLE d 24 8, len := appBytes d x.desc } ::
      frameRanges x1 true pages) = none := by
  unfold LockAtOnce Taken Passes; decide +kernel

/-- One token in an uncommitted page, and KV_ATTEND of one row of one item over it. -/
def short9 : KvSeq := { seq9 0 1 1 with len := 1 }
def attending : State × Cmd :=
  let c := cmd 0x32 [(48, 8, 0x1000), (32, 8, 0x100000), (40, 4, 4096)]
  withSeq short9 (serving [c] [(0x1000, struct 64 [(4, 2, 1), (16, 4, 0x3F800000), (24, 8, 0x2000),
    (32, 8, 0x3000)]), (0x2000, lay 32 [(0, 4, 9), (6, 2, 1), (16, 4, 0xFFFFFFFF)])], c)

/-- An item whose share has run, merged or not. -/
def item (m : Option (List Byte)) : AttendItem :=
  { cmd := 3, idx := 0, seq := 9, head := 0, rows := 1, gq := 1, attended := 1, selected := 0,
    candidates := 0, dropped := 0, nonfinite := false, slabPath := false, ref := 0, selMass := 0,
    leftMass := 0, leftExact := 0, leftSpecial := 0, home := 0, outBf16 := false,
    shares := [[{ m := 0, l := 0x3F800000, o := List.replicate 32 0 }]], masses := [], merged := m }

def itemState (m : Option (List Byte)) : State :=
  { attending.1 with
    sched := { attending.1.sched with cmds := [{ attending.2 with phase := .running, checked := true }] }
    kv := { attending.1.kv with items := [item m] } }

theorem wit_KvAttendRunsAndMerges :
    (let s := attending.1
     let c := attending.2
     let b0 := begun s c (attendSlots s c)
     let a := attendHead (kvBlock b0 c 64)
     let lens := (List.range a.items).map fun i => ((findSeq b0 (itemIn b0 a i).seq).map (·.len)).getD 0
     let b := updCmd b0 c.id fun x => { x with born := some 0, after := [], lens := lens }
     let ks := (itemCtxs b a lens).zipIdx
     Taken s 1 (opIs 0x32) c ∧
     Passes s (fun _ c => descErr c 64) attendRanges attendErr attendSlots c ∧ c.born = none ∧
     evictsOn b0 (attendSeqs b0 (ran c)) = [] ∧ lens = [1] ∧
     attendGone b { ran c with born := some 0, after := [], lens := lens } = none ∧
     ks.length = 1 ∧ (swappedPage b ks).isNone = true ∧ s.lintel.withheld = false ∧
     reachRanges b c.loaded (ks.flatMap fun k => itemRanges b k.1 k.2) = none ∧
     (∀ k ∈ ks, ∀ r ∈ (bulkOf k.1.q (itemPages b k.1 k.2)).flatMap (bulkParts k.1.q.desc),
       c.loaded.contains (bulkKey r) = true)) ∧
    ((findCmd (itemState none) 3).isSome = true ∧ nextItem (itemState none) 3 = some (item none) ∧
      groutOn (itemState none) (item none).home = true) ∧
    (∀ x ∈ (itemState (some [])).kv.items.filter (·.cmd == 3),
      x.merged ≠ none ∧ x.emptyRow = false) := by
  unfold Taken Passes; decide +kernel

def evict66 (policy op st : Nat) (fs : List (Nat × Nat × Nat)) : State × Cmd :=
  withSeq (seq9 policy 66 st) (kvOp op 32 fs)

def oneOf (x : State × Cmd) (c : Cmd) : Bool := opIs 0x33 c && !isAll x.1 c
def allOf (x : State × Cmd) (c : Cmd) : Bool := opIs 0x33 c && isAll x.1 c
def framesOf (q : KvSeq) : List Range :=
  (q.pages.filter (·.st == 1)).map fun p => { addr := p.loc, len := kvFrame q.desc, kind := 2 }

theorem wit_EvictionsMoveTheirPages_evict : ∀ policy ∈ [0, 1],
    let x := evict66 policy 0x33 1 [(8, 2, 0xFFFF), (12, 4, 1)]
    let q := seq9 policy 66 1
    let h := evictState x.1 x.2 9
    evictReady x (oneOf x) q ∧ ((evictHead q 1 0).map (·.page)) = [1] ∧
    bit (byteAt q.desc 14) 0 = (policy == 1) ∧
    bulkInUse h + bulkPages q.desc 1 ≤ bulkShare h ∧
    reachRanges h [] ((evictHead q 1 0).map fun p =>
      { addr := p.loc, len := kvFrame q.desc, kind := 2 }) = none := by
  unfold evictReady Evicts LockAtOnce Taken Passes; decide +kernel

theorem wit_EvictionsMoveTheirPages_all :
    let x := evict66 0 0x33 1 [(10, 1, 1)]
    let q := seq9 0 66 1
    let h := evictState x.1 x.2 9
    evictReady x (allOf x) q ∧ (∀ p ∈ q.pages, p.st ≠ 3) ∧
    bulkInUse h + bulkPages q.desc 66 + roundUp (72 + (q.units.map (·.2)).sum) 16384 ≤ bulkShare h ∧
    reachRanges h [] (framesOf q) = none := by
  unfold evictReady Evicts LockAtOnce Taken Passes; decide +kernel

/-- KV_SWAP_IN of Bulk pages that its command has read. -/
def swapIn66 : State × Cmd :=
  let x := evict66 0 0x35 2 [(10, 1, 1)]
  let c := { x.2 with
    loaded := ((seq9 0 66 2).pages.flatMap (bulkParts (seqDesc9 0))).map bulkKey }
  ({ x.1 with sched := { x.1.sched with cmds := [c] } }, c)

theorem wit_EvictionsMoveTheirPages_swap :
    (let x := evict66 0 0x34 1 [(16, 8, 0x1000000000000), (24, 8, 66 * 16384)]
     let y : State × Cmd := ({ x.1 with uzone := { x.1.uzone with exposed := 2 ^ 40 } }, x.2)
     let q := seq9 0 66 1
     evictReady y (opIs 0x34) q ∧ 66 * kvFrame q.desc ≤ getLE (kvBlock y.1 y.2 32) 24 8 ∧
     reachRanges (evictState y.1 y.2 9) [] (framesOf q ++
       [{ addr := 0x1000000000000, len := 66 * kvFrame q.desc, kind := 2, write := true }]) = none) ∧
    (let q := seq9 0 66 2
     let x := swapIn66
     evictReady x (opIs 0x35) q ∧
     (∀ r ∈ q.pages.flatMap (bulkParts q.desc), x.2.loaded.contains (bulkKey r) = true) ∧
     (swapInPages (some (.cmd 3)) 9 (evictState x.1 x.2 9) q.pages).isSome = true) := by
  unfold evictReady Evicts LockAtOnce Taken Passes; decide +kernel

/-! ### Hod and Plumb (R306 to R341) -/

/-- A stream of two tiles of 64 bytes. -/
def hodDesc (fs : List (Nat × Nat × Nat)) : List Byte :=
  struct 128 ([(4, 1, 2), (5, 1, 1), (6, 1, 0xFF), (16, 8, 0x2000), (24, 8, 0x8000), (32, 4, 64),
    (48, 4, 2), (52, 6, 64), (58, 6, 64)] ++ fs)

def hodOp (op : Nat) (d : List Byte) : State × Cmd :=
  let c := cmd op [(48, 8, 0x1000), (32, 8, 0x100000), (40, 4, 512)]
  (serving [c] [(0x1000, d)], c)

/-- Two stages joined by a private link of two slots. -/
def chain : State × Cmd :=
  hodOp 0x51 (struct 64 [(2, 2, 352), (4, 1, 2), (5, 1, 1)] ++ hodDesc [(7, 1, 2), (24, 8, 0), (58, 6, 0)] ++
    hodDesc [(7, 1, 1), (16, 8, 0), (52, 6, 0)] ++ lay 32 [(2, 1, 2), (8, 4, 64), (16, 8, 0x10000)])

def hodStream1 := hodOp 0x50 (hodDesc [])
def plumbScan := hodOp 0x52 (struct 32 [(4, 1, 3), (16, 8, 0x2000), (24, 8, 4097)])

def hodReady (x : State × Cmd) : Prop :=
  x.2.id ∉ x.1.hod.order ∧ streamsOf x.1 x.2.id = [] ∧ (∀ y ∈ x.1.hod.descs, y.1 ≠ x.2.id) ∧
  (∀ l ∈ x.1.hod.links, (l.producer.map (·.1)) ≠ some x.2.id ∧ (l.consumer.map (·.1)) ≠ some x.2.id)

theorem wit_HodCommandsBindTheirStages_stream :
    let s := hodStream1.1
    let c := hodStream1.2
    hodReady hodStream1 ∧ Taken s 1 (opIs 0x50) c ∧
    Passes s (fun _ c => firstErr [resultErr c, descErr c 128])
      (fun _ c => [{ addr := entDesc c, len := 128 }])
      (fun s c => streamErr (streamDesc s c) none 1 0)
      (fun _ c => oneSlot 32 c) c ∧
    hTap (readBytes (begun s c (oneSlot 32 c)).mem (entDesc c) 128) = false ∧
    byteAt (readBytes (begun s c (oneSlot 32 c)).mem (entDesc c) 128) 7 % 8 = 0 := by
  unfold hodReady Taken Passes; decide +kernel

theorem wit_HodCommandsBindTheirStages_chain :
    let s := chain.1
    let c := chain.2
    let b0 := begun s c (oneSlot (16 + 16 * chStages (chainDesc s c)) c)
    let d := chainDesc b0 c
    let b := inOrder b0 c d
    hodReady chain ∧ Taken s 1 (opIs 0x51) c ∧
    Passes s (fun _ c => firstErr [resultErr c, descErr c 64])
      (fun s c => [{ addr := entDesc c, len := chBytes (readBytes s.mem (entDesc c) 64) }])
      (fun s c => chainErr s (chainDesc s c))
      (fun s c => oneSlot (16 + 16 * chStages (chainDesc s c)) c) c ∧
    ChainStarts b (ran c) d := by
  refine ⟨by unfold hodReady; decide +kernel, by unfold Taken; decide +kernel,
    by unfold Passes; decide +kernel, by unfold ChainStarts; decide +kernel⟩

theorem wit_HodCommandsBindTheirStages_scan :
    let s := plumbScan.1
    let c := plumbScan.2
    hodReady plumbScan ∧ Taken s 1 (opIs 0x52) c ∧
    Passes s (fun _ c => descErr c 32) (fun _ c => [{ addr := entDesc c, len := 32 }]) scanErr
      noSlots c ∧
    (unitAt s (byteAt (scanDesc s c) 4)).busy = false ∧ s.hod.order = [] ∧
    widthOk (unitAt s (byteAt (scanDesc s c) 4)) = true ∧ s.plumb.units.length = 4 := by
  unfold hodReady Taken Passes; decide +kernel

/-- A stream of engine 3, with tiles in flight. -/
def stream3 (fl : List Nat) : Stream :=
  { id := 5, cmd := 3, stage := 0, engine := 3, urgent := false, desc := hodDesc [], inFlight := fl
    nextIssue := fl.length, nextDeliver := 0, taken := fl.length, count := 2, tileBytes := 64 }

def streaming (fl : List Nat) : State :=
  let s := serving [{ cmd 0x50 [] with phase := .running, checked := true }] [(0x2000, [1, 2, 3])]
  { s with hod := { s.hod with streams := [stream3 fl], order := [3] } }

theorem wit_HodTilesAreIssuedAndDelivered :
    (let s := streaming []
     engineOn s 3 = true ∧ (stream3 []).own = none ∧ tilesInFlight s 3 < 8 ∧
     nextToIssue s 3 = some (stream3 []) ∧ (findCmd s 3).isSome = true ∧
     (stream3 []).plumb = none ∧ headSize s (stream3 []) = none ∧ issueBlock s (stream3 []) = none) ∧
    (let s := streaming [0]
     let t := stream3 [0]
     memWf s.mem = true ∧ engineOn s 3 = true ∧ t.own = none ∧ t.st = 0 ∧ t.sent = false ∧
     findStream s 5 = some t ∧ t.inFlight = [0] ∧ (findCmd s 3).isSome = true ∧
     t.srcLink = none ∧ t.dstLink = none ∧ t.dstLink2 = none ∧ t.plumb = none ∧ t.plumbBytes = none ∧
     srcRuns s t 0 = [(0x2000, 64)] ∧ dstRuns t 0 = [(0x8000, 64)] ∧
     (∀ x ∈ spanUnits 0x8000 64, homeOf s x = .stack x) ∧ writesOut s (.stream 5) = false ∧
     0 + 1 < t.count ∧ reachRanges s (tileUnits s t 0) (tileRanges s t 0) = none) := by
  decide +kernel

/-- The chain once it runs, and while it waits. -/
def waitingChain (w : Wait) : State :=
  { chain.1 with
    hod := { chain.1.hod with order := [3], descs := [(3, chainDesc chain.1 chain.2)] }
    sched := { chain.1.sched with cmds := [{ chain.2 with phase := .waiting w, checked := true }] } }

/-- A stage that waits on a link whose producer has ended. -/
def stalled : State :=
  let s := serving [{ cmd 0x50 [] with phase := .running, checked := true }] []
  { s with
    sched := { s.sched with watchdog := 500 }
    hod := { s.hod with
      streams := [{ stream3 [] with srcLink := some 0, desc := hodDesc [(7, 1, 1)], lastTime := 500000 }]
      links := [{
      id := 0, key := 7, slots := 2, slotBytes := 64, buffer := 0x10000, free := 2, filled := 0,
        consumer := some (3, 0), prodEnded := true }] } }

/-- The chain while it waits for its unit 3 with its link taken. -/
def linked : State :=
  let s := waitingChain (.plumb 3)
  let c := { chain.2 with phase := .waiting (.plumb 3), checked := true }
  takeLink (chainDesc chain.1 chain.2) c s 0

theorem wit_HodWaitsAndWatchdog :
    (∀ w ∈ [Wait.linkPool, .plumb 3], ∃ c, findCmd (waitingChain w) 3 = some c ∧ opIs 0x51 c = true ∧
      c.phase = .waiting w ∧ ChainStarts (waitingChain w) c (Machine.hodDesc (waitingChain w) 3)) ∧
    ((findCmd linked 3).map (fun c => (opIs 0x51 c, c.phase)) = some (true, .waiting (.plumb 3)) ∧
      (∃ l ∈ linked.hod.links, (l.producer.map (·.1)) = some 3 ∨ (l.consumer.map (·.1)) = some 3) ∧
      busyUnit linked 3 (chainUnits (Machine.hodDesc linked 3)) = none ∧
      (∀ v ∈ chainUnits (Machine.hodDesc linked 3), widthOk (unitAt linked v) = true)) ∧
    (∃ t l, findStream stalled 5 = some t ∧ t.cmd = 3 ∧ (findCmd stalled 3).isSome = true ∧
      stalled.sched.watchdog ≠ 0 ∧ waitsOn stalled t = [(l, true)] ∧ l.prodEnded = true ∧
      t.lastTime + watchNs stalled ≤ now stalled) := by
  refine ⟨?_, by decide +kernel, _, _, rfl, rfl, rfl, by decide, rfl, rfl, by decide +kernel⟩
  intro w h
  simp only [List.mem_cons, List.not_mem_nil, or_false] at h
  rcases h with rfl | rfl <;>
    exact ⟨_, rfl, by decide +kernel, by decide +kernel, by unfold ChainStarts; decide +kernel⟩

/-! ### Tiers (R271 to R305) -/

/-- A MIGRATE of two units from 0x20000000 on. -/
def mig (act n dest : Nat) : State × Cmd :=
  let c := cmd 0x53 [(48, 8, 0x1000)]
  let s := serving [c] [(0x1000, struct 32 [(4, 1, act), (8, 4, n),
    (16, 8, 0x20000000), (24, 8, dest)])]
  (if act = 1 then s
   else { s with
     tiers := { s.tiers with
       entries := [{ unit := 0x20000000, home := .stack 0x20000000 },
         { unit := 0x20200000, home := .stack 0x20200000 }] } }, c)

def migReady (x : State × Cmd) : Prop :=
  let d := readBytes x.1.mem (entDesc x.2) 32
  memWf x.1.mem = true ∧ movingElsewhere (begun x.1 x.2 []) (migUnits d) = false ∧
  migUnitErr (begun x.1 x.2 []) d = none ∧ Passes x.1 migPre migRange migCheck noSlots x.2

theorem wit_MigrateActsOnItsUnitsAlone :
    (migReady (mig 1 2 0) ∧ Taken (mig 1 2 0).1 1 (isMigrate (mig 1 2 0).1 1) (mig 1 2 0).2) ∧
    (migReady (mig 2 1 0) ∧ Taken (mig 2 1 0).1 1 (isMigrate (mig 2 1 0).1 2) (mig 2 1 0).2) ∧
    (migReady (mig 3 2 0) ∧ Taken (mig 3 2 0).1 1 (isMigrate (mig 3 2 0).1 3) (mig 3 2 0).2) ∧
    (migReady (mig 4 2 0) ∧ Taken (mig 4 2 0).1 1 (isMigrate (mig 4 2 0).1 4) (mig 4 2 0).2) := by
  unfold migReady Passes Taken; decide +kernel

/-- A MOVE of which `done` units of two are done. -/
def movingState (done : Nat) : State :=
  let x := mig 0 2 0x20400000
  { x.1 with
    sched := { x.1.sched with cmds := [{ x.2 with phase := .running, checked := true }] }
    tiers := { x.1.tiers with
      migrations := [{
      cmd := 3, tier := 0, source := 0x20000000, dest := 0x20400000, units := 2,
        done := done, sent := true }] } }

theorem wit_MigrateMovesUnitByUnit :
    (let x := mig 0 2 0x20400000
     migReady x ∧ x.1.lintel.withheld = false ∧ findMove x.1 3 = none ∧ Taken x.1 1 (isMove x.1) x.2) ∧
    (∀ done ∈ [0, 1], ∃ m c, findMove (movingState done) 3 = some m ∧
      m.cmd = 3 ∧ m.done = done ∧ m.units = 2 ∧ m.sent = true ∧ findCmd (movingState done) 3 = some c ∧
      opIs 0x24 c = false ∧ (movingState done).uzone.heldDev = [] ∧
      accessOut (movingState done) (.cmd 3) true = false ∧
      oldHomeBusy (movingState done) (moveUnit m) = false) := by
  refine ⟨by unfold migReady Passes Taken; decide +kernel, ?_⟩
  intro done h
  simp only [List.mem_cons, List.not_mem_nil, or_false] at h
  rcases h with rfl | rfl <;> exact ⟨_, _, rfl, rfl, rfl, rfl, rfl, rfl, by decide +kernel, rfl,
    by decide +kernel, by decide +kernel⟩

/-- Command 3, or stream 5, waits for a unit with FAULT_ON set, or, with `f` false, for one with it clear
again. -/
def faulting (f : Bool) (w : Who) (opened : Nat) : State :=
  let c : Cmd := { cmd 0x10 [] with phase := .waiting (.tier 0x20000000), checked := true }
  let s := serving [c] []
  { s with
    tiers := { s.tiers with
      timeout := 500
      entries := [{ unit := 0x20000000, home := .stack 0x20000000, faultOn := f }]
      faults := [{
      unit := 0x20000000, cause := 2, access := 0, stop := 1, opened := opened, number := 1,
        posted := true, waiters := [{ who := w, access := 0 }] }] } }

/-- The fault of `faulting`. -/
def fault3 (w : Who) (opened : Nat) : TierFault :=
  { unit := 0x20000000, cause := 2, access := 0, stop := 1, opened := opened, number := 1,
    posted := true, waiters := [{ who := w, access := 0 }] }

theorem wit_TierFaultEnds :
    (∀ w ∈ [Who.cmd 3, .stream 5], (faulting false w 0).tiers.faults = [fault3 w 0] ∧
      (0x20000000 : Addr).toNat = 0x20000000 ∧ resolvable (faulting false w 0) (fault3 w 0) = true) ∧
    resolvable (faulting true (.cmd 3) 0) (fault3 (.cmd 3) 0) = false ∧
    (let s := faulting true (.cmd 3) 500000
     s.tiers.faults = [fault3 (.cmd 3) 500000] ∧
     (findCmd s 3).map (·.phase) = some (.waiting (.tier 0x20000000)) ∧ s.tiers.timeout ≠ 0 ∧
     500000 + s.tiers.timeout * 1000 ≤ now s ∧ s.hod.order.contains 3 = false) ∧
    now (faulting true (.cmd 3) 500013) < 500013 + (faulting true (.cmd 3) 500013).tiers.timeout * 1000 := by
  decide +kernel

theorem wit_TierFaultQueueAndFarMemory :
    (let s := serving [] []
     RequestArrives s ∧ s.quoin.stage = 7 ∧ blockUp s .tier = true ∧
     (∀ f ∈ s.tiers.faults, f.posted = true) ∧ (0x1000 : BitVec 32).getLsbD 31 = s.tiers.enable) ∧
    (let s := serving [{ cmd 0x10 [] with phase := .waiting (.far 2), checked := true }] []
     (findCmd s 3).map (·.phase) = some (.waiting (.far 2)) ∧ s.uzone.heldDev = []) ∧
    (let s := { serving [] [] with tiers := { xfUp := [true, false, false, true] } }
     ∀ l ∈ [(0 : BitVec 2), 3], s.tiers.xfUp.getD l.toNat false = true ∧
       farOwners s l.toNat = [] ∧ s.uzone.heldDev = []) := by
  unfold RequestArrives; decide +kernel

/-! ### Uzone (R407 to R432) -/

/-- A flit with the control words given and an empty payload. -/
def flit (kind seq ack cls credits : Nat) : List Byte :=
  let body := leBytes 2 (kind * 4096 + seq) ++ leBytes 2 ack ++ leBytes 4 (cls * 2 ^ 30 + credits) ++
    zeros 240
  body ++ leBytes 8 (crc64 body)

/-- The link in a state, and what it keeps. -/
def withLink (l : Link) : State :=
  let s := serving [] []
  { s with uzone := { s.uzone with link := l } }

set_option maxRecDepth 100000 in
theorem wit_UzoneFlitsAndReplay :
    (let s := withLink {
       st := 2, kept := [{ seq := 4095, flit := [], msg := some (.intr 1) }]
       nakSeq := some 4095, nakRun := 6 }
     let f := flit 0 0 (0x8000 + 4095) 3 65535
     let l0 := takeCredits (flitClass f) (flitCredits f) (takeAck (flitAck f) (freshLink s.uzone.link))
     s.uzone.link.st = 2 ∧ s.uzone.heldDev = [] ∧
     (codeStep s.uzone.cwBits s.uzone.cwErrors (codewordErrors 16 [])).lost = false ∧
     (codeStep s.uzone.cwBits s.uzone.cwErrors (codewordErrors 16 [8, 8])).lost = true ∧
     (codeStep s.uzone.cwBits s.uzone.cwErrors (codewordErrors 16 [8, 7])).lost = false ∧
     flitOk f = true ∧ badMessage uzSlots f l0 = false ∧
     s.uzone.link.waiting = [] ∧ s.power.st ≠ 2 ∧ flitKind f = 0 ∧
     BitVec.ofNat 12 (flitSeq f) = s.uzone.link.rxNext ∧ flitOk (zeros 256) = false ∧
     s.uzone.uncorrectable < 0xFFFE ∧ s.uzone.checkErrors < 0xFFFE ∧ s.uzone.replays < 0xFFFE ∧
     s.uzone.link.nakSeq = some (4095 : BitVec 12).toNat ∧ s.uzone.link.nakRun + 1 < 8 ∧
     s.uzone.link.degraded = false ∧ s.uzone.retrains < 0xFFFE ∧ s.uzone.link.kept ≠ []) ∧
    (let s := withLink { st := 2, nakSeq := some 0, nakRun := 7 }
     s.uzone.link.st = 2 ∧ s.uzone.link.nakSeq = some (0 : BitVec 12).toNat ∧
     8 ≤ s.uzone.link.nakRun + 1) := by
  decide +kernel

/-- A parameter block with a version range and a session. -/
def params (lo hi session : Nat) : List Byte :=
  struct 64 [(4, 2, lo), (6, 2, hi), (8, 4, session), (16, 8, 2 ^ 48), (24, 2, 4096)]

theorem wit_UzoneTrainsAndExchangesParameters :
    (let s := withLink { st := 1, step := 4 }
     s.uzone.link.st = 1 ∧ (0x0101 : BitVec 16).toNat % 256 ≠ 0 ∧ (0x0101 : BitVec 16).toNat / 256 ≠ 0 ∧
     (0x8000 : BitVec 16).toNat % 256 = 0 ∧ (0x8000 : BitVec 16) ≠ 0 ∧ s.uzone.link.step ≤ 4 ∧
     s.uzone.link.degraded = false ∧ paramOk (params 0x100 0x102 7) = true ∧
     newSession s (params 0x100 0x102 7) = false ∧
     max (getLE (params 0x100 0x102 7) 4 2) (uzOffer s).1 ≤
       min (getLE (params 0x100 0x102 7) 6 2) (uzOffer s).2 ∧
     paramOk (params 0x200 0x200 0) = true ∧ newSession s (params 0x200 0x200 0) = false ∧
     min (getLE (params 0x200 0x200 0) 6 2) (uzOffer s).2 <
       max (getLE (params 0x200 0x200 0) 4 2) (uzOffer s).1) ∧
    (let s := withLink {}
     s.uzone.link.st = 0 ∧ s.power.domains.getLsbD 20 = true ∧ 6 ≤ s.quoin.stage) ∧
    (withLink { st := 4 }).uzone.link.st = 4 ∧ (withLink { st := 4 }).uzone.link.waiting = [] ∧
    (withLink { st := 5 }).uzone.link.st = 5 := by
  decide +kernel

/-- Requests of each kind that wait for the companion. -/
def asking : State :=
  let s := serving [] []
  { s with
    uzone := { s.uzone with
      reqs := [{ tag := 1, kind := 1, agent := 0, addr := 64 }, { tag := 2, kind := 2, agent := 1, addr := 0 },
        { tag := 4095, kind := 3, agent := 3, addr := 128,
          owner := some (.cmd 3) }]
      lines := [{ agent := 1, addr := 256, st := 3 }, { agent := 0, addr := 320, st := 1 }] } }

theorem wit_CompanionRequestsAndResponses :
    (let s := asking
     RequestArrives s ∧ memWf s.mem = true ∧ s.uzone.devAsked = false ∧ s.uzone.devFar = none ∧
     s.uzone.devFailed = none ∧ accessOut (awoken s) .dev true = false ∧
     devReach s (devRange 0x1FFFFFC0 1 false) = .ok ∧ devReach s (devRange 0 4 true) = .ok ∧
     devReach s (devRange 0 1 true) = .ok ∧
     (∀ u ∈ unitsOf (devRange 0 4 true), homeOf s u = .stack u) ∧
     devReach s (devRange 0xFFFFFFFFFFFC0 1 false) = .error 1 ∧
     devReach offCourse (devRange 0 1 false) = .hold ∧ RequestArrives offCourse ∧
     memWf offCourse.mem = true ∧ offCourse.uzone.devAsked = false ∧ offCourse.uzone.devFar = none ∧
     offCourse.uzone.devFailed = none ∧ accessOut (awoken offCourse) .dev true = false) ∧
    asking.uzone.link.st = 2 ∧ asking.uzone.out = [] ∧ asking.uzone.heldDev = [] ∧
    lineState asking.uzone 256 = 3 ∧ lineState asking.uzone 320 = 1 ∧ lineState asking.uzone 0 = 0 ∧
    ((asking.uzone.reqs.find? (·.tag == (1 : BitVec 12).toNat)).map (·.kind)) = some 1 ∧
    ((asking.uzone.reqs.find? (·.tag == (2 : BitVec 12).toNat)).map (·.kind)) = some 2 ∧
    ((asking.uzone.reqs.find? (·.tag == (4095 : BitVec 12).toNat)).map fun r => (r.kind, r.owner)) =
      some (3, some (.cmd 3)) ∧
    asking.uzone.link.waiting = [] := by
  unfold RequestArrives; decide +kernel

/-! ### Mortar (R439 to R474) -/

/-- Module 0 of a ring of three, with one Mortar port as given. -/
def ring (p : Nat) (q : Port) : State :=
  let s := serving [] []
  { s with
    power := { s.power with domains := 0xBFFFFF }
    mortar := { s.mortar with
      topology := 0x10000, control := 0x01, parentPort := p
      ports := modAt s.mortar.ports p fun _ => q } }

def upPort : Port := { link := { st := 2, credits := [64, 64] }, hello := true }

set_option maxRecDepth 100000 in
theorem wit_MortarPortsTrainAndCarryFlits :
    (let s := ring 0 { upPort with
       link := { upPort.link with kept := [{ seq := 0, flit := [], msg := some (.intr 1) }] } }
     let f := flit 0 0 0x8000 0 5
     let code := fun es => (codeStep (portAt s 0).cwBits (portAt s 0).cwErrors (codewordErrors 8 es)).lost
     code [15] = false ∧ code [15, 1] = true ∧
     s.mortar.ports.length = 8 ∧ Served s ∧ RequestArrives s ∧ (portAt s 0).link.st = 2 ∧
     flitOk f = true ∧
     flitKind f = 0 ∧ BitVec.ofNat 12 (flitSeq f) = (portAt s 0).link.rxNext ∧
     openFlit (portAt s 0) f = some f ∧ (portAt s 0).link.waiting = [] ∧ s.power.st ≠ 2 ∧
     flitOk (zeros 256) = false ∧ (portAt s 0).link.nakSeq = none ∧
     (portAt s 0).link.degraded = false ∧ (portAt s 0).link.kept ≠ [] ∧
     bit 0x81 7 = true ∧ bit (portEnable s) 7 = false ∧ bit 0 0 = false ∧ bit (portEnable s) 0 = true ∧
     s.power.domains.getLsbD 21 = true) ∧
    (let s := ring 0 { link := { st := 1, step := 2 } }
     (portAt s 0).link.st = 1 ∧ (0x11 : BitVec 8).toNat % 16 ≠ 0 ∧ (0x11 : BitVec 8).toNat / 16 ≠ 0) ∧
    (let s := ring 0 {}
     (portAt s 0).link.st = 0 ∧ bit (portEnable s) 0 = true ∧ s.power.domains.getLsbD 21 = true) := by
  unfold Served RequestArrives; decide +kernel

/-- A HELLO of module 1. -/
def helloBlock : List Byte := struct 32 [(4, 2, 1), (6, 2, 0x100), (8, 2, 0x101)]

theorem wit_MortarControlMessagesAndTransit :
    (let s := ring 0 { link := { st := 1, step := 5 } }
     s.mortar.ports.length = 8 ∧ (portAt s 0).link.st = 1 ∧ versionOk helloBlock 32 = true ∧
     (portAt s 0).aliveIn = none ∧
     farEnd s (fabNum s) 0 = some (getLE helloBlock 4 2 % 8192) ∧
     max (getLE helloBlock 6 2) (mortarOffer s).1 ≤ min (getLE helloBlock 8 2) (mortarOffer s).2 ∧
     encryptBit s 0 = false) ∧
    (let s := ring 0 { upPort with aliveIn := some 255 }
     ControlArrives s 0 0 ∧ s.mortar.links.contains (8191, 7) = false ∧ s.time.valid = true ∧
     s.mortar.isRoot = false ∧ 0 = s.mortar.parentPort ∧ portInService s s.mortar.parentPort = true ∧
     (∀ x ∈ s.mortar.ports, x.keyOut = none)) ∧
    (let s := { ring 0 upPort with mortar := { (ring 0 upPort).mortar with
       isRoot := true, links := [(1, 0)] } }
     ControlArrives s 0 9 ∧ s.mortar.links.contains (1, 0) = true ∧ s.time.valid = true ∧
     s.mortar.isRoot = true) ∧
    (let s := ring 0 { upPort with encrypted := true }
     portInService s 0 = true ∧ (portAt s 0).encrypted = true ∧ (portAt s 0).aliveIn = none ∧
     (1 : BitVec 32).toNat = (((portAt s 0).keyIn.map (·.1)).getD 0) + 1) ∧
    (let s := ring 1 upPort
     let m := lay 32 [(0, 1, 1), (2, 2, 1), (4, 2, 2)]
     portInService s 1 = true ∧ getLE m 2 2 % 8192 ≠ fabNum s ∧ byteAt m 0 < 0x20 ∧
     (transitTo s 1 false m).isSome = true) := by
  unfold ControlArrives; decide +kernel

def header0 (n a : Nat) (last : Bool) : MortarHeader :=
  { port := 0, dest := 0, source := 1, alive := 0, tag := 5, pairSeq := BitVec.ofNat 32 n, route := 0
    address := BitVec.ofNat 64 a, last := last }

/-- An export of one placed unit of the free-space partition, and the requests and pair numbers that stand open. -/
def exporting (m : Mortar → Mortar) : State :=
  let s := ring 0 upPort
  { s with
    mortar := m { s.mortar with exportReg := 0x8000000020000001 }
    tiers := { s.tiers with entries := [{ unit := 0x20000000, home := .stack 0x20000000 }] } }

def asked (k : Nat) (o : Option Owner) : State := exporting fun m => { m with
  reqs := [{ tag := 5, dest := 1, pairSeq := 0, kind := k, owner := o }] }

theorem wit_RemoteRequestsAndResponses :
    (let s := exporting id
     let w := { s with mortar := { s.mortar with
       ports := modAt s.mortar.ports 0 fun q => { q with link := linkWake q.link } } }
     ArrivesInTurn s (header0 0 2097151 true) ∧ remoteReach w 2097151 1 false = .ok ∧
     remoteReach w 2097151 1 true = .ok ∧ (header0 0 2097151 true).last = true ∧
     s.mortar.pieces = [] ∧ notServing s = false) ∧
    (∀ k ∈ [1, 2, 3], ∀ o ∈ [Owner.cmd 3, .fan 0], let s := asked k (some o)
     Arrives s (header0 0 0 true) ∧ Arrives s (header0 0 0 false) ∧
     ((reqOf s (header0 0 0 true)).map fun r => (r.kind, r.owner, r.held)) = some (k, some o, false) ∧
     s.mortar.backoffs = [] ∧ s.mortar.pieces = [] ∧ s.tiers.enable = false) ∧
    (exporting fun m => { m with backoffs := [(1, 7)] }).mortar.backoffs = [((1 : BitVec 13).toNat, 7)] ∧
    (let s := { asked 1 none with mortar := { (asked 1 none).mortar with timeout := 1000 } }
     (s.mortar.reqs.find? (·.tag == (5 : BitVec 32).toNat)).map (fun r => (r.sent, r.held)) =
       some (0, false) ∧
     s.mortar.timeout ≠ 0 ∧ 0 + s.mortar.timeout * 1000 ≤ now s) := by
  unfold ArrivesInTurn Arrives; decide +kernel

/-! ### Quoin, Lintel and the pins (R477 to R535, R572 to R584) -/

/-- A mailbox request. -/
def ask (op a0 a1 a2 : Nat) (payload : List Byte := []) : List Byte :=
  lay 32 [(1, 1, 1), (2, 2, 32 + payload.length), (4, 1, op), (8, 8, a0), (16, 8, a1), (24, 8, a2)] ++ payload

/-- A module whose GO has taken a request from MAILBOX_BUFFER. -/
def gone (req : List Byte) : State :=
  let s := serving [] []
  { s with
    quoin := { s.quoin with
      mailbox := putBuffer [] 0 req, goPending := true, mbState := 1, mbRequest := req } }

/-- A module with something in Lintel. -/
def sealedBy (f : Lintel → Lintel) : State :=
  let s := serving [] []
  { s with lintel := f s.lintel }

theorem wit_ResetKeepsWhatR494Keeps :
    (let s := changed { coll := 7, slot := 0, vid := 100, ins := 5 }
     ∀ e ∈ s.index.changes, passed s.epochs.floor e = false) ∧
    (let s := (withSeq { seq9 0 1 2 with image := some (256, []) } (kvOp 0x36 32 [])).1
     ∀ x ∈ s.kv.seqs, x.image ≠ none) := by
  decide +kernel

/-- A request over SMBus meets what a clause asks. -/
def Asked (s : State) (op : Nat) (req : List Byte) : Prop := Requested s (.smbus req) op req true

theorem wit_QuoinMailboxRequests :
    (let req := ask 0x01 0xA0100 8 0
     Requested (gone req) .uzone 0x01 req false ∧ rArg req 1 = 8) ∧
    (let req := ask 0x02 0x600 4 5
     Asked (serving [] []) 0x02 req ∧ rArg req 1 = 4 ∧
     valueRefused (mailStart (serving [] []) true req) 0x600 false 5 = false) ∧
    (let req := ask 0x02 0x70000 8 0xC000000000000000
     Asked (serving [] []) 0x02 req ∧ rArg req 1 = 8 ∧
     valueRefused (mailStart (serving [] []) true req) 0x70000 true 0xC000000000000000 = true) ∧
    (let req := ask 0x10 65472 64 0 (zeros 64)
     Asked (serving [] []) 0x10 req ∧ stageErr req 65536 = none ∧
     (let m := mailStart (serving [] []) true req
      reachRanges m m.quoin.mbGot (stageRanges req) = none)) ∧
    (let req := ask 0x21 0 1 0 [7]
     Requested (gone req) .uzone 0x21 req false ∧
     stageErr req 65536 = none ∧
     (let m := mailStart (gone req) false req
      reachRanges m m.quoin.mbGot (stageRanges req) = none)) ∧
    Asked (serving [] []) 0x11 (ask 0x11 65536 1 0) ∧
    (∀ drain ∈ [0, 1], let req := ask 0x20 0 drain 0
     Asked (serving [] []) 0x20 req ∧ (bit (rArg req 1) 0 = false ∨ bit (rArg req 1) 0 = true) ∧
     (mailStart (serving [] []) true req).sched.cmds = []) ∧
    (let req := ask 0x20 0 1 0
     let s := serving [cmd 0x01 []] []
     Asked s 0x20 req ∧ bit (rArg req 1) 0 = true ∧ (mailStart s true req).sched.cmds ≠ []) ∧
    (let req := ask 0x22 0 0 0
     Asked (serving [] []) 0x22 req ∧ auditOk (mailStart (serving [] []) true req) = true) ∧
    (let req := ask 0x30 0 0 0
     Asked (serving [] []) 0x30 req ∧ auditOk (mailStart (serving [] []) true req) = true) ∧
    Asked (serving [] []) 0x31 (ask 0x31 0 0 0) ∧
    (∀ op ∈ [0x20, 0x11], let s := serving [] []
     let t := { s with quoin := { s.quoin with drain := some 5, mbOpcode := op } }
     t.quoin.drain ≠ none ∧ t.quoin.mbOpcode = op) := by
  unfold Asked Requested; and_intros <;> decide +kernel

theorem wit_LintelMailboxRequests_staging :
    (let req := ask 0x40 32704 64 0 (zeros 64)
     Asked (serving [] []) 0x40 req ∧ stageErr req 32768 = none ∧
     (let m := mailStart (serving [] []) true req
      reachRanges m m.quoin.mbGot (stageRanges req) = none)) ∧
    (∀ n ∈ [1, 4064], let req := ask 0x41 1 (32768 - n) n
     Asked (serving [] []) 0x41 req ∧ rArg req 0 = 1 ∧ 1 ≤ rArg req 2 ∧ rArg req 2 ≤ 4064 ∧
     rArg req 1 + rArg req 2 ≤ 32768) ∧
    (let req := ask 0x41 0 0 4064
     Asked (serving [] []) 0x41 req ∧ rArg req 0 = 0 ∧ 1 ≤ rArg req 2 ∧ rArg req 2 ≤ 4064) ∧
    (let req := ask 0x42 0 0 0 (zeros 32)
     Asked (serving [] []) 0x42 req ∧ (rPayload req).length = 32) ∧
    (let req := ask 0x43 1 0 0
     let s := sealedBy fun l => { l with fwRollback := 128, fwCounter := 128 }
     Asked s 0x43 req ∧ rArg req 0 = 1 ∧ (mailStart s true req).lintel.fwRollback ≤ 128 ∧
     (mailStart s true req).lintel.fwRollback ≤ (mailStart s true req).lintel.fwCounter) ∧
    (let req := ask 0x43 1 0 0
     let s := sealedBy fun l => { l with fwRollback := 128, fwCounter := 127 }
     Asked s 0x43 req ∧ rArg req 0 = 1 ∧ (mailStart s true req).lintel.fwRollback ≤ 128 ∧
     (mailStart s true req).lintel.fwCounter < (mailStart s true req).lintel.fwRollback ∧
     auditOk (mailStart s true req) = true) ∧
    (let req := ask 0x43 2 0 0
     let i := lay 64 [(12, 4, 128)]
     let s := { sealedBy id with quoin := { (sealedBy id).quoin with active := some i } }
     Asked s 0x43 req ∧ rArg req 0 = 2 ∧ (mailStart s true req).quoin.active = some i ∧
     (mailStart s true req).lintel.bondCounter < getLE i 12 4 ∧ getLE i 12 4 ≤ 128 ∧
     auditOk (mailStart s true req) = true) := by
  unfold Asked Requested; and_intros <;> decide +kernel

theorem wit_LintelMailboxRequests_keys :
    (let req := ask 0x44 0 0 0
     Asked (sealedBy id) 0x44 req ∧ (mailStart (sealedBy id) true req).lintel.entropyFault = false) ∧
    (∀ scope ∈ [1, 2], let req := ask 0x45 0 0 0
     let t := lay 128 [(1, 1, 1), (2, 2, 128), (4, 1, scope), (8, 4, 86400)]
     let m := mailStart (sealedBy fun l => { l with inBuf := putBuffer [] 0 t }) true req
     Asked (sealedBy fun l => { l with inBuf := putBuffer [] 0 t }) 0x45 req ∧ m.time.valid = true ∧
     auditOk m = true ∧ inObjectBytes m 128 = t ∧ versionOk t 128 = true ∧
     (byteAt t 4 = 1 ∨ byteAt t 4 = 2) ∧ 1 ≤ getLE t 8 4 ∧ getLE t 8 4 ≤ 86400) ∧
    (∀ scope ∈ [0, 2], let req := ask 0x46 0 0 0
     let s := sealedBy fun l => { l with debug := scope }
     Asked s 0x46 req ∧ (mailStart s true req).lintel.debug = scope ∧
     auditOk (mailStart s true req) = true) ∧
    (let s := sealedBy fun l => { l with debug := 1, debugExpiry := 1000000 }
     s.lintel.debug ≠ 0 ∧ s.lintel.debugExpiry ≤ now s ∧ auditOk s = true) ∧
    (let s := sealedBy fun l => { l with challenge := some ([], 7) }
     let t := { s with time := { s.time with ns := 600000000019 } }
     t.lintel.challenge = some ([], 7) ∧ 7 + 600000000000 ≤ now t) ∧
    (let req := ask 0x47 0 0 0
     Asked (sealedBy id) 0x47 req ∧ auditOk (mailStart (sealedBy id) true req) = true) ∧
    (∀ h ∈ [1, 4095], let req := ask 0x48 h 0 0
     let s := sealedBy fun l => { l with keys := [(4095, [])] }
     Asked s 0x48 req ∧ 1 ≤ rArg req 0 ∧ rArg req 0 ≤ 4095 ∧
     handleUsed (mailStart s true req) (rArg req 0) = false ∧
     (mailStart s true req).lintel.keys.any (·.1 == rArg req 0) = (h == 4095) ∧
     auditOk (mailStart s true req) = true) ∧
    (let req := ask 0x49 0 0 0
     Asked (sealedBy id) 0x49 req ∧ auditOk (mailStart (sealedBy id) true req) = true) := by
  unfold Asked Requested; and_intros <;> decide +kernel

theorem wit_SmbusAndTestAccessPort :
    mailUp (serving [] []) = true ∧ ((1 : Byte) ≠ 0 ∧ (0xFE : Byte) ≠ 0xFF) ∧
    (∀ stage ∈ [0, 2, 8], let s := serving [] [] 
     let t := { s with quoin := { s.quoin with stage := stage } }
     t.power.aonOn = true ∧ scanAllowed t = true) ∧
    (serving [] []).power.aonOn = true ∧ scanAllowed (serving [] []) = false := by decide +kernel

/-! ### Power, boot and measurements (R536 to R590, R492 to R497) -/

/-- A module with something in its power state. -/
def powered (f : Power → Power) : State :=
  let s := serving [] []
  { s with power := f s.power }

/-- A module whose active image gives idle timers. -/
def timed : State :=
  let s := serving [] []
  { s with quoin := { s.quoin with active := some (lay 576 [(20, 2, 64), (96, 4, 5), (100, 4, 0xFFFFFFFF)]) } }

theorem wit_PowerStatesAreEnteredAndLeft :
    (∀ st ∈ [1, 2, 3], let s := powered fun p => { p with request := some 9, target := st }
     s.power.entering = none ∧ s.power.st = 0 ∧ s.power.request ≠ none ∧
     ∀ c ∈ s.sched.cmds, c.id ∉ s.power.waitFor) ∧
    (∀ st ∈ [1, 2], let s := powered fun p => { p with entering := some st }
     s.power.entering = some st ∧ s.power.request = none ∧ st ≠ 3) ∧
    (∀ st ∈ [1, 2, 3], let s := powered fun p => { p with st := st, wake := true }
     s.power.entering = none ∧ s.power.st ≠ 0 ∧ s.power.wake = true) ∧
    (isIdle timed = true ∧ timed.power.target = 0 ∧ timed.power.st = 0 ∧ bond timed 32 4 ≠ 0 ∧
     bond timed 36 4 ≠ 0) ∧
    (∀ st ∈ [1, 2], let s := powered fun p => { p with target := st }
     s.quoin.stage = 7 ∧ noCommands s = true ∧ s.power.entering = none ∧ s.power.st = 0 ∧
     (s.power.target = 1 ∨ s.power.target = 2) ∧ s.power.request = none) ∧
    (let s := powered fun p => { p with st := 3 }
     s.power.st = 3 ∧ s.power.entering = none) ∧
    (powered id).power.st ≠ 3 ∧
    (∀ d ∈ [0, 20, 21, 23], let s := ring 0 {}
     d < 24 ∧ (domainsIn s s.power.st).getLsbD d = true ∧ s.uzone.heldDev = [] ∧
     s.mortar.inbound = [] ∧ s.uzone.out = [] ∧ s.quoin.mbWait ≠ some .domain ∧
     (∀ r ∈ s.slab.gathers, r.waits ≠ some .domain)) ∧
    (powered fun p => { p with domains := 0 }).power.domains.getLsbD 21 = false ∧
    (ring 0 {}).power.domains.getLsbD 21 = true := by
  decide +kernel

theorem wit_MeasurementsAndHardwareEvents :
    (let s := { powered id with holdup := { bootTest := true } }
     s.quoin.stage = 7 ∧ s.holdup.testing = false ∧ s.holdup.bootTest = true) ∧
    (let s := { powered id with time := { ns := 86400000000012, valid := true } }
     s.quoin.stage = 7 ∧ s.holdup.testing = false ∧ s.holdup.testTime + 86400000000000 ≤ now s) ∧
    (∀ h ∈ [29999, 40000], let s := powered id
     let t := { s with holdup := { s.holdup with testing := true, health := h } }
     46000 < 48000 ∧ t.holdup.testing = true ∧ t.holdup.mailTest = false ∧
     (30000 ≤ min 0xFFFFF (10 ^ 13 / (48000 * 48000 - 46000 * 46000)) ∨ t.holdup.health < 30000)) ∧
    (∃ u, unitAtFrame (powered id) (unitOf ((1 : BitVec 3).toNat * stackBytes + 2 ^ 35 % stackBytes / 64 * 64)) =
       some u ∧ pinned (powered id) u = false) ∧
    (powered id).hw.deferred ≤ 0xFFFF := by
  refine ⟨?_, ?_, ?_, ⟨1 * stackBytes + 2 ^ 35, ?_⟩, ?_⟩ <;> decide +kernel

/-- What a boot finds. -/
def found (main rom : Bool) : BootFindings :=
  { romOk := rom, identityOk := true, stackFail := [], dieFail := [], xfMode := 0
    xfBytes := [0, 0, 0, 0], mainOk := main, flushMissing := none }

theorem wit_BootResetAndPowerLoss :
    (powered fun p => { p with aonOn := false }).power.aonOn = false ∧
    (let s := powered fun p => { p with mainOn := false }
     s.power.aonOn = true ∧ s.power.mainOn = false) ∧
    (found false true).mainOk = false ∧
    ((found true false).mainOk = true ∧ (found true false).romOk = false) ∧
    ((found true true).stackFail = [] ∧ (found true true).flushMissing = none ∧
     (found true true).dieFail = [] ∧ (powered id).epochs.closing = []) ∧
    ((powered id).power.aonOn = true ∧ (powered id).power.mainOn = true) := by decide +kernel

/-! ### The control space and time (R384 to R403, R591 to R601) -/

theorem wit_RegisterReadsAndWrites :
    (let s := ring 0 upPort
     Served s ∧ RequestArrives s ∧ s.quoin.stage = 7 ∧ s.power.domains.getLsbD 23 = true ∧
     mmioServed s 0x70000 = true ∧ mmioServed { s with quoin := { s.quoin with stage := 4 } } 0x600 = false ∧
     topologyOk 0xC000000000000000 = false ∧
     s.uzone.retrains ≤ 0xFFFF ∧ s.uzone.replays ≤ 0xFFFF ∧
     s.uzone.checkErrors ≤ 0xFFFF ∧
     s.uzone.uncorrectable ≤ 0xFFFF) ∧
    (let s := ring 0 upPort
     let t := { s with
       uzone := { s.uzone with
         retrains := 0xFFFF, replays := 0xFFFF, checkErrors := 0xFFFF, uncorrectable := 0xFFFF } }
     RequestArrives t ∧ t.uzone.retrains ≤ 0xFFFF ∧ t.uzone.replays ≤ 0xFFFF ∧
     t.uzone.checkErrors ≤ 0xFFFF ∧
     t.uzone.uncorrectable ≤ 0xFFFF) := by
  unfold Served RequestArrives; decide +kernel

theorem wit_FabricTimeCountsAndIsSetOnce :
    (∀ p ∈ [0, 2, 4], let s := ring 0 upPort
     let t := { s with time := { s.time with phase := p } }
     t.time.valid = true ∧ t.time.rate = 0 ∧ t.time.acc = 0 ∧ t.time.ns.toNat + 7 < 2 ^ 64 ∧
     t.time.phase < 5 ∧ Served t ∧ RequestArrives t) ∧
    (let s := ring 0 upPort
     let t := { s with time := { s.time with valid := false } }
     t.time.valid = false ∧ Served t ∧ RequestArrives t) ∧
    (let s := ring 0 { upPort with peer := 1 }
     let t := { s with time := { s.time with valid := false } }
     t.time.valid = false ∧ t.power.st = 0 ∧ t.power.entering = none ∧
     (setTimeRoot t).mortar.isRoot = false ∧ (setTimeRoot t).mortar.parentPort = 0 ∧
     portInService (setTimeRoot t) 0 = true ∧ auditOk (setTimeRoot t) = true) := by
  unfold Served RequestArrives; decide +kernel

/-! ### The whole block -/

theorem wit_StepRunsTheFrontCommand :
    (let s := { ring 0 upPort with pending := [Instr.powerControlWake, Instr.refclkLost] }
     s.pending = Instr.powerControlWake :: [Instr.refclkLost]) ∧
    (ring 0 upPort).pending = [] := by decide +kernel

theorem wit_EveryStepKeepsMemoryCanonical :
    let s := { serving [] [(5, [1, 2, 3])] with pending := [Instr.refclkLost] }
    memWf s.mem = true ∧
    step s = .next { s with
      pending := [], clock := { s.clock with refLost := true, refLostSeen := true, lossCount := 1 } } :=
  ⟨by decide +kernel, rfl⟩

theorem wit_EveryStepKeepsTheNumberOfParts :
    let s := { serving [] [] with pending := [Instr.refclkLost] }
    (s.bricks.length = 64 ∧ (∀ b ∈ s.bricks, b.planes.length = 32) ∧ s.mortar.ports.length = 8 ∧
      s.plumb.units.length = 4 ∧ s.index.staging.length = 8) ∧
    step s = .next { s with
      pending := [], clock := { s.clock with refLost := true, refLostSeen := true, lossCount := 1 } } :=
  ⟨by decide +kernel, rfl⟩

end Sys2Proof.Tests
end

section
/-!
PROOF. The order of R112 and the selections that follow it (R112 to R116, R126). The order on
(distance, vector ID) is read off a key in a lexicographic order: the class of the distance, its exact
value, the vector ID, and for a merge the bits of the distance.
-/

open Sys2Proof Sys2Proof.Machine

namespace Sys2Proof.Selection

/-! ### Sorting by a comparison that a key decides -/

section Sorting

variable {α β : Type} {lt : α → α → Bool}

theorem insertBy_eq_orderedInsert (x : α) (l : List α) :
    insertBy lt x l = l.orderedInsert (lt · · = true) x := by
  induction l with
  | nil => rfl
  | cons y ys ih => simp only [insertBy, List.orderedInsert_cons, ih]

theorem insertBy_perm (x : α) (l : List α) : (insertBy lt x l).Perm (x :: l) := by
  rw [insertBy_eq_orderedInsert]
  exact List.perm_orderedInsert _ x l

theorem sortBy_concat (l : List α) (x : α) :
    sortBy lt (l ++ [x]) = insertBy lt x (sortBy lt l) := by
  simp [sortBy]

theorem sortBy_perm (l : List α) : (sortBy lt l).Perm l := by
  induction l using List.reverseRecOn with
  | nil => rfl
  | append_singleton l x ih =>
    rw [sortBy_concat]
    exact (insertBy_perm x _).trans ((ih.cons x).trans (List.perm_append_singleton x l).symm)

variable [LinearOrder β] {key : α → β} (hlt : ∀ a b, lt a b = true ↔ key a < key b)
include hlt

theorem insertBy_keeps_order (x : α) {l : List α} (hl : l.Pairwise (key · ≤ key ·)) :
    (insertBy lt x l).Pairwise (key · ≤ key ·) := by
  induction l with
  | nil => simp [insertBy]
  | cons y ys ih =>
    obtain ⟨hy, hys⟩ := List.pairwise_cons.1 hl
    unfold insertBy
    split
    case isTrue hxy =>
      have hxy : key x ≤ key y := ((hlt x y).1 hxy).le
      have hxl : ∀ z ∈ y :: ys, key x ≤ key z :=
        List.forall_mem_cons.2 ⟨hxy, fun z hz => hxy.trans (hy z hz)⟩
      exact List.pairwise_cons.2 ⟨hxl, hl⟩
    case isFalse hxy =>
      have hyx : key y ≤ key x := not_lt.1 fun h => hxy ((hlt x y).2 h)
      refine List.pairwise_cons.2 ⟨fun z hz => ?_, ih hys⟩
      rcases List.mem_cons.1 ((insertBy_perm x ys).mem_iff.1 hz) with rfl | hz
      · exact hyx
      · exact hy z hz

theorem sortBy_ordered (l : List α) : (sortBy lt l).Pairwise (key · ≤ key ·) := by
  induction l using List.reverseRecOn with
  | nil => exact List.Pairwise.nil
  | append_singleton l x ih => rw [sortBy_concat]; exact insertBy_keeps_order hlt x ih

/-- Where the key tells all elements apart, a sort forgets the order that its list came in. -/
theorem sortBy_eq_of_perm (hinj : Function.Injective key) {l m : List α} (h : l.Perm m) :
    sortBy lt l = sortBy lt m :=
  ((sortBy_perm l).trans (h.trans (sortBy_perm m).symm)).eq_of_pairwise
    (fun _ _ _ _ hab hba => hinj (le_antisymm hab hba)) (sortBy_ordered hlt l) (sortBy_ordered hlt m)

end Sorting

/-! ### Keeping the first of every vector ID (R116) -/

theorem dedupe_concat (l : List (Nat × F32)) (x : Nat × F32) :
    dedupe (l ++ [x]) =
      if (dedupe l).any (·.1 == x.1) then dedupe l else dedupe l ++ [x] := by
  simp [dedupe]

theorem dedupe_sublist (l : List (Nat × F32)) : (dedupe l).Sublist l := by
  induction l using List.reverseRecOn with
  | nil => exact .slnil
  | append_singleton l x ih =>
    rw [dedupe_concat]
    split
    · exact ih.trans (List.sublist_append_left l [x])
    · exact ih.append_right [x]

theorem dedupe_ids_nodup (l : List (Nat × F32)) : ((dedupe l).map (·.1)).Nodup := by
  induction l using List.reverseRecOn with
  | nil => exact List.nodup_nil
  | append_singleton l x ih =>
    rw [dedupe_concat]
    split
    · exact ih
    case isFalse hnew =>
      rw [List.map_append, List.nodup_append]
      refine ⟨ih, List.nodup_singleton _, ?_⟩
      rw [List.any_eq_true] at hnew
      rintro _ hid _ hx rfl
      obtain ⟨y, hy, rfl⟩ := List.mem_map.1 hid
      exact hnew ⟨y, hy, beq_iff_eq.2 (List.mem_singleton.1 hx)⟩

/-- For every element of an ordered list, `dedupe` keeps one of the same ID that comes no later. -/
theorem dedupe_keeps_first {β : Type} [LinearOrder β] {key : Nat × F32 → β}
    {l : List (Nat × F32)} (hl : l.Pairwise (key · ≤ key ·)) :
    ∀ x ∈ l, ∃ y ∈ dedupe l, y.1 = x.1 ∧ key y ≤ key x := by
  induction l using List.reverseRecOn with
  | nil => simp
  | append_singleton l z ih =>
    obtain ⟨hl, -, hz⟩ := List.pairwise_append.1 hl
    intro x hx
    rw [dedupe_concat]
    rcases List.mem_append.1 hx with hx | hx
    · obtain ⟨y, hy, hyx⟩ := ih hl x hx
      refine ⟨y, ?_, hyx⟩
      split
      · exact hy
      · exact List.mem_append_left _ hy
    · obtain rfl := List.mem_singleton.1 hx
      split
      case isTrue hold =>
        obtain ⟨y, hy, hid⟩ := List.any_eq_true.1 hold
        exact ⟨y, hy, beq_iff_eq.1 hid, hz y ((dedupe_sublist l).subset hy) x hx⟩
      case isFalse => exact ⟨x, List.mem_append_right _ hx, rfl, le_rfl⟩

/-! ### The exact value of a decoded distance -/

/-- A finite number in units of 2^q, for a `q` that its exponent does not fall below. -/
def scaled (n : Bool) (m : Nat) (e q : Int) : Int :=
  (if n then -1 else 1) * ((m <<< (e - q).toNat : Nat) : Int)

theorem scaled_not (n : Bool) (m : Nat) (e q : Int) : scaled (!n) m e q = -scaled n m e q := by
  cases n <;> simp [scaled]

theorem scaled_finer (n : Bool) (m : Nat) {e p q : Int} (hpq : p ≤ q) (hqe : q ≤ e) :
    scaled n m e p = scaled n m e q * 2 ^ (q - p).toNat := by
  have hexp : (e - p).toNat = (e - q).toNat + (q - p).toNat := by omega
  simp only [scaled, Nat.shiftLeft_eq, hexp, pow_add]
  push_cast
  ring

theorem fltAdd_fin (na nb : Bool) (ma mb : Nat) (ea eb : Int) :
    fltAdd (.fin na ma ea) (.fin nb mb eb) =
      let q := min ea eb
      let s := scaled na ma ea q + scaled nb mb eb q
      if s == 0 then .fin (na && nb) 0 q else .fin (decide (s < 0)) s.natAbs q :=
  rfl

/-- Finite numbers compare as their difference's sign, in whatever unit it is taken. -/
theorem fltCmp_fin {na nb : Bool} {ma mb : Nat} {ea eb p : Int} (ha : p ≤ ea) (hb : p ≤ eb) :
    fltCmp (.fin na ma ea) (.fin nb mb eb) = (scaled na ma ea p - scaled nb mb eb p).sign := by
  have hadd : fltCmp (.fin na ma ea) (.fin nb mb eb) =
      (scaled na ma ea (min ea eb) - scaled nb mb eb (min ea eb)).sign := by
    simp only [fltCmp, fltNeg, fltAdd_fin, scaled_not, ← sub_eq_add_neg]
    generalize scaled na ma ea (min ea eb) - scaled nb mb eb (min ea eb) = s
    rcases lt_trichotomy s 0 with hs | rfl | hs
    · simp [hs, hs.ne, Int.sign_eq_neg_one_of_neg hs]
    · simp
    · simp [hs.ne', hs.not_gt, Int.sign_eq_one_of_pos hs]
  rw [hadd, scaled_finer na ma (le_min ha hb) (min_le_left _ _),
    scaled_finer nb mb (le_min ha hb) (min_le_right _ _), ← sub_mul, Int.sign_mul,
    Int.sign_eq_one_of_pos (by positivity : (0 : Int) < 2 ^ (min ea eb - p).toNat), mul_one]

theorem v32_eq_ite (a : F32) :
    v32 a =
      if a.toNat / 2 ^ 23 % 256 = 255 then
        if a.toNat % 2 ^ 23 = 0 then .inf (a.toNat.testBit 31) else .nan (a.toNat.testBit 31)
      else if a.toNat / 2 ^ 23 % 256 = 0 then
        .fin (a.toNat.testBit 31) (a.toNat % 2 ^ 23) (-149)
      else
        .fin (a.toNat.testBit 31) (2 ^ 23 + a.toNat % 2 ^ 23)
          (((a.toNat / 2 ^ 23 % 256 : Nat) : Int) - 150) := by
  have hexp (n : Int) : n - 127 - 23 = n - 150 := by omega
  simp [v32, fltOfBits, fmt32, bits, bit, Nat.shiftRight_eq_div_pow, hexp]

theorem v32_fin_exponent {a : F32} {n : Bool} {m : Nat} {e : Int} (h : v32 a = .fin n m e) :
    -149 ≤ e := by
  rw [v32_eq_ite] at h
  split at h
  · split at h <;> cases h
  · split at h <;> cases h <;> omega

theorem v32_eq_inf {a : F32} {n : Bool} (h : v32 a = .inf n) :
    a = if n then negInf32 else posInf32 := by
  have ha := a.isLt
  rw [v32_eq_ite] at h
  split at h
  · split at h <;> cases h
    apply BitVec.eq_of_toNat_eq
    rw [Nat.testBit_eq_decide_div_mod_eq]
    split
    case isTrue hsign =>
      have hbit := of_decide_eq_true hsign
      change a.toNat = 0xFF800000
      omega
    case isFalse hsign =>
      have hbit : ¬a.toNat / 2 ^ 31 % 2 = 1 := fun h => hsign (decide_eq_true h)
      change a.toNat = 0x7F800000
      omega
  · split at h <;> cases h

/-! ### The order of R112 as a key -/

/-- −Inf, the numbers, +Inf and the NaNs, in the order of R112. -/
def fltClass : Flt → Int
  | .inf true => 0
  | .fin _ _ _ => 1
  | .inf false => 2
  | .nan _ => 3

/-- The place of a distance in the order of R112: its class and, for a number, its exact value. -/
def rank (a : F32) : Int ×ₗ Int := toLex (fltClass (v32 a), exactTerm a)

theorem fltClass_bounds (x : Flt) : 0 ≤ fltClass x ∧ fltClass x ≤ 3 := by
  rcases x with n | n | ⟨n, m, e⟩
  case nan => simp [fltClass]
  case inf => cases n <;> simp [fltClass]
  case fin => simp [fltClass]

theorem isNaN32_iff (a : F32) : isNaN32 a = true ↔ fltClass (v32 a) = 3 := by
  unfold isNaN32
  rcases v32 a with n | n | ⟨n, m, e⟩
  case nan => simp [fltClass]
  case inf => cases n <;> simp [fltClass]
  case fin => simp [fltClass]

theorem isFin32_iff (a : F32) : isFin32 a = true ↔ fltClass (v32 a) = 1 := by
  unfold isFin32
  rcases v32 a with n | n | ⟨n, m, e⟩
  case nan => simp [fltClass]
  case inf => cases n <;> simp [fltClass]
  case fin => simp [fltClass]

theorem class_negInf : fltClass (v32 negInf32) = 0 := by decide +kernel

theorem class_posInf : fltClass (v32 posInf32) = 2 := by decide +kernel

/-- Each infinity is alone in its class. -/
theorem eq_inf_of_class {a : F32} :
    (fltClass (v32 a) = 0 → a = negInf32) ∧ (fltClass (v32 a) = 2 → a = posInf32) := by
  rcases h : v32 a with n | n | ⟨n, m, e⟩
  case nan => simp [fltClass]
  case inf => cases n <;> simp [fltClass, v32_eq_inf h]
  case fin => simp [fltClass]

theorem exactTerm_of_nan {a : F32} (h : isNaN32 a = true) : exactTerm a = 0 := by
  unfold isNaN32 at h
  unfold exactTerm
  split at h
  case h_1 hv => rw [hv]
  case h_2 => cases h

/-- The comparison of the model looks at the classes first, and at the exact values within one. -/
theorem fcmp_eq_ite (a b : F32) :
    fcmp a b =
      if fltClass (v32 a) = fltClass (v32 b) then (exactTerm a - exactTerm b).sign
      else (fltClass (v32 a) - fltClass (v32 b)).sign := by
  unfold fcmp isNaN32 exactTerm
  rcases ha : v32 a with na | na | ⟨na, ma, ea⟩ <;> rcases hb : v32 b with nb | nb | ⟨nb, mb, eb⟩
  case fin.fin =>
    have hea := v32_fin_exponent ha
    have heb := v32_fin_exponent hb
    simp only [fltClass, reduceIte]
    exact fltCmp_fin (p := -152) (ea := ea) (eb := eb) (by omega) (by omega)
  case nan.nan => simp [fltClass]
  case nan.inf => cases nb <;> rfl
  case nan.fin => rfl
  case inf.nan => cases na <;> rfl
  case inf.inf => cases na <;> cases nb <;> rfl
  case inf.fin => cases na <;> rfl
  case fin.nan => rfl
  case fin.inf => cases nb <;> rfl

theorem fcmp_neg_iff (a b : F32) : fcmp a b < 0 ↔ rank a < rank b := by
  rw [fcmp_eq_ite, rank, rank, Prod.Lex.toLex_lt_toLex]
  split <;> simp [*]

theorem fcmp_eq_zero_iff (a b : F32) : fcmp a b = 0 ↔ rank a = rank b := by
  rw [fcmp_eq_ite, rank, rank, toLex_inj, Prod.mk.injEq]
  split <;> simp [*, sub_eq_zero]

theorem selLt_eq (i j : Nat) (a b : F32) :
    selLt (i, a) (j, b) =
      (decide (rank a < rank b) || decide (rank a = rank b) && decide (i < j)) := by
  simp [selLt, fcmp_neg_iff, ← fcmp_eq_zero_iff, Bool.beq_eq_decide_eq]

/-- A distance and then its vector ID (R112). -/
def selKey (x : Nat × F32) : (Int ×ₗ Int) ×ₗ Nat := toLex (rank x.2, x.1)

theorem selLt_iff (x y : Nat × F32) : selLt x y = true ↔ selKey x < selKey y := by
  obtain ⟨i, a⟩ := x
  obtain ⟨j, b⟩ := y
  simp [selLt_eq, selKey, Prod.Lex.toLex_lt_toLex]

theorem selLt_eq_false_iff (x y : Nat × F32) : selLt x y = false ↔ selKey y ≤ selKey x := by
  rw [← not_lt, ← selLt_iff, Bool.not_eq_true]

/-- R112, and then the bits of the distance (log 112). -/
def mergeKey (x : Nat × F32) : ((Int ×ₗ Int) ×ₗ Nat) ×ₗ Nat := toLex (selKey x, x.2.toNat)

theorem mergeLt_iff (x y : Nat × F32) : mergeLt x y = true ↔ mergeKey x < mergeKey y := by
  simp only [mergeLt, Bool.or_eq_true, Bool.and_eq_true, Bool.not_eq_true', decide_eq_true_eq,
    selLt_iff, selLt_eq_false_iff, mergeKey, Prod.Lex.toLex_lt_toLex']
  grind

theorem mergeKey_injective : Function.Injective mergeKey := by
  rintro ⟨i, a⟩ ⟨j, b⟩ h
  simp only [mergeKey, selKey, toLex_inj, Prod.mk.injEq] at h
  obtain ⟨⟨-, hid⟩, hbits⟩ := h
  exact Prod.ext hid (BitVec.eq_of_toNat_eq hbits)

theorem selKey_le_of_mergeKey_le {x y : Nat × F32} (h : mergeKey x ≤ mergeKey y) :
    selKey x ≤ selKey y :=
  (Prod.Lex.toLex_le_toLex'.1 h).1

/-! ### What a selection lists -/

theorem ordered_of_selKey {l : List (Nat × F32)} (h : l.Pairwise (selKey · ≤ selKey ·)) :
    l.Pairwise (fun a b => selLt b a = false) :=
  h.imp fun {a b} => (selLt_eq_false_iff b a).2

/-- The elements of a piece, each ID once, in the order of R112: its selection is their first K. -/
def firstOfEachId (row : List (Nat × F32)) : List (Nat × F32) := dedupe (sortBy selLt row)

theorem selectPiece_entries (k : Nat) (row : List (Nat × F32)) :
    (selectPiece k row).entries = (firstOfEachId row).take k :=
  rfl

theorem firstOfEachId_ordered (row : List (Nat × F32)) :
    (firstOfEachId row).Pairwise (selKey · ≤ selKey ·) :=
  (sortBy_ordered selLt_iff row).sublist (dedupe_sublist _)

theorem firstOfEachId_subset (row : List (Nat × F32)) : firstOfEachId row ⊆ row :=
  fun _ hx => (sortBy_perm row).subset ((dedupe_sublist _).subset hx)

theorem exists_firstOfEachId {row : List (Nat × F32)} {x : Nat × F32} (hx : x ∈ row) :
    ∃ y ∈ firstOfEachId row, y.1 = x.1 ∧ selKey y ≤ selKey x :=
  dedupe_keeps_first (sortBy_ordered selLt_iff row) x ((sortBy_perm row).symm.subset hx)

theorem selectPiece_ordered (k : Nat) (row : List (Nat × F32)) :
    (selectPiece k row).entries.Pairwise (fun a b => selLt b a = false) :=
  ordered_of_selKey ((firstOfEachId_ordered row).sublist (List.take_sublist k _))

theorem selectPiece_ids_nodup (k : Nat) (row : List (Nat × F32)) :
    ((selectPiece k row).entries.map (·.1)).Nodup :=
  (dedupe_ids_nodup (sortBy selLt row)).sublist ((List.take_sublist k _).map _)

/-- What a piece leaves out finds the list full and comes before none of it. -/
theorem selectPiece_leaves_out_later {k : Nat} {row : List (Nat × F32)} {x : Nat × F32}
    (hx : x ∈ row) (hout : x.1 ∉ (selectPiece k row).entries.map (·.1)) :
    (selectPiece k row).entries.length = k ∧
      ∀ y ∈ (selectPiece k row).entries, selLt x y = false := by
  rw [selectPiece_entries] at hout ⊢
  obtain ⟨z, hz, hid, hzx⟩ := exists_firstOfEachId hx
  have hzk : z ∈ (firstOfEachId row).drop k := by
    rw [← List.take_append_drop k (firstOfEachId row)] at hz
    exact (List.mem_append.1 hz).resolve_left fun h => hout (List.mem_map.2 ⟨z, h, hid⟩)
  have hord := firstOfEachId_ordered row
  rw [← List.take_append_drop k (firstOfEachId row)] at hord
  obtain ⟨-, -, hbefore⟩ := List.pairwise_append.1 hord
  refine ⟨List.length_take_of_le ?_, fun y hy =>
    (selLt_eq_false_iff x y).2 ((hbefore y hy z hzk).trans hzx)⟩
  exact le_of_not_ge fun hle => List.ne_nil_of_mem hzk (List.drop_eq_nil_iff.2 hle)

/-! ### Merges and rows -/

theorem mergeLists_ordered (k : Nat) (ls : List PList) :
    (mergeLists k ls).entries.Pairwise (fun a b => selLt b a = false) := by
  have hpool : (sortBy mergeLt (ls.flatMap (·.entries))).Pairwise (selKey · ≤ selKey ·) :=
    (sortBy_ordered mergeLt_iff _).imp selKey_le_of_mergeKey_le
  exact ordered_of_selKey (hpool.sublist ((List.take_sublist k _).trans (dedupe_sublist _)))

theorem selectRow_ordered (k : Nat) (row : List (Nat × F32)) :
    (selectRow k row).entries.Pairwise (fun a b => selLt b a = false) := by
  unfold selectRow
  split
  · exact selectPiece_ordered k row
  · exact mergeLists_ordered k _

theorem mergeLists_perm (k : Nat) {ls ms : List PList} (h : ls.Perm ms) :
    mergeLists k ls = mergeLists k ms := by
  have hpool := sortBy_eq_of_perm mergeLt_iff mergeKey_injective (h.flatMap_right (·.entries))
  have hspecials (n : Nat) : (ls.map (·.leftSpecial)).foldl (· ||| ·) n =
      (ms.map (·.leftSpecial)).foldl (· ||| ·) n :=
    (h.map _).foldl_eq n
  simp only [mergeLists, hpool, hspecials, h.any_eq, (h.map _).sum_eq]

/-! ### The clauses of R112 -/

theorem selLt_of_class_lt {a b : F32} (h : fltClass (v32 a) < fltClass (v32 b)) (i j : Nat) :
    selLt (i, a) (j, b) = true ∧ selLt (j, b) (i, a) = false := by
  have hrank : rank a < rank b := Prod.Lex.toLex_lt_toLex.2 (.inl h)
  have hkey : selKey (i, a) < selKey (j, b) := Prod.Lex.toLex_lt_toLex.2 (.inl hrank)
  exact ⟨(selLt_iff _ _).2 hkey, (selLt_eq_false_iff _ _).2 hkey.le⟩

theorem selLt_number_nan {a b : F32} (ha : isNaN32 a = false) (hb : isNaN32 b = true) (i j : Nat) :
    selLt (i, a) (j, b) = true ∧ selLt (j, b) (i, a) = false := by
  have hna : fltClass (v32 a) ≠ 3 := by simp [← isNaN32_iff, ha]
  have hnb := (isNaN32_iff b).1 hb
  have hle := (fltClass_bounds (v32 a)).2
  exact selLt_of_class_lt (by omega) i j

theorem selLt_negInf {b : F32} (hb : b ≠ negInf32) (i j : Nat) :
    selLt (i, negInf32) (j, b) = true ∧ selLt (j, b) (i, negInf32) = false := by
  have hne := mt eq_inf_of_class.1 hb
  have hle := (fltClass_bounds (v32 b)).1
  exact selLt_of_class_lt (by rw [class_negInf]; omega) i j

theorem selLt_posInf {a : F32} (ha : isNaN32 a = false) (hne : a ≠ posInf32) (i j : Nat) :
    selLt (i, a) (j, posInf32) = true ∧ selLt (j, posInf32) (i, a) = false := by
  have hna : fltClass (v32 a) ≠ 3 := by simp [← isNaN32_iff, ha]
  have hnp := mt eq_inf_of_class.2 hne
  have hle := (fltClass_bounds (v32 a)).2
  exact selLt_of_class_lt (by rw [class_posInf]; omega) i j

theorem selLt_of_rank_eq {a b : F32} (h : rank a = rank b) (i j : Nat) :
    selLt (i, a) (j, b) = decide (i < j) := by
  simp [selLt_eq, h]

theorem selLt_nan {a b : F32} (ha : isNaN32 a = true) (hb : isNaN32 b = true) (i j : Nat) :
    selLt (i, a) (j, b) = decide (i < j) := by
  refine selLt_of_rank_eq ?_ i j
  rw [rank, rank, (isNaN32_iff a).1 ha, (isNaN32_iff b).1 hb, exactTerm_of_nan ha,
    exactTerm_of_nan hb]

theorem selLt_fin {a b : F32} (ha : isFin32 a = true) (hb : isFin32 b = true) (i j : Nat) :
    selLt (i, a) (j, b) =
      (decide (exactTerm a < exactTerm b) ||
        decide (exactTerm a = exactTerm b) && decide (i < j)) := by
  simp [selLt_eq, rank, (isFin32_iff a).1 ha, (isFin32_iff b).1 hb, Prod.Lex.toLex_lt_toLex]

/-- Settles O2. A piece's selection is the start of a list sorted by the key of R112, from which the
later copies of an ID are gone; a merge sorts by a key that tells all elements apart. -/
theorem selectionIsOrderedAndDistinct : Obligations.SelectionIsOrderedAndDistinct :=
  ⟨fun k row => ⟨List.length_take_le k _,
      fun _ hx => firstOfEachId_subset row (List.mem_of_mem_take hx),
      selectPiece_ids_nodup k row, selectPiece_ordered k row,
      fun _ => selectPiece_leaves_out_later⟩,
    selectRow_ordered, mergeLists_ordered, fun k _ _ => mergeLists_perm k,
    fun i j a b => ⟨fun ha hb => selLt_number_nan ha hb i j, fun ha hb => selLt_fin ha hb i j,
      by decide +kernel, fun _ hb => selLt_negInf hb i j, fun ha hne => selLt_posInf ha hne i j,
      fun ha hb => selLt_nan ha hb i j, selLt_of_rank_eq rfl i j⟩⟩

end Sys2Proof.Selection
end

section
/-!
PROOF. The fetch of COMMAND_FETCH and the head that a completion reports (R349, R350, R357). A fetch that
finds every entry sound refuses none, so what it does is what the arbiter's choice does. A completion that is
posted is one item of the completion queue agent, made at once, and its bytes 4 and 5 are the head.
-/

open Sys2Proof Sys2Proof.Machine

namespace Sys2Proof.CommandInterface

/-! ### The fetch (R349, R350, R353) -/

section Fetch

variable {s : State} {q : SubQ} {cls : Nat} {credit : List Nat}

/-- Every fetched entry passes steps 1 to 3 of R353. -/
def FetchedSound (s : State) : Prop := ∀ x ∈ s.sched.cmds, x.phase = .fetched → entryErr s x = none

theorem refuseFront_of_fetchedSound (h : FetchedSound s) (q : SubQ) : refuseFront s q = s := by
  unfold refuseFront
  split
  · rfl
  next c hc =>
    have hphase : c.phase = .fetched := by
      have := List.find?_some hc
      simp only [Bool.and_eq_true, beq_iff_eq] at this
      exact this.1.2
    rw [h c (List.mem_of_find?_eq_some hc) hphase]

theorem exec_commandFetch_of_fetchedSound (hcopies : raiseCopies s = s)
    (h : FetchedSound (fetchOne s)) : exec .commandFetch s = .next (fetchOne s) := by
  have hexec : exec .commandFetch s = execCommandFetch s := rfl
  rw [hexec, execCommandFetch, hcopies,
    List.foldl_fixed' (refuseFront_of_fetchedSound h)]

theorem fetchOne_of_courseOff (harb : arbiter s = (some cls, credit))
    (hq : (rrNext s cls).bind (findSq s) = some q)
    (hoff : courseOff s (unitOf (q.base + 128 * q.head)) = true) :
    fetchOne s = { s with power := { s.power with wake := true } } := by
  simp [fetchOne, harb, hq, hoff]

theorem fetchOne_of_entryHeld (harb : arbiter s = (some cls, credit))
    (hq : (rrNext s cls).bind (findSq s) = some q)
    (hon : courseOff s (unitOf (q.base + 128 * q.head)) = false) (hheld : entryMissing s q = []) :
    fetchOne s = fetchEntry s q cls credit := by
  simp [fetchOne, harb, hq, hon, hheld]

/-- The command that the entry at H becomes (R349). -/
def entryAtHead (s : State) (q : SubQ) : Cmd :=
  { id := s.sched.nextCmd, sq := q.id, urgent := q.cls == 4,
    entry := readBytes s.mem (q.base + 128 * q.head) 128 }

theorem fetchEntry_cmds : (fetchEntry s q cls credit).sched.cmds = s.sched.cmds ++ [entryAtHead s q] :=
  rfl

/-- Steps 1 to 3 of R353 look at the entry and at the validity of fabric time alone. -/
theorem entryErr_of_time_eq {t : State} (h : t.time = s.time) (c : Cmd) :
    entryErr t c = entryErr s c := by
  simp only [entryErr, h]

theorem fetchedSound_fetchEntry (h : FetchedSound s) (hnew : entryErr s (entryAtHead s q) = none) :
    FetchedSound (fetchEntry s q cls credit) := by
  intro x hx hphase
  have htime : (fetchEntry s q cls credit).time = s.time := rfl
  rw [entryErr_of_time_eq htime]
  rw [fetchEntry_cmds, List.mem_append, List.mem_singleton] at hx
  obtain hx | rfl := hx
  · exact h x hx hphase
  · exact hnew

end Fetch

/-! ### Little-endian fields and the completion entry (R9, R357) -/

theorem leBytes_length (n v : Nat) : (leBytes n v).length = n := by
  induction n generalizing v with
  | zero => rfl
  | succ n ih => simp [leBytes, ih]

theorem fromLE_leBytes (n v : Nat) : fromLE (leBytes n v) = v % 256 ^ n := by
  induction n generalizing v with
  | zero => simp [leBytes, fromLE, Nat.mod_one]
  | succ n ih =>
    rw [leBytes, fromLE, ih, BitVec.toNat_ofNat, pow_succ' 256 n]
    exact Nat.mod_mul.symm

theorem completionBytes_length (x : Completion) (head : Nat) (phase : Bool) :
    (completionBytes x head phase).length = 32 := by
  simp [completionBytes, header, leBytes_length]

theorem completionBytes_head (x : Completion) (head : Nat) (phase : Bool) (h : head < 2 ^ 16) :
    getLE (completionBytes x head phase) 4 2 = head := by
  have hfield : ((completionBytes x head phase).drop 4).take 2 = leBytes 2 head := by
    simp [completionBytes, leBytes]
  rw [getLE, hfield, fromLE_leBytes]
  exact Nat.mod_eq_of_lt h

/-! ### What the completion queue agent writes (R424, R425) -/

theorem companionBase_le_of_windowOf {a : Nat} (h : windowOf a = some 1) : companionBase ≤ a := by
  by_contra hlt
  have hlow : a < cxlBase ∧ a < flashBase ∧ a < neighbourBase := by
    unfold companionBase cxlBase flashBase neighbourBase at *
    omega
  obtain ⟨hcxl, hflash, hneighbour⟩ := hlow
  simp [windowOf, hlt, hcxl.not_ge, hflash.not_ge, hneighbour.not_ge] at h

/-- Bytes that touch one line of the companion lie in it. -/
theorem line_of_linesOf {a n l : Nat} (h : linesOf a n = [l]) :
    companionBase + l = a / 64 * 64 ∧ a + n ≤ a / 64 * 64 + 64 := by
  unfold linesOf at h
  split at h
  next hw =>
    simp only [Bool.and_eq_true, beq_iff_eq, decide_eq_true_eq] at hw
    obtain ⟨hwindow, hn⟩ := hw
    have hbase := companionBase_le_of_windowOf hwindow
    have hlen : (a + n - 1) / 64 - a / 64 = 0 := by simpa using congrArg List.length h
    rw [hlen] at h
    simp only [Nat.zero_add, List.range_one, List.map_cons, List.map_nil, Nat.add_zero,
      List.cons.injEq, and_true] at h
    unfold companionBase at *
    omega
  next => simp at h

/-- What an agent writes at once is one item, which puts the bytes at their name. -/
theorem agentItems_writes {s : State} {a : Nat} {bs : List Byte} (h : EntryWritable s a)
    (hlen : bs.length = 32) (key : Bool × Nat) (barrier : Bool) :
    ∃ i, agentItems 1 a bs true = [i] ∧
      (outStep s { key := key, barrier := barrier, item := i }).2 = true ∧
      (outStep s { key := key, barrier := barrier, item := i }).1.mem = writeBytes s.mem a bs := by
  obtain ⟨-, ⟨hown, hheld⟩ | ⟨l, hline, hready⟩⟩ := h
  · refine ⟨.store a bs, ?_, ?_⟩
    · simp [agentItems, hlen, hown]
    · simp [outStep, hheld]
  · obtain ⟨hl, hfit⟩ := line_of_linesOf hline
    have hlo : max a (companionBase + l) = a := by omega
    have hhi : min (a + 32) (companionBase + l + 64) = a + 32 := by omega
    have haddr : companionBase + l + (a - companionBase - l) = a := by omega
    refine ⟨.write 1 l (a - companionBase - l) bs true, ?_, ?_⟩
    · simp only [agentItems, hlen, hline, List.isEmpty_cons, List.map_cons, List.map_nil, hlo, hhi]
      simp [hlen]
    · by_cases hstash : stashVersion s.uzone = true ∧ lineAsked s.uzone l = false
      · obtain ⟨hv, ha⟩ := hstash
        simp [outStep, hv, ha, haddr]
      · have hst := hready.resolve_right hstash
        have hno : (stashVersion s.uzone && !lineAsked s.uzone l) = false := by
          simpa using hstash
        simp [outStep, hno, hst, haddr]

/-- Interrupts change no memory, sent or waiting. -/
theorem drainItems_mem_of_interrupts (os : List Out) (h : ∀ o ∈ os, ∃ v, o.item = .intr v)
    (s : State) (stuck : List (Bool × Nat)) : (drainItems s os stuck).mem = s.mem := by
  induction os generalizing s stuck with
  | nil => rfl
  | cons o os ih =>
    obtain ⟨v, hv⟩ := h o List.mem_cons_self
    have ih := ih fun o ho => h o (List.mem_cons_of_mem _ ho)
    have hstep : (outStep s o).1.mem = s.mem := by
      unfold outStep
      rw [hv]
      split <;> rfl
    have hrest : ∀ x : State × Bool, x.1.mem = s.mem →
        (if x.2 then drainItems x.1 os stuck
          else drainItems { x.1 with uzone := { x.1.uzone with out := x.1.uzone.out ++ [o] } } os
            (o.key :: stuck)).mem = s.mem := by
      intro x hx
      split <;> rw [ih, hx]
    refine hrest _ ?_
    split
    · rfl
    · exact hstep

theorem drainItems_of_done {s : State} {o : Out} (h : (outStep s o).2 = true) (os : List Out) :
    drainItems s (o :: os) [] = drainItems (outStep s o).1 os [] := by
  simp [drainItems, h]

/-- With no item waiting, the items put behind are drained at once. -/
theorem emit_of_out_nil {s : State} (h : s.uzone.out = []) (os : List Out) :
    emit s os = drainItems s os [] := by
  have hs : ({ s with uzone := { s.uzone with out := [] } } : State) = s := by rw [← h]
  rw [emit, drainOut, h]
  exact congrArg (drainItems · os []) hs

/-- A completion's entry is written at once, and its interrupt leaves memory as it is. -/
theorem emit_completionItems_mem {s t : State} {q : ComplQ} (x : Completion)
    (h : EntryWritable t (q.base + 32 * q.tail)) :
    (emit t (completionItems s q x)).mem = writeBytes t.mem (q.base + 32 * q.tail)
      (completionBytes x (((findSq s x.sq).map (·.head)).getD 0) q.phase) := by
  obtain ⟨i, hitems, hdone, hmem⟩ :=
    agentItems_writes h (completionBytes_length x _ q.phase) (false, x.cmd) true
  rw [emit_of_out_nil h.1, completionItems, hitems, List.map_singleton, List.singleton_append,
    drainItems_of_done hdone, drainItems_mem_of_interrupts, hmem]
  intro o ho
  split at ho
  · rw [List.mem_singleton] at ho
    exact ⟨_, congrArg Out.item ho⟩
  · exact absurd ho List.not_mem_nil

/-! ### A completion that is posted at once (R358) -/

theorem any_mapIf {α : Type} {p r : α → Bool} {f : α → α} (h : ∀ x, r (f x) = r x) (l : List α) :
    (mapIf p f l).any r = l.any r := by
  simp only [mapIf, List.any_map, Function.comp_def, apply_ite r, h, ite_self]

theorem regionOf_congr {s t : State} (hquoin : t.quoin = s.quoin) (u : Nat) :
    regionOf t u = regionOf s u := by
  have hbond : bond t = bond s := by
    funext off n
    rw [bond, bond, hquoin]
  unfold regionOf partFree partStaging partKv partIndex
  rw [hbond]

/-- The end of a command moves no home and wakes no domain, as long as the same names are in objects. -/
theorem storeHeld_of_completes {s t : State} (h : Completes s t)
    (hobj : ∀ u, inObject t u = inObject s u) (a : Nat) : storeHeld t a = storeHeld s a := by
  have hquoin : t.quoin = s.quoin := by rw [h.same]
  have hbricks : t.bricks = s.bricks := by rw [h.same]
  have hpower : t.power = s.power := by rw [h.same]
  have hentries : t.tiers.entries = s.tiers.entries := by rw [h.tiers]
  have hrec : t.tiers.recovered = s.tiers.recovered := by rw [h.tiers]
  have hplain : ∀ u, plainHome t u = plainHome s u := fun u => by
    rw [plainHome, plainHome, regionOf_congr hquoin, hobj, hrec, inExtent, inExtent, hbricks]
  simp only [storeHeld, homeOf, tierEntry, hplain, hentries, hpower]

theorem entryWritable_congr {s t : State} {a : Nat} (huzone : t.uzone = s.uzone)
    (hheld : storeHeld t a = storeHeld s a) : EntryWritable t a ↔ EntryWritable s a := by
  rw [EntryWritable, EntryWritable, huzone, hheld]

/-- The length that a completion gives a sequence moves none of its units and pages. -/
theorem any_growSeq {r : KvSeq → Bool} (h : ∀ x n, r { x with len := n } = r x) (s : State) (cmd : Nat) :
    (growSeq s cmd).any r = s.kv.seqs.any r := by
  unfold growSeq
  split
  · exact any_mapIf (fun x => h x _) _
  · rfl

theorem retire_of_no_changes {s : State} (h : s.index.changes = []) : retire s = s := by
  have hs : ({ s with index := { s.index with changes := [] } } : State) = s := by rw [← h]
  simpa only [retire, h, List.filter_nil, List.foldl_nil] using hs

theorem unpinned_eq {s : State} {pin : Option Nat} (h : pin = none ∨ s.index.changes = []) :
    unpinned s pin = s := by
  unfold unpinned
  split
  next hpin => exact retire_of_no_changes (h.resolve_left (Option.isSome_iff_ne_none.1 hpin))
  next => rfl

/-- A completion is written as its items are emitted, from a state in which its command has ended: there
memory, the submission queues and what the agent's write looks at are as they were. -/
theorem writeCompletion_eq_emit {s : State} (q : ComplQ) {x : Completion}
    (hpin : (findCmd s x.cmd).bind (·.pin) = none ∨ s.index.changes = []) :
    ∃ t, writeCompletion s q x = emit t (completionItems s q x) ∧ t.mem = s.mem ∧
      t.sched.sqs = s.sched.sqs ∧ ∀ a, EntryWritable t a ↔ EntryWritable s a := by
  refine ⟨_, congrArg (emit · (completionItems s q x)) (unpinned_eq hpin), rfl, rfl, fun a =>
    entryWritable_congr rfl (storeHeld_of_completes ?_ (fun u => ?_) a)⟩
  · exact ⟨rfl, rfl, rfl, rfl, rfl⟩
  · simp only [inObject]
    rw [List.any_map, any_growSeq fun _ _ => rfl]
    rfl

theorem writeCompletion_sqs {s : State} (q : ComplQ) {x : Completion}
    (hpin : (findCmd s x.cmd).bind (·.pin) = none ∨ s.index.changes = []) :
    (writeCompletion s q x).sched.sqs = s.sched.sqs := by
  obtain ⟨t, hw, -, hsqs, -⟩ := writeCompletion_eq_emit q hpin
  have hemit : Machine.Written t (emit t (completionItems s q x)) := written_emit _ _
  rw [hw, hemit, hsqs]

theorem settleDeletes_of_none_deleted {s : State} (h : ∀ y ∈ s.sched.sqs, y.deletedBy = none) :
    settleDeletes s = s := by
  have hstep : ∀ t : State, ∀ y ∈ s.sched.sqs, settleDelete t y = t := fun t y hy => by
    rw [settleDelete, h y hy]
  rw [settleDeletes, List.foldl_ext _ (fun t _ => t) s hstep, List.foldl_fixed]

theorem post_of_posts {s : State} {x : Completion} {sq : SubQ} {q : ComplQ} (h : Posts s x sq q) :
    post s x = writeCompletion s q x := by
  obtain ⟨hsq, hcq, hheld, hroom, hwrites, hdel, hpin, -⟩ := h
  have hpost : post1 s x = writeCompletion s q x := by
    simp [post1, hsq, hcq, hheld, hroom, hwrites]
  rw [post, hpost, settleDeletes_of_none_deleted]
  rwa [writeCompletion_sqs q hpin]

/-- What a completion that is posted leaves at the tail of its queue. -/
theorem readBytes_post {s : State} {x : Completion} {sq : SubQ} {q : ComplQ} (h : Posts s x sq q)
    (hmem : memWf s.mem = true) :
    readBytes (post s x).mem (q.base + 32 * q.tail) 32 = completionBytes x sq.head q.phase := by
  rw [post_of_posts h]
  obtain ⟨hsq, -, -, -, -, -, hpin, hwritable⟩ := h
  obtain ⟨t, hw, htmem, -, ht⟩ := writeCompletion_eq_emit q hpin
  rw [hw, emit_completionItems_mem x ((ht _).2 hwritable), htmem, hsq]
  have hback := readBytes_writeBytes s.mem (q.base + 32 * q.tail)
    (completionBytes x sq.head q.phase) hmem
  rwa [completionBytes_length] at hback

/-- Settles O38. The arbiter's choice is what the fetch does, since no entry is refused; the head stands in
the bytes that the completion queue agent writes. -/
theorem commandFetchCopiesTheEntryAtHead : Obligations.CommandFetchCopiesTheEntryAtHead := by
  refine ⟨fun s q cls credit harb hq hcopies => ⟨fun hoff hsound => ?_,
    fun hon hheld hsound hnew => ?_⟩, fun s x sq q hposts hmem hhead => ?_⟩
  · have hone := fetchOne_of_courseOff harb hq hoff
    rw [exec_commandFetch_of_fetchedSound hcopies (by rw [hone]; exact hsound), hone]
  · have hone := fetchOne_of_entryHeld harb hq hon hheld
    have hafter : FetchedSound (fetchOne s) := by
      rw [hone]
      exact fetchedSound_fetchEntry hsound hnew
    rw [exec_commandFetch_of_fetchedSound hcopies hafter, hone]
    simp only [fetchEntry, beq_iff_eq]
  · rw [readBytes_post hposts hmem, completionBytes_head x _ _ hhead]

end Sys2Proof.CommandInterface
end

section
/-!
PROOF. The keeper of fabric time (R384, R387) and the request of the companion that sets it (R402, R420).
A request that arrives with none held before it is made in the state in which the link is awake, since
sending on the link does not look at the requests that are held.
-/

open Sys2Proof Sys2Proof.Machine

namespace Sys2Proof.TimeKeeper

/-! ### A reference period (R384, R388) -/

section Tick

variable {t : FabricTime}

theorem period_of_lt_five {phase : Nat} (h : phase < 5) :
    period phase = if phase = 2 ∨ phase = 4 then 7 else 6 := by
  simp [period, Nat.mod_eq_of_lt h]

/-- With no rate adjustment the keeper advances by its pattern alone, until its greatest value. -/
theorem tick_of_unadjusted (hvalid : t.valid = true) (hrate : t.rate = 0) (hacc : t.acc = 0)
    (hroom : t.ns.toNat + 7 < 2 ^ 64) (hphase : t.phase < 5) :
    tick t = { t with
      phase := (t.phase + 1) % 5
      ns := t.ns + (if t.phase = 2 ∨ t.phase = 4 then 7 else 6) } := by
  have hns : BitVec.ofNat 64 (min (2 ^ 64 - 1) (t.ns.toNat + period t.phase)) =
      t.ns + (if t.phase = 2 ∨ t.phase = 4 then 7 else 6) := by
    rw [period_of_lt_five hphase]
    split <;> bv_omega
  rw [← hns]
  simp [tick, hvalid, hrate, hacc]

theorem tick_of_not_valid (h : t.valid = false) :
    tick t = { t with phase := (t.phase + 1) % 5, acc := 0 } := by
  simp [tick, h]

/-- Whatever its rate, the keeper adds a natural number and stops at its greatest value. -/
theorem ns_le_tick_ns (t : FabricTime) : t.ns.toNat ≤ (tick t).ns.toNat := by
  have hmax : t.ns.toNat ≤ 2 ^ 64 - 1 := Nat.le_sub_one_of_lt t.ns.isLt
  cases hvalid : t.valid with
  | false => rw [tick_of_not_valid hvalid]
  | true =>
    simp only [tick, hvalid, if_true, BitVec.toNat_ofNat]
    rw [Nat.mod_eq_of_lt (by omega)]
    exact le_min hmax (Nat.le_add_right _ _)

theorem exec_fabricTimeTick (s : State) :
    exec .fabricTimeTick s = .next { s with time := tick s.time } := rfl

end Tick

/-! ### Loading the keeper (R387, R461, R529) -/

section Load

variable {s : State}

theorem toServing_of_serving (hst : s.power.st = 0) (hentering : s.power.entering = none) :
    toServing s = s := by
  simp [toServing, hst, hentering]

@[simp] theorem audit_time (s : State) (origin event : Nat) (detail : List Nat) (originDetail : Nat)
    (changed : List Byte) : (audit s origin event detail originDetail changed).time = s.time := by
  rw [audit]

@[simp] theorem setTimeRoot_power (s : State) : (setTimeRoot s).power = s.power := rfl

/-- What a module without valid time takes over from its parent. -/
theorem loadTime_time {p : Nat} (hvalid : s.time.valid = false) (hst : s.power.st = 0)
    (hentering : s.power.entering = none) (hroot : (setTimeRoot s).mortar.isRoot = false)
    (hparent : (setTimeRoot s).mortar.parentPort = p)
    (hport : portInService (setTimeRoot s) p = true) (haudit : auditOk (setTimeRoot s) = true) :
    (loadTime s p).time = { (setTimeRoot s).time with
      ns := BitVec.ofNat 64 (Config.freeChoice (setTimeRoot s).drawn % 2 ^ 64)
      valid := true, source := true, acc := 0 } := by
  simp only [loadTime, hvalid, hroot, hparent, hport, haudit, bne_self_eq_false, Bool.not_true,
    Bool.or_self, Bool.false_eq_true, if_false, if_true, audit_time, toServing_of_serving, setTimeRoot_power,
    hst, hentering]

theorem setTime_of_valid (h : s.time.valid = true) (origin detail : Nat) (digest : List Byte)
    (v : Nat) : setTime s origin detail digest v = s := by
  simp [setTime, h]

theorem setTime_of_not_valid (hvalid : s.time.valid = false) (haudit : auditOk s = true)
    (hst : s.power.st = 0) (hentering : s.power.entering = none) (origin detail : Nat)
    (digest : List Byte) (v : Nat) :
    setTime s origin detail digest v =
      let a := audit s origin 0x50 [0x90008, 0, v] detail digest
      let b := { a with time := { a.time with
        ns := BitVec.ofNat 64 v, valid := true, source := false, acc := 0 } }
      setTimeRoot (audit b origin 0x51 [v, 0] detail digest) := by
  simp only [setTime, hvalid, haudit, Bool.false_eq_true, if_false, if_true,
    toServing_of_serving hst hentering]

end Load

/-! ### A request of the companion (R420, R421) -/

section Request

variable {s : State}

theorem pumpMsgs_with_heldDev (held : List Instr) (ms : List Msg) (blocked : List Nat) (u : Uzone) :
    pumpMsgs { u with heldDev := held } ms blocked =
      { pumpMsgs u ms blocked with heldDev := held } := by
  induction ms generalizing u blocked with
  | nil => rfl
  | cons m ms ih =>
    have hmay : maySend { u with heldDev := held } m blocked = maySend u m blocked := rfl
    simp only [pumpMsgs, hmay]
    split
    · exact ih blocked (sendMsg u m)
    · exact ih _ { u with link := { u.link with waiting := u.link.waiting ++ [m] } }

theorem pumpUzone_with_heldDev (held : List Instr) (u : Uzone) :
    pumpUzone { u with heldDev := held } = { pumpUzone u with heldDev := held } :=
  pumpMsgs_with_heldDev held u.link.waiting [] { u with link := { u.link with waiting := [] } }

theorem awoken_with_heldDev (s : State) (held : List Instr) :
    { s with uzone := pumpUzone { s.uzone with link := linkWake s.uzone.link, heldDev := held } } =
      { awoken s with uzone := { (awoken s).uzone with heldDev := held } } :=
  congrArg (fun u => { s with uzone := u })
    (pumpUzone_with_heldDev held { s.uzone with link := linkWake s.uzone.link })

theorem pumpUzone_heldDev (u : Uzone) : (pumpUzone u).heldDev = u.heldDev :=
  (congrArg Uzone.heldDev (pumpUzone_with_heldDev u.heldDev u) :)

theorem awoken_heldDev (s : State) : (awoken s).uzone.heldDev = s.uzone.heldDev :=
  pumpUzone_heldDev _

theorem serveHeld_single {i : Instr} {x : Mmio} (hx : mmioOf i = some x)
    (hheld : s.uzone.heldDev = []) :
    serveHeld { s with uzone := { s.uzone with heldDev := [i] } } = mmioOne s x := by
  have hsame : { s with uzone := { s.uzone with heldDev := [] } } = s := by rw [← hheld]
  simp only [serveHeld, List.length_singleton, serveWith, serveOne, hx, if_true]
  rw [hsame]

/-- An access to the control space that arrives is made at once, over the link that is awake. -/
theorem companionRequest_of_arrives (h : RequestArrives s) {i : Instr} {x : Mmio}
    (hx : mmioOf i = some x) : companionRequest s i = mmioOne (awoken s) x := by
  obtain ⟨hin, hawake, hheld, hroom⟩ := h
  simp only [companionRequest, hin, hawake, hheld, Nat.not_le.2 hroom, Bool.and_self, Bool.not_true,
    Bool.false_eq_true, if_false, List.nil_append, awoken_with_heldDev]
  exact serveHeld_single hx ((awoken_heldDev s).trans hheld)

/-- FABRIC_TIME_SET is a register of the always-on domain, 64 bits wide. -/
theorem mmioWrite_fabricTimeSet (hin : mmioIn s = true) (hready : s.quoin.stage = 7) (v : Nat) :
    mmioWrite s 0x90008 true v = setTime s 4 0 (leBytes 4 0x90008 ++ leBytes 8 v) v := by
  have hserved : mmioServed s 0x90008 = true := by simp [mmioServed, hready]
  simp only [mmioWrite, hin, hserved, Bool.and_self, if_true]
  rfl

theorem exec_fabricTimeSet (hready : s.quoin.stage = 7) (h : RequestArrives s) (v : BitVec 64)
    (tag : BitVec 12) :
    exec (.fabricTimeSet ⟨v, tag⟩) s =
      .next (answer (setTime (awoken s) 4 0 (leBytes 4 0x90008 ++ leBytes 8 v.toNat) v.toNat)
        (.cmpResp tag.toNat 0)) := by
  have hexec : exec (.fabricTimeSet ⟨v, tag⟩) s =
    .next (companionRequest s (.fabricTimeSet ⟨v, tag⟩)) := rfl
  rw [hexec, companionRequest_of_arrives h rfl]
  obtain ⟨hin, -⟩ := h
  simp only [mmioOne, mmioWrite_fabricTimeSet (s := awoken s) hin hready]

end Request

/-- Settles O56. A reference period is `tick` and a write that arrives is `setTime`; each is said above for
a keeper that is valid and for one that is not. That a load makes two audit records is the model's reading
(log 39). -/
theorem fabricTimeCountsAndIsSetOnce : Obligations.FabricTimeCountsAndIsSetOnce := by
  refine fun s => ⟨fun hvalid hrate hacc hroom hphase => ?_, fun hvalid => ?_,
    ⟨_, exec_fabricTimeTick s, ns_le_tick_ns s.time⟩,
    fun p hvalid hst hentering hroot hparent hport haudit => ?_,
    fun v tag hserved harrives => ?_⟩
  · rw [exec_fabricTimeTick, tick_of_unadjusted hvalid hrate hacc hroom hphase]
  · rw [exec_fabricTimeTick, tick_of_not_valid hvalid]
  · rw [loadTime_time hvalid hst hentering hroot hparent hport haudit]
    exact ⟨rfl, rfl⟩
  · obtain ⟨hready, -, -, -, haudit, hst, hentering⟩ := hserved
    refine ⟨fun hvalid => ?_, fun hvalid => ?_⟩
    · rw [exec_fabricTimeSet hready harrives, setTime_of_valid (s := awoken s) hvalid]
    · rw [exec_fabricTimeSet hready harrives,
        setTime_of_not_valid (s := awoken s) hvalid haudit hst hentering, BitVec.ofNat_toNat,
        BitVec.setWidth_eq]

end Sys2Proof.TimeKeeper
end

section
/-!
PROOF. What every step keeps: memory in canonical form (log 2), and the number of the module's
parts. With them, what the functions below Mortar's own keep: its inbound store. These forms look at six
parts of the state alone. For each function `f` of the model on states a lemma `holds_f`, in the order of
the model, says that it keeps them.
-/

open Sys2Proof Sys2Proof.Machine

namespace Sys2Proof.Steps

/-! ### The forms -/

/-- The two properties that every step keeps, and an inbound store that stays as it is. -/
inductive Form where
  | memory
  | parts
  | store (is : List Instr)

/-- A form of the six parts of the state that it looks at: memory, the Bricks, the Mortar ports, the Plumb
units, the staging areas and the inbound store. -/
def Form.Fits : Form → Mem → List Brick → List Port → List Plumb → List Nat → List Instr → Prop
  | .memory, m, _, _, _, _, _ => memWf m = true
  | .parts, _, bs, ps, us, ns, _ =>
    bs.length = 64 ∧ (∀ b ∈ bs, b.planes.length = 32) ∧ ps.length = 8 ∧ us.length = 4 ∧ ns.length = 8
  | .store is, _, _, _, _, _, ib => ib = is

def Form.Holds (x : Form) (s : State) : Prop :=
  x.Fits s.mem s.bricks s.mortar.ports s.plumb.units s.index.staging s.mortar.inbound

variable {x : Form} {s t : State} {m : Mem} {bs : List Brick} {ps : List Port} {us : List Plumb}
  {ns : List Nat} {ib : List Instr}

theorem Form.Holds.of
    (h : x.Fits s.mem s.bricks s.mortar.ports s.plumb.units s.index.staging s.mortar.inbound) : x.Holds s := h

theorem Form.Fits.of (h : x.Holds s) :
    x.Fits s.mem s.bricks s.mortar.ports s.plumb.units s.index.staging s.mortar.inbound := h

/-! ### Updates of the six parts -/

/-- Memory may become whatever is canonical where it was. -/
theorem Form.Fits.mem {m' : Mem} (hm : memWf m = true → memWf m' = true) (h : x.Fits m bs ps us ns ib) :
    x.Fits m' bs ps us ns ib := by
  cases x with
  | memory => exact hm h
  | _ => exact h

theorem length_modAt {α : Type} (l : List α) (i : Nat) (f : α → α) : (modAt l i f).length = l.length := by
  induction l generalizing i with
  | nil => rfl
  | cons a l ih => cases i with
    | zero => rfl
    | succ i => exact congrArg (· + 1) (ih i)

theorem fits_modAt_ports {i : Nat} {f : Port → Port} (h : x.Fits m bs ps us ns ib) :
    x.Fits m bs (modAt ps i f) us ns ib := by
  cases x with
  | memory => exact h
  | store => exact h
  | parts => simpa only [Form.Fits, length_modAt] using h

theorem fits_modAt_units {i : Nat} {f : Plumb → Plumb} (h : x.Fits m bs ps us ns ib) :
    x.Fits m bs ps (modAt us i f) ns ib := by
  cases x with
  | memory => exact h
  | store => exact h
  | parts => simpa only [Form.Fits, length_modAt] using h

theorem fits_modAt_staging {i : Nat} {f : Nat → Nat} (h : x.Fits m bs ps us ns ib) :
    x.Fits m bs ps us (modAt ns i f) ib := by
  cases x with
  | memory => exact h
  | store => exact h
  | parts => simpa only [Form.Fits, length_modAt] using h

/-- A change that leaves every Brick the number of its planes. -/
def KeepsPlanes (f : Brick → Brick) : Prop := ∀ b, b.planes.length = 32 → (f b).planes.length = 32

theorem fits_map_bricks {f : Brick → Brick} (hf : KeepsPlanes f) (h : x.Fits m bs ps us ns ib) :
    x.Fits m (bs.map f) ps us ns ib := by
  cases x with
  | memory => exact h
  | store => exact h
  | parts =>
    obtain ⟨hb, hp, h⟩ := h
    refine ⟨by simpa using hb, fun b hmem => ?_, h⟩
    obtain ⟨a, ha, rfl⟩ := List.mem_map.1 hmem
    exact hf a (hp a ha)

theorem mem_modAt {α : Type} {l : List α} {i : Nat} {f : α → α} {a : α} (h : a ∈ modAt l i f) :
    a ∈ l ∨ ∃ b ∈ l, a = f b := by
  induction l generalizing i with
  | nil => exact .inl h
  | cons c l ih =>
    cases i with
    | zero =>
      obtain rfl | h := List.mem_cons.1 h
      · exact .inr ⟨c, List.mem_cons_self, rfl⟩
      · exact .inl (List.mem_cons_of_mem _ h)
    | succ i =>
      obtain rfl | h := List.mem_cons.1 h
      · exact .inl List.mem_cons_self
      · obtain h | ⟨b, hb, rfl⟩ := ih h
        · exact .inl (List.mem_cons_of_mem _ h)
        · exact .inr ⟨b, List.mem_cons_of_mem _ hb, rfl⟩

theorem fits_modAt_bricks {i : Nat} {f : Brick → Brick} (hf : KeepsPlanes f)
    (h : x.Fits m bs ps us ns ib) : x.Fits m (modAt bs i f) ps us ns ib := by
  cases x with
  | memory => exact h
  | store => exact h
  | parts =>
    obtain ⟨hb, hp, h⟩ := h
    refine ⟨by rw [length_modAt]; exact hb, fun b hmem => ?_, h⟩
    obtain hb | ⟨a, ha, rfl⟩ := mem_modAt hmem
    · exact hp b hb
    · exact hf a (hp a ha)

theorem fits_writeBytes {a : Nat} {l : List Byte} (h : x.Fits m bs ps us ns ib) :
    x.Fits (writeBytes m a l) bs ps us ns ib := h.mem (memWf_writeBytes m a l)

theorem fits_zeroUnits {l : List Nat} (h : x.Fits m bs ps us ns ib) :
    x.Fits (l.foldl zeroUnit m) bs ps us ns ib := by
  induction l generalizing m with
  | nil => exact h
  | cons u l ih => exact ih (h.mem (memWf_zeroUnit m u))

theorem fits_ports {ps' : List Port} (hl : ps'.length = ps.length) (h : x.Fits m bs ps us ns ib) :
    x.Fits m bs ps' us ns ib := by
  cases x with
  | memory => exact h
  | store => exact h
  | parts => simpa only [Form.Fits, hl] using h

theorem fits_units {us' : List Plumb} (hl : us'.length = us.length) (h : x.Fits m bs ps us ns ib) :
    x.Fits m bs ps us' ns ib := by
  cases x with
  | memory => exact h
  | store => exact h
  | parts => simpa only [Form.Fits, hl] using h

theorem fits_staging {ns' : List Nat} (hl : ns'.length = ns.length) (h : x.Fits m bs ps us ns ib) :
    x.Fits m bs ps us ns' ib := by
  cases x with
  | memory => exact h
  | store => exact h
  | parts => simpa only [Form.Fits, hl] using h

theorem fits_zip_bricks {α : Type} {l : List α} {f : Brick × α → Brick} (hl : l.length = 64)
    (hf : ∀ b a, b.planes.length = 32 → (f (b, a)).planes.length = 32) (h : x.Fits m bs ps us ns ib) :
    x.Fits m ((bs.zip l).map f) ps us ns ib := by
  cases x with
  | memory => exact h
  | store => exact h
  | parts =>
    obtain ⟨hb, hp, h⟩ := h
    refine ⟨by rw [List.length_map, List.length_zip, hb, hl]; rfl, fun b hmem => ?_, h⟩
    obtain ⟨⟨b, a⟩, hz, rfl⟩ := List.mem_map.1 hmem
    exact hf b a (hp b (List.of_mem_zip hz).1)

theorem memWf_freeUnits {l : List (Nat × Nat)} {d : Nat} (h : memWf m = true) :
    memWf (l.foldl (fun m u => freeUnit m u.1 (d + u.2)) m) = true := by
  induction l generalizing m with
  | nil => exact h
  | cons u l ih => exact ih (memWf_freeUnit _ _ _ h)

theorem memWf_moveCells {a b n : Nat} (h : memWf m = true) : memWf (moveCells m a b n) = true := by
  unfold moveCells
  generalize m.cells.filter _ = l
  induction l generalizing m with
  | nil => exact h
  | cons c l ih => exact ih (memWf_writeByte _ _ _ h)

theorem unitOf_unitOf (a : Nat) : unitOf (unitOf a) = unitOf a := by
  unfold unitOf
  omega

theorem unitOf_mem_unitsOf {a b n : Nat} (hb : b ≤ a) (ha : a < b + n) :
    unitOf a ∈ unitsOf { addr := b, len := n } := by
  have hn : n ≠ 0 := by omega
  have hlo : b / unitBytes ≤ a / unitBytes := Nat.div_le_div_right hb
  have hhi : a / unitBytes ≤ (b + n - 1) / unitBytes := Nat.div_le_div_right (by omega)
  simp only [unitsOf, beq_iff_eq, hn, if_false, List.mem_map, List.mem_range]
  exact ⟨a / unitBytes - b / unitBytes, by omega, by rw [Nat.add_sub_cancel' hlo]; rfl⟩

/-- A fill over a name with a home is one of those that recovery keeps. -/
theorem fillHome_of_fillHas {a : Nat} {f : Fill} (ha : fillHas a f = true) (hh : hasHome s a = true) :
    fillHome s f = true := by
  have hunit : hasHome s (unitOf a) = true := by rwa [hasHome, unitOf_unitOf]
  cases f with
  | free u _ => rwa [← (beq_iff_eq.1 ha : unitOf a = u)]
  | zero u => rwa [← (beq_iff_eq.1 ha : unitOf a = u)]
  | idMap b n =>
    simp only [fillHas, Bool.and_eq_true, decide_eq_true_eq] at ha
    exact List.any_eq_true.2 ⟨_, unitOf_mem_unitsOf ha.1 ha.2, hunit⟩

/-- Recovery keeps the cells of the names with a home, and the fills over them (R300). -/
theorem memWf_homed (h : memWf m = true) :
    memWf { cells := m.cells.filter fun c => hasHome s c.1, fills := m.fills.filter (fillHome s) } =
      true := by
  simp only [memWf, Bool.and_eq_true, List.all_eq_true] at h ⊢
  obtain ⟨hrise, hplain⟩ := h
  refine ⟨cellsRise_filter _ _ hrise, fun c hc => ?_⟩
  obtain ⟨hmem, hhome⟩ := List.mem_filter.1 hc
  have hfind : ∀ l : List Fill, (l.filter (fillHome s)).find? (fillHas c.1) = l.find? (fillHas c.1) := by
    intro l
    rw [List.find?_filter]
    refine congrArg (List.find? · l) (funext fun f => ?_)
    cases hf : fillHas c.1 f with
    | false => simp
    | true => simp [fillHome_of_fillHas hf hhome]
  have := hplain c hmem
  simpa [always, plainByte, fillOf, hfind] using this

/-! ### Control flow -/

theorem holds_ite {c : Prop} [Decidable c] (hs : x.Holds s) (ht : x.Holds t) :
    x.Holds (if c then s else t) := by
  split
  · exact hs
  · exact ht

theorem holds_ite_fst {α : Type} {c : Prop} [Decidable c] {a b : State × α} (ha : x.Holds a.1)
    (hb : x.Holds b.1) : x.Holds (if c then a else b).1 := by
  split
  · exact ha
  · exact hb

theorem holds_foldl {α : Type} {f : State → α → State} {l : List α}
    (hf : ∀ s a, x.Holds s → x.Holds (f s a)) (h : x.Holds s) : x.Holds (l.foldl f s) := by
  induction l generalizing s with
  | nil => exact h
  | cons a l ih => exact ih (hf s a h)

/-! ### The functions of Machine/Ops.lean -/

theorem holds_interrupt {vector : Nat} (h : x.Holds s) : x.Holds (interrupt s vector) := .of h

theorem holds_clearPoison {a n : Nat} (h : x.Holds s) : x.Holds (clearPoison s a n) := .of h

theorem holds_outStep {o : Out} (h : x.Holds s) : x.Holds (outStep s o).1 := by
  unfold outStep
  split
  · exact h
  · split
    · exact holds_interrupt h
    · exact holds_ite_fst h (.of (fits_writeBytes h))
    · exact holds_ite_fst (.of (fits_writeBytes h)) (holds_ite_fst (.of (fits_writeBytes h)) (.of
        h))

theorem holds_drainItems {os : List Out} {stuck : List (Bool × Nat)} (h : x.Holds s) :
    x.Holds (drainItems s os stuck) := by
  induction os generalizing s stuck with
  | nil => exact h
  | cons o os ih =>
    have h1 : x.Holds (if o.barrier && stuck.contains o.key then (s, false) else outStep s o).1 :=
      holds_ite_fst h (holds_outStep h)
    exact holds_ite (ih h1) (ih (.of h1))

theorem holds_drainOut (h : x.Holds s) : x.Holds (drainOut s) := holds_drainItems (.of h)

theorem holds_emit {os : List Out} (h : x.Holds s) : x.Holds (emit s os) := holds_drainOut (.of h)

theorem holds_mortarSend {opcode dest tag pairSeq addr : Nat} {payload : List Byte} (h : x.Holds s) :
    x.Holds (mortarSend s opcode dest tag pairSeq addr payload) := by
  unfold mortarSend
  refine .of (fits_ports ?_ h)
  dsimp only
  split
  · rfl
  · exact length_modAt _ _ _

theorem holds_mortarRequest {opcode dest unit addr : Nat} {owner : Option Owner} {payload : List Byte}
    (h : x.Holds s) : x.Holds (mortarRequest s opcode dest owner unit addr payload) :=
  .of (holds_mortarSend h)

theorem holds_hwError {cls source unit location status action : Nat} (h : x.Holds s) :
    x.Holds (hwError s cls source unit location status action) := holds_ite (.of h) (.of h)

theorem holds_audit {origin event : Nat} {detail : List Nat} {originDetail : Nat}
    {changed : List Byte} (h : x.Holds s) :
    x.Holds (audit s origin event detail originDetail changed) := by
  unfold audit
  exact .of h

theorem holds_auditFail (h : x.Holds s) : x.Holds (auditFail s) := .of (holds_hwError h)

theorem holds_updCmd {id : Nat} {f : Cmd → Cmd} (h : x.Holds s) : x.Holds (updCmd s id f) := .of h

theorem holds_setPhase {id : Nat} {p : Phase} (h : x.Holds s) : x.Holds (setPhase s id p) :=
  holds_updCmd h

theorem holds_updSq {q : Nat} {f : SubQ → SubQ} (h : x.Holds s) : x.Holds (updSq s q f) := .of h

theorem holds_updCq {q : Nat} {f : ComplQ → ComplQ} (h : x.Holds s) : x.Holds (updCq s q f) := .of h

theorem holds_homeWrite {owner : Option Owner} {g : Home} {a : Nat} {bs : List Byte} (h : x.Holds s) :
    x.Holds (homeWrite owner s g a bs) := by
  unfold homeWrite
  split
  · exact .of h
  · exact holds_foldl (fun _ _ => holds_mortarRequest) h
  · exact h

theorem holds_unitWrite {owner : Option Owner} {a : Nat} {bs : List Byte} (h : x.Holds s) :
    x.Holds (unitWrite owner s a bs) := holds_homeWrite (.of (fits_writeBytes h))

theorem holds_deviceWrite {owner : Option Owner} {a : Nat} {bs : List Byte} (h : x.Holds s) :
    x.Holds (deviceWrite s owner a bs) :=
  holds_foldl (fun _ _ => holds_unitWrite) (holds_clearPoison h)

/-! ### The functions of Machine/Link.lean -/

theorem holds_linkEvent (h : x.Holds s) : x.Holds (linkEvent s) := holds_interrupt h

theorem holds_retrainUzone (h : x.Holds s) : x.Holds (retrainUzone s) :=
  holds_ite (holds_linkEvent (.of h)) (.of h)

/-! ### The functions of Machine/Retire.lean -/

theorem holds_updColl {id : Nat} {f : Coll → Coll} (h : x.Holds s) : x.Holds (updColl s id f) :=
  .of h

theorem holds_writeCode {c : Coll} {slot code : Nat} (h : x.Holds s) :
    x.Holds (writeCode s c slot code) := by
  unfold writeCode
  split
  · exact h
  · exact holds_deviceWrite h

theorem holds_putCode {coll slot code : Nat} (h : x.Holds s) :
    x.Holds (putCode s coll slot code) := by
  unfold putCode
  split
  · exact h
  · exact holds_writeCode (holds_updColl h)

theorem holds_freeSlot {coll slot : Nat} (h : x.Holds s) : x.Holds (freeSlot s coll slot) := by
  unfold freeSlot
  split
  · exact h
  · dsimp only
    refine holds_putCode ?_
    split
    · exact holds_deviceWrite (holds_foldl (fun _ _ => holds_deviceWrite) (.of h))
    · exact holds_foldl (fun _ _ => holds_deviceWrite) (.of h)

theorem holds_retire (h : x.Holds s) : x.Holds (retire s) :=
  .of (holds_foldl (fun _ _ h => holds_ite (holds_freeSlot h) (holds_putCode h)) h)

/-! ### The functions of Machine/Complete.lean -/

theorem holds_unpinned {pin : Option Nat} (h : x.Holds s) : x.Holds (unpinned s pin) :=
  holds_ite (holds_retire h) h

theorem holds_writeCompletion {q : ComplQ} {c : Completion} (h : x.Holds s) :
    x.Holds (writeCompletion s q c) := holds_emit (holds_unpinned (.of h))

theorem holds_post1 {c : Completion} (h : x.Holds s) : x.Holds (post1 s c) := by
  unfold post1
  split
  · exact .of h
  · split
    · exact .of h
    · exact holds_ite (holds_setPhase h) (holds_ite (holds_writeCompletion h) (holds_setPhase
        (holds_updCq h)))

theorem holds_settleDelete {q : SubQ} (h : x.Holds s) : x.Holds (settleDelete s q) := by
  unfold settleDelete
  split
  · exact h
  · split
    · exact h
    · dsimp only
      split
      · exact .of h
      · exact holds_post1 (.of h)

theorem holds_settleDeletes (h : x.Holds s) : x.Holds (settleDeletes s) :=
  holds_foldl (fun _ _ => holds_settleDelete) h

theorem holds_post {c : Completion} (h : x.Holds s) : x.Holds (post s c) :=
  holds_settleDeletes (holds_post1 h)

theorem holds_settleWriting {cmd : Nat} (h : x.Holds s) : x.Holds (settleWriting s cmd) := by
  unfold settleWriting
  split
  · exact h
  · split
    · exact holds_ite h (holds_post h)
    · exact h

theorem holds_flushHeld {n q : Nat} (h : x.Holds s) : x.Holds (flushHeld n q s) := by
  induction n generalizing s with
  | zero => exact h
  | succ n ih =>
    unfold flushHeld
    split
    · exact h
    · split
      · exact h
      · split
        · exact ih (holds_writeCompletion (holds_updCq h))
        · exact h

theorem holds_flushAllHeld (h : x.Holds s) : x.Holds (flushAllHeld s) :=
  holds_settleDeletes (holds_foldl (fun _ _ => holds_flushHeld) h)

theorem holds_slotWrite {id a : Nat} {bs : List Byte} (h : x.Holds s) :
    x.Holds (slotWrite s id a bs) := holds_emit h

theorem holds_slotBusy {id a : Nat} (h : x.Holds s) : x.Holds (slotBusy s id a) :=
  holds_updCmd (holds_slotWrite h)

theorem holds_slotPut {id a status : Nat} {payload : List Byte} {hops : Nat} (h : x.Holds s) :
    x.Holds (slotPut s id a status payload hops) := holds_updCmd (holds_emit (holds_slotWrite h))

theorem holds_failSlots {c : Cmd} {status : Nat} (h : x.Holds s) :
    x.Holds (failSlots s c status) := holds_foldl (fun _ _ => holds_slotPut) h

theorem holds_recordError {c : Cmd} {e : Err} (h : x.Holds s) : x.Holds (recordError s c e) := .of h

theorem holds_endFetched {q status : Nat} (h : x.Holds s) : x.Holds (endFetched s q status) :=
  holds_foldl (fun _ _ => holds_post) h

theorem holds_succeed {c : Cmd} {status flags info32 a b : Nat} (h : x.Holds s) :
    x.Holds (succeed s c status flags info32 a b) := holds_ite (holds_post h) h

theorem holds_fail {c : Cmd} {e : Err} (h : x.Holds s) : x.Holds (fail s c e) :=
  holds_ite h (holds_ite (holds_post (holds_recordError (holds_failSlots h))) (holds_endFetched
    (holds_post (holds_recordError (holds_failSlots h)))))

theorem holds_slotReady {id a status : Nat} {payload : List Byte} {hops : Nat} (h : x.Holds s) :
    x.Holds (slotReady s id a status payload hops) := by
  unfold slotReady
  split
  · split
    · exact holds_fail h
    · exact h
  · exact holds_slotPut h

theorem holds_postFault {unit : Nat} (h : x.Holds s) : x.Holds (postFault s unit) := by
  unfold postFault
  split
  · exact h
  · exact holds_emit (.of h)

theorem holds_postFaults (h : x.Holds s) : x.Holds (postFaults s) :=
  holds_foldl (fun _ _ h => holds_ite (holds_postFault h) h) h

theorem holds_openFault {who : Option Who} {u cause : Nat} {r : Range} {stop : Nat} (h : x.Holds s) :
    x.Holds (openFault s who u cause r stop) := holds_postFaults (.of h)

theorem holds_peerReads {n u o f len : Nat} {owner : Owner} (h : x.Holds s) :
    x.Holds (peerReads s n owner u o f len) := by
  induction f generalizing s o len with
  | zero => exact h
  | succ f ih =>
    unfold peerReads
    split
    · exact h
    · exact ih (holds_mortarRequest h)

theorem holds_askPart {owner : Owner} {r : Range} {u : Nat} {a5 : Reach} (h : x.Holds s) :
    x.Holds (askPart s owner r u a5) := by
  unfold askPart
  split
  · exact .of h
  · exact holds_peerReads h
  · exact h

theorem holds_blockOn {c : Cmd} {u : Nat} {r : Range} {stop : Nat} {y : Reach} (h : x.Holds s) :
    x.Holds (blockOn s c u r stop y) := by
  unfold blockOn
  dsimp only
  split
  · exact h
  · exact holds_ite (holds_openFault (holds_setPhase h)) (holds_fail h)
  · exact holds_fail h
  · exact holds_setPhase h
  · exact holds_setPhase h
  · exact holds_askPart (holds_updCmd h)
  · exact holds_askPart (holds_updCmd h)
  · exact holds_askPart (holds_updCmd h)

theorem holds_touching {c : Cmd} {stop : Nat} {rs : List Range} {act : State → State}
    (h : x.Holds s) (hact : ∀ a0, x.Holds a0 → x.Holds (act a0)) :
    x.Holds (touching s c stop rs act) := by
  unfold touching
  split
  · exact holds_blockOn h
  · exact hact _ h

/-! ### The functions of Machine/Operands.lean -/

theorem holds_busySlots {c : Cmd} {slots : List (Nat × Nat)} (h : x.Holds s) :
    x.Holds (busySlots s c slots) := holds_foldl (fun _ _ => holds_slotBusy) h

theorem holds_awaitSlots {c : Cmd} {lines : List Nat} (h : x.Holds s) :
    x.Holds (awaitSlots s c lines) := .of h

theorem holds_takeSlots {c : Cmd} {slots : List (Nat × Nat)} {act : State → Cmd → State}
    (h : x.Holds s) (hact : ∀ a0 a1, x.Holds a0 → x.Holds (act a0 a1)) :
    x.Holds (takeSlots s c slots act) := by
  unfold takeSlots
  split
  · exact holds_ite (holds_fail h) (holds_awaitSlots h)
  · split
    · exact holds_fail h
    · exact hact _ _ (holds_busySlots (holds_updCmd h))

theorem holds_resumeFetch {q : Nat} (h : x.Holds s) : x.Holds (resumeFetch s q) := by
  unfold resumeFetch
  split
  · exact h
  · split
    · exact h
    · dsimp only
      split
      · exact holds_succeed (holds_updSq h)
      · exact holds_updSq h

theorem holds_runCommand {q : Nat} {mine : Cmd → Bool} {pre : State → Cmd → Option Err}
    {ranges : State → Cmd → List Range} {check : State → Cmd → Option Err}
    {slots : State → Cmd → List (Nat × Nat)} {act : State → Cmd → State} (h : x.Holds s)
    (hact : ∀ a0 a1, x.Holds a0 → x.Holds (act a0 a1)) :
    x.Holds (runCommand s q mine pre ranges check slots act) := by
  unfold runCommand
  split
  · exact h
  · split
    · exact .of h
    · dsimp only
      split
      · exact hact _ _ (holds_setPhase (holds_ite (holds_resumeFetch h) h))
      · split
        · exact holds_fail (holds_ite (holds_resumeFetch h) h)
        · refine holds_touching (holds_ite (holds_resumeFetch h) h) ?_
          intro s h
          split
          · exact holds_fail h
          · exact holds_takeSlots h hact

/-! ### The functions of Machine/Queues.lean -/

theorem holds_audited {c : Cmd} {event : Nat} {detail : List Nat} {desc : List Byte}
    {act : State → State} (h : x.Holds s) (hact : ∀ a0, x.Holds a0 → x.Holds (act a0)) :
    x.Holds (audited s c event detail desc act) := by
  unfold audited
  exact holds_ite (hact _ (holds_audit h)) (holds_fail (holds_auditFail h))

theorem holds_addQueue {d : List Byte} (h : x.Holds s) : x.Holds (addQueue s d) := .of h

theorem holds_actQueueCreate {c : Cmd} (h : x.Holds s) : x.Holds (actQueueCreate s c) := by
  unfold actQueueCreate
  exact holds_audited h fun _ h => holds_succeed (holds_addQueue h)

theorem holds_dropRestart {q : Nat} (h : x.Holds s) : x.Holds (dropRestart s q) := by
  unfold dropRestart
  split
  · exact holds_fail (holds_updSq h)
  · exact holds_updSq h

theorem holds_actQueueDelete {c : Cmd} (h : x.Holds s) : x.Holds (actQueueDelete s c) :=
  holds_audited h fun _ h => holds_ite (holds_settleDeletes (holds_endFetched (holds_dropRestart
    (holds_updSq h)))) (holds_succeed (.of h))

theorem holds_raiseCopy {q : SubQ} (h : x.Holds s) : x.Holds (raiseCopy s q) := by
  unfold raiseCopy
  split
  · exact holds_ite (.of h) h
  · exact h

theorem holds_raiseCopies (h : x.Holds s) : x.Holds (raiseCopies s) :=
  holds_foldl (fun _ _ => holds_raiseCopy) h

theorem holds_restartQueue {q : Nat} {retry : Bool} {cmd : Option Nat} (h : x.Holds s) :
    x.Holds (restartQueue s q retry cmd) :=
  holds_ite (holds_raiseCopies (holds_updSq h)) (holds_updSq h)

theorem holds_actRestart {retry : Bool} {c : Cmd} (h : x.Holds s) :
    x.Holds (actRestart retry s c) :=
  holds_ite (holds_restartQueue (holds_setPhase h)) (holds_succeed (holds_restartQueue h))

theorem holds_actLogRead {c : Cmd} (h : x.Holds s) : x.Holds (actLogRead s c) :=
  holds_succeed (holds_slotReady h)

theorem holds_actPowerState {c : Cmd} (h : x.Holds s) : x.Holds (actPowerState s c) :=
  holds_ite (holds_updCmd h) (holds_ite (holds_succeed (.of h)) (.of h))

theorem holds_fetchEntry {q : SubQ} {cls : Nat} {credit : List Nat} (h : x.Holds s) :
    x.Holds (fetchEntry s q cls credit) := .of h

theorem holds_refuseFront {q : SubQ} (h : x.Holds s) : x.Holds (refuseFront s q) := by
  unfold refuseFront
  split
  · exact h
  · split
    · exact holds_fail h
    · exact h

theorem holds_fetchOne (h : x.Holds s) : x.Holds (fetchOne s) := by
  unfold fetchOne
  split
  · exact .of h
  · split
    · exact h
    · exact holds_ite (.of h) (holds_ite (holds_fetchEntry h) (.of h))

theorem holds_ringTail {q v : Nat} (h : x.Holds s) : x.Holds (ringTail s q v) := .of h

theorem holds_ringHead {q v : Nat} (h : x.Holds s) : x.Holds (ringHead s q v) :=
  holds_flushAllHeld (holds_updCq h)

theorem holds_writeAdminControl {v : Nat} (h : x.Holds s) : x.Holds (writeAdminControl s v) :=
  holds_ite (holds_restartQueue (.of h)) (.of h)

/-! ### The functions of Machine/Dev.lean -/

theorem holds_answer {m : Msg} (h : x.Holds s) : x.Holds (answer s m) := .of h

theorem holds_devAsk {r : Range} (h : x.Holds s) : x.Holds (devAsk s r) := by
  unfold devAsk
  refine holds_foldl ?_ h
  intro s _ h
  split
  · exact .of h
  · exact holds_askPart h

theorem holds_devAccess {i : Instr} (h : x.Holds s) : x.Holds (devAccess s i) :=
  holds_ite (holds_foldl (fun _ _ => holds_deviceWrite) (.of h)) (holds_devAsk (.of h))

theorem holds_devAnswer {i : Instr} {st : Nat} (h : x.Holds s) : x.Holds (devAnswer s i st) := by
  unfold devAnswer
  split
  · exact holds_answer h
  · exact holds_answer h
  · exact holds_answer h
  · exact h

theorem holds_devOver (h : x.Holds s) : x.Holds (devOver s) := .of h

theorem holds_devEnd {i : Instr} (h : x.Holds s) : x.Holds (devEnd s i).1 := by
  unfold devEnd
  split
  · exact holds_devAnswer (holds_devOver h)
  · exact holds_ite_fst h (holds_devAnswer (holds_devOver h))

theorem holds_devOne {i : Instr} (h : x.Holds s) : x.Holds (devOne s i).1 := by
  unfold devOne
  split
  · exact holds_devEnd h
  · split
    · exact h
    · exact holds_devAnswer h
    · exact holds_devEnd (holds_devAccess h)

theorem holds_serveWith {one : State → Instr → State × Bool} {n : Nat}
    (hone : ∀ s i, x.Holds s → x.Holds (one s i).1) (h : x.Holds s) :
    x.Holds (serveWith one n s) := by
  induction n generalizing s with
  | zero => exact h
  | succ n ih =>
    unfold serveWith
    split
    · exact h
    · dsimp only
      split
      · exact ih (hone _ _ h)
      · exact .of (hone _ _ h)

theorem holds_serveDevs (h : x.Holds s) : x.Holds (serveDevs s) :=
  holds_serveWith (fun _ _ h => holds_ite_fst (holds_devOne h) h) h

/-! ### The functions of Machine/Hod.lean -/

theorem holds_updUnit {u : Nat} {f : Plumb → Plumb} (h : x.Holds s) : x.Holds (updUnit s u f) :=
  .of (fits_modAt_units h)

theorem holds_updStream {id : Nat} {f : Machine.Stream → Machine.Stream} (h : x.Holds s) :
    x.Holds (updStream s id f) := .of h

theorem holds_releaseHod {cmd : Nat} (h : x.Holds s) : x.Holds (releaseHod s cmd) :=
  .of (fits_units ((List.length_map _).trans List.length_zipIdx) h)

theorem holds_writeReport {c : Cmd} {failed : Option Nat} {status : Nat} (h : x.Holds s) :
    x.Holds (writeReport s c failed status) := by
  unfold writeReport
  split
  · exact holds_slotWrite h
  · exact h

theorem holds_hodFail {c : Cmd} {failed : Option Nat} {e : Err} (h : x.Holds s) :
    x.Holds (hodFail s c failed e) := holds_fail (holds_releaseHod (holds_writeReport h))

theorem holds_endCmd {c : Cmd} {e : Err} (h : x.Holds s) : x.Holds (endCmd s c e) :=
  holds_ite (holds_hodFail h) (holds_fail h)

theorem holds_bind {course : Nat} {t : Machine.Stream} (h : x.Holds s) :
    x.Holds (Machine.bind s course t) := .of h

theorem holds_bindStage {d : List Byte} {c : Cmd} {i : Nat} (h : x.Holds s) :
    x.Holds (bindStage d c s i) := holds_bind h

theorem holds_takeLink {d : List Byte} {c : Cmd} {j : Nat} (h : x.Holds s) :
    x.Holds (takeLink d c s j) := by
  unfold takeLink
  dsimp only
  split
  · exact .of h
  · exact .of h

theorem holds_startUnits {c : Cmd} {units : List Nat} {cont : Bool} {go : State → State}
    (h : x.Holds s) (hgo : ∀ a0, x.Holds a0 → x.Holds (go a0)) :
    x.Holds (startUnits s c units cont go) := by
  unfold startUnits
  split
  · exact holds_setPhase h
  · exact holds_ite (hgo _ (holds_setPhase (holds_foldl (fun _ _ h => holds_ite h (holds_updUnit h))
      h))) (holds_hodFail h)

theorem holds_bindStages {c : Cmd} {d : List Byte} (h : x.Holds s) :
    x.Holds (bindStages s c d) := holds_foldl (fun _ _ => holds_bindStage) h

theorem holds_startChain {c : Cmd} {d : List Byte} (h : x.Holds s) :
    x.Holds (startChain s c d) := by
  unfold startChain
  dsimp only
  split
  · exact holds_startUnits h fun _ => holds_bindStages
  · split
    · exact holds_setPhase h
    · split
      · exact holds_hodFail h
      · exact holds_startUnits (holds_foldl (fun _ _ => holds_takeLink) h) fun _ => holds_bindStages

theorem holds_startScanUnit {c : Cmd} {d : List Byte} (h : x.Holds s) :
    x.Holds (startScanUnit s c d) := holds_startUnits h fun _ => holds_bind

theorem holds_actHod {desc : State → Cmd → List Byte} {start : State → Cmd → State} {c : Cmd}
    (hstart : ∀ a0 a1, x.Holds a0 → x.Holds (start a0 a1)) (h : x.Holds s) :
    x.Holds (actHod desc start s c) := holds_ite (hstart _ _ (holds_ite h (.of h))) h

theorem holds_startStreamCmd {c : Cmd} (h : x.Holds s) : x.Holds (startStreamCmd s c) :=
  holds_startChain h

theorem holds_startChainCmd {c : Cmd} (h : x.Holds s) : x.Holds (startChainCmd s c) :=
  holds_startChain h

theorem holds_startScanCmd {c : Cmd} (h : x.Holds s) : x.Holds (startScanCmd s c) :=
  holds_startScanUnit h

theorem holds_startAgain {c : Cmd} (h : x.Holds s) : x.Holds (startAgain s c) :=
  holds_ite (holds_startStreamCmd h) (holds_ite (holds_startChainCmd h) (holds_startScanCmd h))

theorem holds_haltStream {c : Cmd} {t : Machine.Stream} {u cause : Nat} {r : Range} (h : x.Holds s) :
    x.Holds (haltStream s c t u cause r) :=
  holds_ite (holds_openFault (holds_updStream h)) (holds_hodFail h)

theorem holds_issueTile {t : Machine.Stream} (h : x.Holds s) : x.Holds (issueTile s t) := .of h

theorem holds_holdWork (h : x.Holds s) : x.Holds (holdWork s) := .of h

theorem holds_holdTile {t : Machine.Stream} {u : Nat} {r : Range} {y : Reach} (h : x.Holds s) :
    x.Holds (holdTile s t u r y) := by
  unfold holdTile
  dsimp only
  split
  · exact holds_askPart (holds_updStream h)
  · exact holds_askPart (holds_updStream h)
  · exact holds_askPart (holds_updStream h)
  · exact holds_updStream (holds_holdWork h)
  · exact h

theorem holds_tryIssue {c : Cmd} {t : Machine.Stream} (h : x.Holds s) :
    x.Holds (tryIssue s c t) := by
  unfold tryIssue
  split
  · exact holds_hodFail h
  · split
    · exact holds_issueTile h
    · exact holds_haltStream h
    · exact holds_hodFail h
    · exact holds_holdTile h

theorem holds_bindOwn {o : Own} {cmd : Nat} {urgent : Bool} {src : Option Nat} (h : x.Holds s) :
    x.Holds (bindOwn s o cmd urgent src) := holds_bind h

theorem holds_startOwn {o : Own} (h : x.Holds s) : x.Holds (startOwn s o) := by
  unfold startOwn
  split
  · exact h
  · exact holds_ite (holds_issueTile (holds_updStream h)) (holds_updStream h)

theorem holds_haltOwn {o : Own} (h : x.Holds s) : x.Holds (haltOwn s o) := .of h

theorem holds_dropOwn {o : Own} (h : x.Holds s) : x.Holds (dropOwn s o) := .of h

theorem holds_endOwn {o : Own} (h : x.Holds s) : x.Holds (endOwn s o) := by
  unfold endOwn
  split
  · exact h
  · exact .of h

theorem holds_writeRuns {stream : Nat} {l : List (Nat × Nat)} {bs : List Byte} (h : x.Holds s) :
    x.Holds (writeRuns stream l bs s) := by
  induction l generalizing s bs with
  | nil => exact h
  | cons r l ih => exact ih (holds_deviceWrite h)

theorem holds_hodDone {c : Cmd} {result : Nat} (h : x.Holds s) : x.Holds (hodDone s c result) := by
  unfold hodDone
  dsimp only
  split
  · exact h
  · refine holds_succeed (holds_releaseHod ?_)
    split
    · exact holds_slotReady h
    · exact h

theorem holds_nextTap {c : Cmd} {u : Nat} (h : x.Holds s) : x.Holds (nextTap s c u) := by
  unfold nextTap
  split
  · exact holds_updUnit h
  · exact holds_ite (holds_updUnit (holds_updUnit h)) (holds_hodFail (holds_updUnit h))

theorem holds_writeTile {t : Machine.Stream} {i : Nat} (h : x.Holds s) :
    x.Holds (writeTile s t i) := holds_writeRuns (holds_writeRuns h)

theorem holds_deliver {c : Cmd} {t : Machine.Stream} {i : Nat} (h : x.Holds s) :
    x.Holds (deliver s c t i) := by
  unfold deliver
  cases t.plumb with
  | none => exact holds_ite (holds_hodDone (.of h)) (.of h)
  | some u =>
    have h1 := holds_updUnit (u := u) (f := absorb (tileData s t i)) h
    exact holds_ite (holds_hodDone (holds_nextTap (.of h1))) (.of h1)

theorem holds_dropTile {t : Machine.Stream} (h : x.Holds s) : x.Holds (dropTile s t) :=
  holds_updStream h

theorem holds_landTile {c : Cmd} {t : Machine.Stream} {i : Nat} (h : x.Holds s) :
    x.Holds (landTile s c t i) :=
  holds_ite (holds_ite h (holds_writeTile (holds_updStream h))) (holds_deliver (holds_ite h
    (holds_writeTile (holds_updStream h))))

theorem holds_tryDeliver {c : Cmd} {t : Machine.Stream} {i : Nat} (h : x.Holds s) :
    x.Holds (tryDeliver s c t i) := by
  unfold tryDeliver
  split
  · exact holds_ite (holds_dropTile (holds_writeTile h)) (holds_landTile h)
  · exact holds_haltStream (holds_dropTile h)
  · exact holds_hodFail h
  · exact h

theorem holds_resumeStream {id : Nat} (h : x.Holds s) : x.Holds (resumeStream s id) :=
  holds_updStream h

theorem holds_wakeStream {id : Nat} (h : x.Holds s) : x.Holds (wakeStream s id) := holds_updStream h

theorem holds_deadlock {cmd stage : Nat} (h : x.Holds s) : x.Holds (deadlock s cmd stage) := by
  unfold deadlock
  split
  · exact h
  · exact holds_hodFail h

theorem holds_examine {t : Machine.Stream} (h : x.Holds s) : x.Holds (examine s t) := by
  unfold examine
  dsimp only
  split
  · split
    · exact h
    · exact holds_deadlock h
  · exact holds_ite (holds_deadlock h) h

/-! ### The functions of Machine/Tiers.lean -/

theorem holds_setHome {u : Nat} {g : Home} {fault moving : Bool} (h : x.Holds s) :
    x.Holds (setHome s u g fault moving) := .of h

theorem holds_migrate {c : Cmd} {act : State → List Byte → State} (h : x.Holds s)
    (hact : ∀ s d, x.Holds s → x.Holds (act s d)) : x.Holds (migrate s c act) := by
  unfold migrate
  refine holds_ite (holds_setPhase h) ?_
  split
  · exact holds_fail h
  · exact hact _ _ h

theorem holds_migrateEach {c : Cmd} {f : State → Nat → State} (h : x.Holds s)
    (hf : ∀ a0 a1, x.Holds a0 → x.Holds (f a0 a1)) : x.Holds (migrateEach s c f) :=
  holds_migrate h fun _ _ h => holds_succeed (holds_foldl hf h)

theorem holds_markMoving {u : Nat} (h : x.Holds s) : x.Holds (markMoving s u) := holds_setHome h

theorem holds_updMove {cmd : Nat} {f : Migration → Migration} (h : x.Holds s) :
    x.Holds (updMove s cmd f) := .of h

theorem holds_copyOn {cmd : Nat} (h : x.Holds s) : x.Holds (copyOn s cmd) := by
  unfold copyOn
  split
  · exact h
  · exact holds_ite h (holds_homeWrite (holds_updMove h))

theorem holds_startCopy {cmd : Nat} (h : x.Holds s) : x.Holds (startCopy s cmd) := by
  unfold startCopy
  split
  · exact h
  · exact holds_copyOn (holds_askPart (holds_markMoving h))

theorem holds_actMove {c : Cmd} (h : x.Holds s) : x.Holds (actMove s c) :=
  holds_migrate h fun _ _ h => holds_ite (holds_fail h) (holds_startCopy (.of h))

theorem holds_placeUnit {u : Nat} (h : x.Holds s) : x.Holds (placeUnit s u) :=
  .of (h.mem (memWf_freeUnit _ _ _))

theorem holds_vacateUnit {u : Nat} (h : x.Holds s) : x.Holds (vacateUnit s u) := by
  unfold vacateUnit
  refine .of (Form.Fits.mem (memWf_dropUnit _ u) ?_)
  dsimp only
  split
  · exact fits_modAt_bricks (fun _ hb => hb) h
  · exact h

theorem holds_dropMove {cmd : Nat} (h : x.Holds s) : x.Holds (dropMove s cmd) := .of h

theorem holds_migrateFail {m : Migration} {e : Err} (h : x.Holds s) :
    x.Holds (migrateFail s m e) := by
  unfold migrateFail
  dsimp only
  split
  · exact holds_fail (holds_serveDevs (holds_dropMove (holds_setHome h)))
  · exact holds_serveDevs (holds_dropMove (holds_setHome h))

theorem holds_migrateDone {m : Migration} (h : x.Holds s) : x.Holds (migrateDone s m) := by
  unfold migrateDone
  split
  · exact holds_dropMove h
  · have h1 : ∀ k, x.Holds { setHome s (moveUnit m) k false false with
        bricks := if windowOf (moveUnit m) == some 3
          then moveTile s.bricks (moveUnit m) (homeOf s (moveUnit m)) k else s.bricks } := by
      intro k
      refine .of ?_
      dsimp only
      split
      · exact fits_modAt_bricks (fun _ hb => hb) h
      · exact h
    exact holds_ite (holds_startCopy (holds_updMove (h1 _))) (holds_succeed (holds_dropMove (h1 _)))

theorem holds_unitDone {cmd : Nat} {result : CopyEnd} (h : x.Holds s) :
    x.Holds (unitDone s cmd result) := by
  unfold unitDone
  split
  · exact h
  · split
    · exact h
    · split
      · exact holds_ite (holds_migrateDone h) h
      · exact holds_migrateFail h
      · exact holds_migrateFail h
      · exact holds_migrateFail h

theorem holds_writeTierControl {v : BitVec 32} (h : x.Holds s) :
    x.Holds (writeTierControl s v) := holds_postFaults (.of h)

/-! ### The functions of Machine/Collections.lean -/

theorem holds_writeIdMap {owner : Option Owner} {d : List Byte} {old new : List (Nat × Nat × Nat)}
    (h : x.Holds s) : x.Holds (writeIdMap s owner d old new) :=
  holds_foldl (fun _ _ => holds_deviceWrite) h

theorem holds_waitOn {c : Cmd} {w : Wait} (h : x.Holds s) : x.Holds (waitOn s c w) := .of h

theorem holds_locked {c : Cmd} {l : Lock} {act : State → State} (h : x.Holds s)
    (hact : ∀ a0, x.Holds a0 → x.Holds (act a0)) : x.Holds (locked s c l act) := by
  unfold locked
  split
  · exact holds_ite (hact _ h) (holds_setPhase h)
  · exact holds_ite (holds_ite (hact _ (.of h)) (holds_waitOn (.of h))) (holds_ite (holds_setPhase
      h) (holds_waitOn (.of h)))

theorem holds_sealed {c : Cmd} {info32 a b : Nat} (h : x.Holds s) :
    x.Holds (sealed s c info32 a b) := holds_ite (holds_setPhase h) (holds_post h)

theorem length_allotExtents {d : List Byte} {names : List Nat} (h : allotExtents s d = some names) :
    names.length = 64 := by
  unfold allotExtents at h
  rw [← List.length_range (n := 64)]
  generalize List.range 64 = l at h ⊢
  induction l generalizing names with
  | nil =>
    cases h
    rfl
  | cons b l ih =>
    rw [List.foldr_cons] at h
    split at h
    next ha =>
      cases h
      exact congrArg (· + 1) (ih ha)
    next => cases h

theorem holds_addColl {cmd : Nat} {d : List Byte} {names areas : List Nat} (hn : names.length = 64)
    (h : x.Holds s) : x.Holds (addColl s cmd d names areas) :=
  .of (Form.Fits.mem (fun hm => memWf_refill _ _ (memWf_writeBytes s.mem _ _ hm)) (fits_zip_bricks
    hn (fun _ _ hb => hb) h))

theorem holds_drawingKey {c : Cmd} {handle : Nat} {act : State → State} (h : x.Holds s)
    (hact : ∀ a0, x.Holds a0 → x.Holds (act a0)) : x.Holds (drawingKey s c handle act) :=
  holds_ite (holds_fail (holds_hwError h)) (hact _ h)

theorem holds_actCreate {c : Cmd} (h : x.Holds s) : x.Holds (actCreate s c) := by
  unfold actCreate
  dsimp only
  split
  · exact holds_fail h
  next hn _ =>
    exact holds_drawingKey h fun _ h => holds_audited h fun _ h =>
      holds_sealed (holds_addColl (length_allotExtents hn) h)
  · exact holds_fail h

theorem holds_removeColl {k : Coll} (h : x.Holds s) : x.Holds (removeColl s k) :=
  .of (fits_map_bricks (fun _ hb => hb) (h.mem (memWf_filter _ _)))

theorem holds_actDrop {c : Cmd} (h : x.Holds s) : x.Holds (actDrop s c) := by
  unfold actDrop
  split
  · exact holds_fail h
  · dsimp only
    refine holds_locked (holds_updCmd h) ?_
    intro s h
    split
    · exact holds_fail h
    · exact holds_ite (holds_fail h) (holds_ite (holds_audited h (fun _ h => holds_sealed
        (holds_removeColl h))) (holds_updCmd h))

/-! ### The functions of Machine/Epochs.lean -/

theorem holds_segHeader {c : Coll} {g : Segment} (h : x.Holds s) : x.Holds (segHeader s c g) :=
  holds_deviceWrite h

theorem holds_writeBlock {c : Coll} {b : Block} (h : x.Holds s) : x.Holds (writeBlock s c b) :=
  holds_deviceWrite h

theorem holds_putBlock {coll : Nat} {b : Block} (h : x.Holds s) : x.Holds (putBlock s coll b) := by
  unfold putBlock
  split
  · exact h
  · exact holds_writeBlock (holds_updColl h)

theorem holds_addProgram {b : Nat} {p : Program} (h : x.Holds s) : x.Holds (addProgram s b p) :=
  .of (fits_modAt_bricks (fun _ hb => hb) h)

theorem holds_foldBlock {c : Coll} {b : Block} {e : Nat} (h : x.Holds s) :
    x.Holds (foldBlock s c b e) := holds_addProgram (.of (holds_putBlock h))

theorem holds_tryFold {c : Coll} {b : Block} {e : Nat} (h : x.Holds s) :
    x.Holds (tryFold s c b e) := holds_ite (holds_hwError (holds_updColl h)) (holds_foldBlock h)

theorem holds_publishColl {e low : Nat} {c : Coll} (h : x.Holds s) :
    x.Holds (publishColl e low s c) := holds_foldl (fun _ _ => holds_segHeader) (holds_updColl h)

theorem holds_publish {e boundary : Nat} {deferred : Bool} (h : x.Holds s) :
    x.Holds (publish s e boundary deferred) :=
  holds_retire (.of (holds_foldl (fun _ _ => holds_publishColl) h))

theorem holds_published {cmd : Option Nat} (h : x.Holds s) : x.Holds (published s cmd) := by
  unfold published
  split
  · exact h
  · exact holds_succeed h

theorem holds_publishNext {deferred : Bool} (h : x.Holds s) : x.Holds (publishNext s deferred) := by
  unfold publishNext
  split
  · exact h
  · exact holds_published (holds_publish h)

theorem holds_publishAll {deferred : Bool} {n : Nat} (h : x.Holds s) :
    x.Holds (publishAll deferred n s) := by
  induction n generalizing s with
  | zero => exact h
  | succ n ih => exact ih (holds_publishNext h)

theorem holds_closeEpoch {t : Nat} {cmd : Option Nat} (h : x.Holds s) :
    x.Holds (closeEpoch s t cmd) := .of h

theorem holds_closeNext (h : x.Holds s) : x.Holds (closeNext s) := by
  unfold closeNext
  split
  · exact h
  · exact holds_ite (holds_closeEpoch h) h

theorem holds_closeTimes {n : Nat} (h : x.Holds s) : x.Holds (closeTimes n s) := by
  induction n generalizing s with
  | zero => exact h
  | succ n ih => exact ih (holds_closeNext h)

theorem holds_closeDue (h : x.Holds s) : x.Holds (closeDue s) := holds_closeTimes h

theorem holds_epochDone {c : Cmd} (h : x.Holds s) : x.Holds (epochDone s c) := holds_succeed h

theorem holds_actSchedule {c : Cmd} (h : x.Holds s) : x.Holds (actSchedule s c) :=
  holds_audited h fun _ h => holds_epochDone (.of (holds_closeDue h))

theorem holds_actCancel {c : Cmd} (h : x.Holds s) : x.Holds (actCancel s c) :=
  holds_audited h fun _ h => holds_epochDone (.of (holds_closeDue h))

theorem holds_actPublishNow {c : Cmd} (h : x.Holds s) : x.Holds (actPublishNow s c) :=
  holds_closeEpoch h

theorem holds_actSetFloor {c : Cmd} (h : x.Holds s) : x.Holds (actSetFloor s c) :=
  holds_audited h fun _ h => holds_epochDone (holds_retire (.of h))

theorem holds_foldDue {brick : Nat} (h : x.Holds s) : x.Holds (foldDue s brick) := by
  unfold foldDue
  split
  · exact h
  · exact holds_ite (holds_tryFold h) h

/-! ### The functions of Machine/Query.lean -/

theorem holds_batchStep {c : Cmd} (h : x.Holds s) : x.Holds (batchStep s c) := by
  unfold batchStep
  dsimp only
  split
  · exact h
  · split
    · exact holds_fail h
    · exact holds_succeed h

theorem holds_queryDone {c : Cmd} {slot status flags hops info32 : Nat} {payload : List Byte}
    (h : x.Holds s) : x.Holds (queryDone s c slot status flags hops info32 payload) := by
  unfold queryDone
  dsimp only
  split
  · split
    · exact holds_batchStep (holds_updCmd (holds_slotReady h))
    · exact holds_updCmd (holds_slotReady h)
  · exact holds_succeed (holds_slotReady h)

theorem holds_queryFail {c : Cmd} {idx slot hops : Nat} {e : Err} (h : x.Holds s) :
    x.Holds (queryFail s c idx slot hops e) := by
  unfold queryFail
  split
  · dsimp only
    split
    · exact holds_batchStep (holds_updCmd (holds_slotReady h))
    · exact holds_updCmd (holds_slotReady h)
  · exact holds_fail h

theorem holds_updFan {id : Nat} {f : Fan → Fan} (h : x.Holds s) : x.Holds (updFan s id f) := .of h

theorem holds_dropFan {id : Nat} (h : x.Holds s) : x.Holds (dropFan s id) := holds_retire (.of h)

theorem holds_fanDeliver {f : Fan} {c : Cmd} (h : x.Holds s) : x.Holds (fanDeliver s f c) := by
  unfold fanDeliver
  split
  · exact holds_queryFail h
  · exact holds_queryDone h

theorem holds_fanAnswer {f : Fan} {dest tag : Nat} (h : x.Holds s) :
    x.Holds (fanAnswer s f dest tag) := by
  unfold fanAnswer
  split
  · exact holds_mortarSend h
  · exact holds_mortarSend h

theorem holds_rootCheck {id : Nat} (h : x.Holds s) : x.Holds (rootCheck s id) := by
  unfold rootCheck
  split
  · exact h
  · split
    · split
      · exact holds_fanDeliver (holds_dropFan h)
      · exact holds_dropFan h
    · exact h

theorem holds_fanUp {f : Fan} {root : Nat} (h : x.Holds s) : x.Holds (fanUp s f root) :=
  holds_rootCheck (holds_updFan h)

theorem holds_fanCheck {id : Nat} (h : x.Holds s) : x.Holds (fanCheck s id) := by
  unfold fanCheck
  split
  · exact h
  · split
    · exact h
    · split
      · exact holds_rootCheck h
      · exact holds_fanUp (holds_dropFan h)
      · exact holds_fanAnswer (holds_dropFan h)
      · exact holds_dropFan h

theorem holds_fanMine {id : Nat} {p : PList} {q : Query} {walked : Bool} (h : x.Holds s) :
    x.Holds (fanMine s id p q walked) := holds_fanCheck (holds_updFan h)

theorem holds_fanFail {id status a : Nat} (h : x.Holds s) : x.Holds (fanFail s id status a) :=
  holds_fanCheck (holds_updFan h)

theorem holds_finishQuery {q : Query} {p0 : PList} (h : x.Holds s) :
    x.Holds (finishQuery s q p0) := by
  unfold finishQuery
  dsimp only
  split
  · exact holds_fanMine h
  · split
    · exact h
    · exact holds_queryDone h

theorem holds_failQuery {q : Query} {e : Err} (h : x.Holds s) : x.Holds (failQuery s q e) := by
  unfold failQuery
  split
  · exact holds_fanFail h
  · split
    · exact h
    · exact holds_queryFail h

theorem holds_selectQuery {q : Query} {row : List (Nat × F32)} (h : x.Holds s) :
    x.Holds (selectQuery s q row) := holds_ite (holds_failQuery h) (holds_finishQuery h)

/-! ### The functions of Machine/Walk.lean -/

theorem holds_blockRecord {slot plane st : Nat} (h : x.Holds s) :
    x.Holds (blockRecord s slot plane st) :=
  holds_ite (holds_hwError h) (holds_ite (holds_hwError (.of h)) h)

theorem holds_updWalk {id : Nat} {f : Walk → Walk} (h : x.Holds s) : x.Holds (updWalk s id f) :=
  .of h

theorem holds_enqueueWalk {w : Walk} (h : x.Holds s) : x.Holds (enqueueWalk s w) :=
  .of (fits_modAt_bricks (fun _ hb => by split <;> exact hb) h)

theorem holds_handOff {w : Walk} (h : x.Holds s) : x.Holds (handOff s w) :=
  holds_ite (holds_enqueueWalk (.of h)) (.of h)

theorem holds_slabEnqueue {op : SlabOp} (h : x.Holds s) : x.Holds (slabEnqueue s op) := .of h

theorem holds_closeTile {t : Tile} (h : x.Holds s) : x.Holds (closeTile s t) :=
  holds_slabEnqueue (.of h)

theorem holds_partOps {r : RerankReq} {cols : Nat} (h : x.Holds s) :
    x.Holds (partOps s r cols) := holds_foldl (fun _ _ => holds_slabEnqueue) h

theorem holds_openTile {r : RerankReq} (h : x.Holds s) : x.Holds (openTile s r) := .of h

theorem holds_joinTile {r : RerankReq} (h : x.Holds s) : x.Holds (joinTile s r) := by
  unfold joinTile
  split
  · exact holds_partOps h
  · refine holds_closeFull ?_
    split
    · exact holds_ite (.of h) (holds_openTile (holds_closeTile h))
    · exact holds_openTile h
where
  /-- The tile that is full, or in which an urgent request stands, closes. -/
  holds_closeFull {s : State} (h : x.Holds s) :
      x.Holds (match s.slab.tiles.find? (·.coll == r.query.coll) with
        | some t => if r.urgent || 512 ≤ t.reqs.length then closeTile s t else s
        | none => s) := by
    split
    · exact holds_ite (holds_closeTile h) h
    · exact h

theorem holds_updGather {id : Nat} {f : RerankReq → RerankReq} (h : x.Holds s) :
    x.Holds (updGather s id f) := .of h

theorem holds_dropGather {id : Nat} (h : x.Holds s) : x.Holds (dropGather s id) :=
  holds_dropOwn (.of h)

theorem holds_bulkRead {owner : ReadFor} {page : Nat} (h : x.Holds s) :
    x.Holds (bulkRead s owner page) :=
  .of (fits_modAt_bricks (fun _ hb => (length_modAt _ _ _).trans hb) h)

theorem holds_holdGather {r : RerankReq} {stop u : Nat} {y : Range} {y' : Reach} (h : x.Holds s) :
    x.Holds (holdGather s r stop u y y') := by
  unfold holdGather
  dsimp only
  split
  · exact holds_failQuery (holds_dropGather h)
  · exact holds_ite (holds_openFault (holds_haltOwn (holds_updGather h))) (holds_failQuery
      (holds_dropGather h))
  · exact holds_askPart (holds_updGather h)
  · exact holds_askPart (holds_updGather h)
  · exact holds_askPart (holds_updGather h)
  · exact holds_updGather (holds_holdWork h)
  · exact h

theorem holds_sendGather {r : RerankReq} (h : x.Holds s) : x.Holds (sendGather s r) :=
  holds_ite (holds_partOps h) (holds_joinTile h)

theorem holds_readCopies {r : RerankReq} {c : Coll} (h : x.Holds s) :
    x.Holds (readCopies s r c) := by
  unfold readCopies
  dsimp only
  split
  · exact holds_holdGather h
  · exact holds_foldl (fun _ _ => holds_bulkRead) (holds_updGather h)

theorem holds_tryGather {r : RerankReq} (h : x.Holds s) : x.Holds (tryGather s r) := by
  unfold tryGather
  split
  · exact holds_failQuery (holds_dropGather h)
  · exact holds_ite h (holds_ite (holds_readCopies (holds_startOwn (holds_ite h (holds_bindOwn h))))
      (holds_startOwn (holds_ite h (holds_bindOwn h))))

theorem holds_startRerank {q : Query} {cands : List (Nat × Nat)} {urgent : Bool} (h : x.Holds s) :
    x.Holds (startRerank s q cands urgent) :=
  holds_ite (holds_selectQuery h) (holds_tryGather (.of h))

theorem holds_deliverGather {id : Nat} (h : x.Holds s) : x.Holds (deliverGather s id) := by
  unfold deliverGather
  split
  · exact h
  · exact holds_ite (holds_sendGather (holds_dropGather (holds_endOwn h))) h

theorem holds_issueOwn {t : Machine.Stream} {o : Own} (h : x.Holds s) :
    x.Holds (issueOwn s t o) := by
  unfold issueOwn
  split
  · split
    · exact holds_tryGather h
    · exact holds_dropOwn h
  · exact holds_issueTile h

theorem holds_withdraw {w : Walk} (h : x.Holds s) : x.Holds (withdraw s w) :=
  .of (fits_modAt_bricks (fun _ hb => hb) (fits_map_bricks (fun _ hb => (List.length_map _).trans
    hb) h))

theorem holds_leaveBrick {w : Walk} (h : x.Holds s) : x.Holds (leaveBrick s w) :=
  .of (fits_modAt_bricks (fun _ hb => hb) (holds_withdraw h))

theorem holds_stopWalk {w : Walk} {late : Bool} (h : x.Holds s) : x.Holds (stopWalk s w late) :=
  holds_startRerank (.of (holds_leaveBrick h))

theorem holds_failWalk {w : Walk} {e : Err} (h : x.Holds s) : x.Holds (failWalk s w e) :=
  holds_failQuery (holds_leaveBrick h)

theorem holds_startRound {w : Walk} (h : x.Holds s) : x.Holds (startRound s w) :=
  .of (fits_modAt_bricks (fun _ hb => hb) h)

theorem holds_nextRound {w : Walk} (h : x.Holds s) : x.Holds (nextRound s w) :=
  holds_ite (holds_stopWalk h) (holds_ite (holds_stopWalk h) (holds_ite (holds_stopWalk h)
    (holds_startRound h)))

theorem holds_updEntry {r : ReadReq} {f : REntry → REntry} (h : x.Holds s) :
    x.Holds (updEntry s r f) := by
  unfold updEntry
  split
  · exact holds_ite h (holds_updWalk h)
  · exact h

theorem holds_returnRead {r : ReadReq} {result : Nat} (h : x.Holds s) :
    x.Holds (returnRead s r result) := holds_updEntry h

theorem holds_sendRead {r : ReadReq} (h : x.Holds s) : x.Holds (sendRead s r) := by
  unfold sendRead
  dsimp only
  split
  · split
    · exact h
    · exact holds_ite (holds_openFault h) (holds_failWalk h)
  · exact .of (fits_modAt_bricks (fun _ hb => hb) h)
  · split
    · exact .of (fits_modAt_bricks (fun _ hb => (length_modAt _ _ _).trans hb) h)
    · exact .of (fits_modAt_bricks (fun _ hb => hb) (holds_returnRead (holds_ite (holds_blockRecord
        h) h)))

theorem holds_sendGranted {b : Nat} {r : ReadReq} (h : x.Holds s) :
    x.Holds (sendGranted s b r) :=
  holds_ite (holds_sendRead (holds_updEntry h)) (.of (fits_modAt_bricks (fun _ hb => hb)
    (holds_updEntry h)))

theorem holds_readError {b : Nat} {r : ReadReq} {plane st retries : Nat} (h : x.Holds s) :
    x.Holds (readError s b r plane st retries) :=
  holds_ite (holds_hwError h) (holds_ite (holds_hwError (.of h)) (holds_ite (holds_hwError (.of h))
    h))

theorem holds_gatherPage {req st : Nat} (h : x.Holds s) : x.Holds (gatherPage s req st) := by
  unfold gatherPage
  split
  · exact h
  · exact holds_ite (holds_failQuery (holds_dropGather h)) (holds_updGather h)

theorem holds_cmdPage {cmd st : Nat} (h : x.Holds s) : x.Holds (cmdPage s cmd st) := by
  unfold cmdPage
  split
  · exact h
  · exact holds_ite (holds_endCmd h) (holds_ite h (holds_updCmd h))

theorem holds_noteBlock {b st retries : Nat} {r : ReadReq} (h : x.Holds s) :
    x.Holds (noteBlock s b r st retries) :=
  .of (fits_modAt_bricks (fun _ hb => by split <;> exact hb)
    (holds_ite (c := (!forBlock r) = true) h (holds_updColl h)))

theorem holds_crossBus {b n : Nat} (h : x.Holds s) : x.Holds (crossBus s b n) :=
  holds_foldl (fun _ _ h => .of (fits_modAt_bricks (fun _ hb => hb) h)) (.of (fits_modAt_bricks (fun
    _ hb => hb) h))

theorem holds_arrayDone {b : Nat} {r : ReadReq} {st : Nat} (h : x.Holds s) :
    x.Holds (arrayDone s b r st) := by
  unfold arrayDone
  dsimp only
  split
  · exact holds_returnRead (.of (fits_modAt_bricks (fun _ hb => hb) h))
  · exact holds_gatherPage (holds_crossBus (.of (fits_modAt_bricks (fun _ hb => hb) h)))
  · exact holds_cmdPage (holds_crossBus (.of (fits_modAt_bricks (fun _ hb => hb) h)))

theorem holds_processEntry {w : Walk} {i : Nat} {y : REntry} (h : x.Holds s) :
    x.Holds (processEntry s w i y) := by
  unfold processEntry
  split
  · exact holds_failWalk h
  · split
    · exact holds_failWalk h
    · exact .of (fits_modAt_bricks (fun _ hb => hb) h)

theorem holds_walkOn {n id : Nat} (h : x.Holds s) : x.Holds (walkOn n s id) := by
  induction n generalizing s with
  | zero => exact h
  | succ n ih =>
    unfold walkOn
    split
    · exact h
    · split
      · exact holds_nextRound h
      · exact holds_ite (holds_stopWalk h) (holds_ite h
          (holds_ite (holds_stopWalk h) (ih (holds_processEntry h))))

theorem holds_takeLanded {walk entry : Nat} {free : Bool} (h : x.Holds s) :
    x.Holds (takeLanded s walk entry free) := by
  unfold takeLanded
  dsimp only
  split
  · exact .of (fits_map_bricks (fun _ hb => hb) (holds_crossBus h))
  · exact .of (fits_map_bricks (fun _ hb => hb) h)

/-! ### The functions of Machine/Slab.lean -/

theorem holds_noteGot {op : SlabOp} {key : Nat} (h : x.Holds s) : x.Holds (noteGot s op key) := by
  unfold noteGot
  split
  · exact holds_updCmd h
  · exact holds_updGather h
  · exact h

theorem holds_askOpPart {op : SlabOp} {r : Range} {u : Nat} (h : x.Holds s) :
    x.Holds (askOpPart op r s u) := by
  unfold askOpPart
  dsimp only
  split
  · exact .of (holds_noteGot h)
  · exact holds_askPart (holds_noteGot h)
  · exact holds_askPart (holds_noteGot h)
  · exact h

theorem holds_askOp {op : SlabOp} (h : x.Holds s) : x.Holds (askOp s op) :=
  holds_foldl (fun _ _ h => holds_foldl (fun _ _ => holds_askOpPart) h) h

theorem holds_bindLoad {op : SlabOp} (h : x.Holds s) : x.Holds (bindLoad s op) :=
  holds_startOwn (holds_bindOwn h)

theorem holds_dropLoads {ops : List SlabOp} (h : x.Holds s) : x.Holds (dropLoads s ops) :=
  holds_foldl (fun _ _ => holds_dropOwn) h

theorem holds_admitOps {pair0 : Bool} {ops : List SlabOp} (h : x.Holds s) :
    x.Holds (admitOps s pair0 ops) :=
  holds_foldl (fun _ _ h => holds_askOp (holds_bindLoad h)) (.of h)

theorem holds_endPart {r : RerankReq} {part n : Nat} {e : Option Err} (h : x.Holds s) :
    x.Holds (endPart s r part n e) := by
  unfold endPart
  dsimp only
  split
  · exact holds_ite (.of h) (holds_failQuery (.of h))
  · exact holds_ite (.of h) (holds_selectQuery (.of h))

theorem holds_failOp {op : SlabOp} {e : Err} (h : x.Holds s) : x.Holds (failOp s op e) := by
  unfold failOp
  split
  · exact holds_foldl (fun _ _ => holds_failQuery) h
  · exact holds_endPart h
  · split
    · exact holds_failQuery (holds_dropGather h)
    · exact h
  · split
    · exact holds_endCmd h
    · exact h

theorem holds_dropOrphans (h : x.Holds s) : x.Holds (dropOrphans s) := .of h

theorem holds_parkOps {late : Bool} {ops : List SlabOp} {u cause : Nat} {r : Range} (h : x.Holds s) :
    x.Holds (parkOps s late ops u cause r) :=
  holds_ite (holds_openFault (.of (holds_dropLoads (.of h)))) (holds_foldl (fun _ _ => holds_failOp)
    (holds_dropLoads (.of h)))

theorem holds_slabRoom (h : x.Holds s) : x.Holds (slabRoom s) := .of h

theorem holds_pairLoaded {pair0 : Bool} {ops : List SlabOp} (h : x.Holds s) :
    x.Holds (pairLoaded s pair0 ops) := .of (holds_foldl (fun _ _ => holds_endOwn) h)

theorem holds_endInPair {pair0 : Bool} {ops : List SlabOp} {op : SlabOp} {e : Err} (h : x.Holds s) :
    x.Holds (endInPair s pair0 ops op e) := holds_failOp (holds_dropLoads (.of h))

theorem holds_endPrologue {pair0 : Bool} {ops : List SlabOp} (h : x.Holds s) :
    x.Holds (endPrologue s pair0 ops) := by
  unfold endPrologue
  dsimp only
  split
  · exact holds_parkOps (.of h)
  · exact holds_endInPair h
  · exact holds_holdWork h
  · exact holds_askOp h
  · exact holds_pairLoaded h

theorem holds_endCompute {pair0 : Bool} {ops : List SlabOp} (h : x.Holds s) :
    x.Holds (endCompute s pair0 ops) := .of h

theorem holds_putRow {cmd : Nat} {d : List Byte} {N m n0 : Nat} {xs : List F32} (h : x.Holds s) :
    x.Holds (putRow s cmd d N m n0 xs) := holds_ite (.of h) (holds_deviceWrite (.of h))

theorem holds_putBlockRows {op : SlabOp} {cmd m0 n0 : Nat} {d hb : List Byte}
    {values : List (List ℤ)} (h : x.Holds s) :
    x.Holds (putBlockRows s op cmd m0 n0 d hb values) :=
  holds_foldl (fun _ _ h => holds_ite (holds_putRow h) (holds_deviceWrite h)) h

theorem holds_unpark {id : Nat} (h : x.Holds s) : x.Holds (unpark s id) := by
  unfold unpark
  dsimp only
  split
  · exact h
  · exact holds_ite (.of h) (holds_foldl (fun _ _ => holds_slabEnqueue) (.of h))

theorem holds_actMatmul {c : Cmd} (h : x.Holds s) : x.Holds (actMatmul s c) :=
  holds_ite h (holds_foldl (fun _ _ => holds_slabEnqueue) (holds_updCmd h))

theorem holds_actRescale {c : Cmd} (h : x.Holds s) : x.Holds (actRescale s c) :=
  holds_ite h (holds_slabEnqueue (holds_updCmd h))

theorem holds_actProject {c : Cmd} (h : x.Holds s) : x.Holds (actProject s c) := by
  unfold actProject
  split
  · exact holds_fail h
  · exact holds_slabEnqueue h

/-! ### The functions of Machine/Index.lean -/

theorem holds_addSegment {k : Coll} {n : Nat} {names : List Nat} (h : x.Holds s) :
    x.Holds (addSegment s k n names) := holds_segHeader (holds_updColl h)

theorem holds_ensureSeg {coll n : Nat} (h : x.Holds s) (ht : ensureSeg s coll n = some t) :
    x.Holds t := by
  unfold ensureSeg at ht
  split at ht
  · cases ht
  · split at ht
    · cases ht
      exact h
    · split at ht
      · cases ht
      · obtain ⟨_, -, rfl⟩ := Option.map_eq_some_iff.1 ht
        exact holds_addSegment h

theorem holds_assignSlots {coll : Nat} {l : List Bool} {acc : List Place} (h : x.Holds s) :
    x.Holds (assignSlots coll s l acc).1 := by
  induction l generalizing s acc with
  | nil => exact h
  | cons side rest ih =>
    unfold assignSlots
    split
    · exact h
    · dsimp only
      split
      · exact h
      · split
        · exact h
        next hs =>
          have h1 := holds_ensureSeg h hs
          exact holds_ite_fst (.of h1) (ih (.of h1))

theorem holds_readPages {c : Cmd} {rs : List Range} {act : State → State} (h : x.Holds s)
    (hact : ∀ a0, x.Holds a0 → x.Holds (act a0)) : x.Holds (readPages s c rs act) :=
  holds_ite (hact _ h) (holds_foldl (fun _ _ => holds_bulkRead) (holds_updCmd h))

theorem holds_countBuild {n : NewNode} (h : x.Holds s) : x.Holds (countBuild s n) :=
  .of (fits_reads (fits_modAt_bricks (fun _ hb => hb) h))
where
  fits_reads {l : List Nat} {bs : List Brick} (h : x.Fits s.mem bs s.mortar.ports s.plumb.units s.index.staging
      s.mortar.inbound) :
      x.Fits s.mem (l.foldl (fun l x => modAt l (brickOf x) fun k => { k with
        remoteReads := (k.remoteReads + 1) % 2 ^ 64 }) bs) s.mortar.ports s.plumb.units s.index.staging
        s.mortar.inbound := by
    induction l generalizing bs with
    | nil => exact h
    | cons _ l ih => exact ih (fits_modAt_bricks (fun _ hb => hb) h)

theorem holds_setEpochs {coll slot vid : Nat} {f : Change → Change} (h : x.Holds s) :
    x.Holds (setEpochs s coll slot vid f) := .of h

theorem holds_writeSlices {owner : Option Owner} {g : Segment} {slot : Nat} {w : BitVec 64}
    (h : x.Holds s) : x.Holds (writeSlices s owner g slot w) :=
  holds_foldl (fun _ _ => holds_deviceWrite) h

theorem holds_writeCopy {owner : Option Owner} {d : List Byte} {g : Segment} {y : Slot}
    (h : x.Holds s) : x.Holds (writeCopy s owner d g y) := by
  unfold writeCopy
  dsimp only
  split
  · exact holds_deviceWrite (holds_deviceWrite h)
  · exact holds_deviceWrite h

theorem holds_writeScaf {owner : Option Owner} {d : List Byte} {r : ScafRec} (h : x.Holds s) :
    x.Holds (writeScaf s owner d r) := holds_deviceWrite h

theorem holds_addScaf {owner : Option Owner} {k : Coll} {n : NewNode} {i : Nat} (h : x.Holds s) :
    x.Holds (addScaf s owner k n i) := holds_foldl (fun _ _ => holds_writeScaf) (holds_updColl h)

theorem holds_putNode {k : Coll} {cmd e : Nat} {n : NewNode} (h : x.Holds s) :
    x.Holds (putNode s k cmd e n) := by
  unfold putNode
  refine .of (fits_modAt_staging (holds_addProgram (holds_putCode ?_)))
  split
  · refine holds_addScaf (holds_putBlock ?_)
    split
    · exact holds_segHeader (holds_writeSlices (holds_writeCopy (holds_updColl h)))
    · exact holds_updColl h
  · refine holds_putBlock ?_
    split
    · exact holds_segHeader (holds_writeSlices (holds_writeCopy (holds_updColl h)))
    · exact holds_updColl h

theorem holds_commitNode {e cmd coll : Nat} {n : NewNode} (h : x.Holds s) :
    x.Holds (commitNode e cmd coll s n) := by
  unfold commitNode
  split
  · exact h
  · refine .of (holds_writeIdMap (holds_updColl ?_))
    split
    · exact holds_setEpochs (holds_putNode h)
    · exact holds_putNode h

theorem holds_commitInsert {c : Cmd} {k : Coll} {recs : List InsRec} {ns : List NewNode}
    (h : x.Holds s) : x.Holds (commitInsert s c k recs ns) :=
  holds_ite (holds_sealed (holds_foldl (fun _ _ => holds_commitNode) (holds_foldl (fun _ _ =>
    holds_countBuild) h))) (holds_sealed (holds_foldl (fun _ _ => holds_commitNode) (holds_foldl
    (fun _ _ => holds_countBuild) h)))

theorem holds_insCommit {c : Cmd} {k : Coll} {recs : List InsRec} {ns : List NewNode}
    (h : x.Holds s) : x.Holds (insCommit s c k recs ns) :=
  holds_ite (holds_waitOn h) (holds_ite (holds_waitOn h) (holds_touching h (fun _ h =>
    holds_readPages h (fun _ => holds_commitInsert))))

theorem holds_insBuild {c : Cmd} {k : Coll} {recs : List InsRec} {places : List Place}
    (h : x.Holds s) : x.Holds (insBuild s c k recs places) := by
  unfold insBuild
  dsimp only
  split
  · exact holds_fail (holds_blockRecord (holds_foldl (fun _ _ => holds_countBuild) h))
  · exact holds_blockOn h
  · exact holds_readPages h fun _ => holds_insCommit

theorem holds_insRun {c : Cmd} {k : Coll} {recs : List InsRec} (h : x.Holds s) :
    x.Holds (insRun s c k recs) := by
  unfold insRun
  split
  · exact holds_fail h
  · split
    · exact holds_fail h
    · split
      · exact holds_waitOn h
      · split
        · exact holds_slabEnqueue h
        · dsimp only
          split
          · exact holds_ite (holds_setPhase (holds_assignSlots (holds_closeDue (holds_retire h))))
              (holds_insBuild (holds_assignSlots (holds_closeDue (holds_retire h))))
          · exact holds_fail (holds_assignSlots (holds_closeDue (holds_retire h)))

theorem holds_onIds {c : Cmd} {ids : List Nat} {act : State → Cmd → Coll → State} (h : x.Holds s)
    (hact : ∀ a0 a1 a2, x.Holds a0 → x.Holds (act a0 a1 a2)) : x.Holds (onIds s c ids act) := by
  unfold onIds
  split
  · exact holds_fail h
  · dsimp only
    refine holds_locked (holds_updCmd h) ?_
    intro s h
    split
    · exact holds_fail h
    · exact holds_ite (hact _ _ _ h) (holds_fail h)

theorem holds_insDispatch {c : Cmd} {recs : List InsRec} (h : x.Holds s) :
    x.Holds (insDispatch s c recs).1 := by
  unfold insDispatch
  dsimp only
  split
  · exact .of h
  · exact holds_updSq h

theorem holds_actInsert {c : Cmd} (h : x.Holds s) : x.Holds (actInsert s c) := by
  unfold actInsert
  dsimp only
  split
  · exact holds_fail (holds_ite_fst h (holds_insDispatch h))
  · exact holds_onIds (holds_ite_fst h (holds_insDispatch h)) fun _ _ _ => holds_insRun

theorem holds_actUpdate {c : Cmd} (h : x.Holds s) : x.Holds (actUpdate s c) := holds_actInsert h

theorem holds_deleteId {e cmd coll : Nat} {v : Nat} (h : x.Holds s) :
    x.Holds (deleteId e cmd coll s v) := by
  unfold deleteId
  split
  · exact h
  · split
    · exact h
    · exact holds_writeIdMap (holds_setEpochs (holds_updColl h))

theorem holds_delRun {c : Cmd} {k : Coll} {ids : List Nat} (h : x.Holds s) :
    x.Holds (delRun s c k ids) :=
  holds_ite (holds_waitOn (holds_closeDue (holds_retire h))) (holds_touching (holds_closeDue
    (holds_retire h)) (fun _ h => holds_readPages h (fun _ h => holds_sealed (holds_foldl (fun _ _
    => holds_deleteId) h))))

theorem holds_actDelete {c : Cmd} (h : x.Holds s) : x.Holds (actDelete s c) :=
  holds_onIds h fun _ _ _ => holds_delRun

theorem holds_endRepair {coll commit : Nat} (h : x.Holds s) :
    x.Holds (endRepair s coll commit) := holds_updColl h

theorem holds_repairRun {c : Cmd} {k : Coll} {pr : Nat} (h : x.Holds s) :
    x.Holds (repairRun s c k pr) := by
  unfold repairRun
  dsimp only
  split
  · exact holds_fail (holds_endRepair (holds_closeDue (holds_retire h)))
  · split
    · exact holds_blockOn (holds_closeDue (holds_retire h))
    · split
      · exact holds_fail (holds_blockRecord (holds_endRepair (holds_closeDue (holds_retire h))))
      · exact holds_ite (holds_waitOn (holds_closeDue (holds_retire h))) (holds_ite (holds_waitOn
          (holds_closeDue (holds_retire h))) (holds_sealed (holds_endRepair (.of (holds_foldl (fun _
          _ => holds_setEpochs) (holds_closeDue (holds_retire h)))))))

theorem holds_repairStart {c : Cmd} {k : Coll} (h : x.Holds s) : x.Holds (repairStart s c k) :=
  holds_ite (holds_fail h) (holds_ite (holds_updCmd h) (holds_ite (holds_fail h) (holds_updCmd
    (holds_updColl h))))

theorem holds_actRepair {c : Cmd} (h : x.Holds s) : x.Holds (actRepair s c) := by
  unfold actRepair
  split
  · exact holds_fail h
  · split
    · exact holds_repairStart h
    · exact holds_repairRun h

theorem holds_switchUnits {old : List Area} {units : List Nat} (h : x.Holds s) :
    x.Holds (switchUnits s old units) := holds_foldl (fun _ _ => holds_setHome) (.of h)

theorem holds_moveCopy {m : Mem} {k : Coll} {old new : Segment} {y : Slot} {row : Option Nat}
    (h : x.Holds s) : x.Holds (moveCopy m k old new y row s) := by
  unfold moveCopy
  dsimp only
  split
  · exact .of (fits_writeBytes (fits_writeBytes h))
  · exact .of (fits_writeBytes h)

theorem holds_sendUnits {owner : Option Owner} {us : List Nat} (h : x.Holds s) :
    x.Holds (sendUnits owner s us) := holds_foldl (fun _ _ => holds_homeWrite) h

theorem holds_dropCells {p : Host.Cell → Bool} {f : Tiers} (h : x.Holds s) :
    x.Holds { s with mem := { s.mem with cells := s.mem.cells.filter p }, tiers := f } :=
  .of (Form.Fits.mem (memWf_filter _ _) h)

theorem holds_moveCells {a b n : Nat} (h : x.Holds s) :
    x.Holds { s with mem := moveCells s.mem a b n } :=
  .of (Form.Fits.mem (fun h => memWf_moveCells h) h)

theorem holds_compactSwitch {cmd a : Nat} {k : Coll} {g : Segment} (h : x.Holds s) :
    x.Holds (compactSwitch s cmd k g a) := by
  unfold compactSwitch
  refine holds_segHeader (holds_dropCells (holds_sendUnits
    (holds_foldl (fun _ _ h => holds_moveCopy h) (holds_switchUnits (holds_updColl ?_)))))
  exact holds_moveCells (.of (fits_zeroUnits h))

theorem holds_foldSegment {k : Coll} {n : Nat} (h : x.Holds s) : x.Holds (foldSegment s k n) :=
  holds_foldl (fun _ _ h => holds_ite h (holds_tryFold h)) h

theorem holds_compactEnd {c : Cmd} {k : Coll} {g : Segment} (h : x.Holds s) :
    x.Holds (compactEnd s c k g) := by
  unfold compactEnd
  dsimp only
  refine holds_touching h ?_
  intro s h
  refine holds_readPages h ?_
  intro s h
  split
  · exact holds_fail (holds_hwError h)
  · split
    · exact holds_sealed (holds_compactSwitch (holds_foldSegment h))
    · exact h

theorem holds_actCompact {c : Cmd} (h : x.Holds s) : x.Holds (actCompact s c) := by
  unfold actCompact
  dsimp only
  split
  · exact holds_fail h
  · split
    · exact holds_compactEnd h
    · split
      · exact holds_fail h
      · split
        · exact holds_updCmd h
        · split
          · exact holds_fail h
          · exact .of h

theorem holds_freePrograms {mine : Program → Bool} (h : x.Holds s) :
    x.Holds (freePrograms s mine) :=
  .of (fits_map_bricks (fun _ hb => hb) (fits_staging length_freed h))
where
  length_freed {l : List Program} {ns : List Nat} :
      (l.foldl (fun l p => modAt l p.course (· - p.bytes)) ns).length = ns.length := by
    induction l generalizing ns with
    | nil => rfl
    | cons p l ih => exact ih.trans (length_modAt _ _ _)

theorem holds_wakeFrom {cmd : Nat} {ok : Wait → Bool} (h : x.Holds s) :
    x.Holds (wakeFrom s cmd ok) := by
  unfold wakeFrom
  split
  · exact h
  · split
    · exact holds_ite (holds_setPhase h) h
    · exact h

theorem holds_grantLock {cmd : Nat} (h : x.Holds s) : x.Holds (grantLock s cmd) := by
  unfold grantLock
  split
  · exact holds_ite (holds_wakeFrom (.of h)) h
  · exact holds_ite (holds_wakeFrom h) h

theorem holds_retireBlock {b : Nat} (h : x.Holds s) : x.Holds (retireBlock s b) :=
  holds_hwError (.of (fits_modAt_bricks (fun _ hb => hb) h))

theorem holds_programEnd {b : Nat} {ok : Bool} (h : x.Holds s) : x.Holds (programEnd s b ok) := by
  unfold programEnd
  dsimp only
  split
  · exact h
  next p _ =>
    split
    · have h1 := fits_modAt_bricks (i := b) (f := fun k => startPrograms { k with
        programs := (s.bricks.getD b {}).programs.erase p }) (fun _ hb => hb)
        (fits_modAt_staging (i := p.course) (f := (· - p.bytes)) h)
      cases p.cmd with
      | none => exact .of h1
      | some id => exact holds_settleWriting (.of h1)
    · exact holds_retireBlock (.of (fits_modAt_bricks (fun _ hb => hb) h))

theorem holds_refreshBlock {coll slot : Nat} (h : x.Holds s) :
    x.Holds (refreshBlock s coll slot) := by
  unfold refreshBlock
  split
  · exact h
  · split
    · exact h
    · exact holds_addProgram (holds_writeBlock h)

/-! ### The functions of Machine/Search.lean -/

theorem holds_startScan {r : RerankReq} {q : Query} {k : Coll} {fallback : Bool} (h : x.Holds s) :
    x.Holds (startScan s r q k fallback) := by
  unfold startScan
  split
  · exact holds_holdGather h
  · exact holds_ite (holds_selectQuery (holds_dropGather h)) (holds_tryGather (holds_updGather h))

theorem holds_askSketch {r : RerankReq} {k : Coll} (h : x.Holds s) : x.Holds (askSketch s r k) :=
  holds_slabEnqueue (holds_updGather h)

theorem holds_walkScaffold {r : RerankReq} {q : Query} {k : Coll} (h : x.Holds s) :
    x.Holds (walkScaffold s r q k) := by
  unfold walkScaffold
  dsimp only
  split
  · exact holds_startScan h
  · split
    · exact holds_holdGather (holds_updGather h)
    · exact holds_handOff (holds_dropGather h)

theorem holds_runQuery {r : RerankReq} {k : Coll} (h : x.Holds s) : x.Holds (runQuery s r k) :=
  holds_ite (holds_askSketch h) (holds_ite (holds_startScan h) (holds_ite (holds_startScan h)
    (holds_walkScaffold h)))

theorem holds_beginQuery {r : RerankReq} (h : x.Holds s) : x.Holds (beginQuery s r) := by
  unfold beginQuery
  dsimp only
  split
  · exact holds_failQuery (holds_dropGather h)
  · split
    · exact holds_holdGather h
    · split
      · exact holds_failQuery (holds_dropGather h)
      · exact holds_runQuery (holds_updGather h)

theorem holds_sketchDone {id : Nat} (h : x.Holds s) : x.Holds (sketchDone s id) := by
  unfold sketchDone
  split
  · exact h
  · split
    · exact holds_failQuery (holds_dropGather h)
    · exact holds_runQuery (holds_updGather h)

theorem holds_startQuery {q : Query} {urgent : Bool} (h : x.Holds s) :
    x.Holds (startQuery s q urgent) := holds_beginQuery (.of h)

theorem holds_sendFan {f : Fan} {child : Nat} (h : x.Holds s) : x.Holds (sendFan f s child) :=
  holds_mortarRequest h

theorem holds_memberRun {f : Fan} (h : x.Holds s) : x.Holds (memberRun s f) := by
  unfold memberRun
  split
  · exact holds_updFan h
  · dsimp only
    split
    · exact holds_fanFail (holds_updFan h)
    · exact holds_ite (holds_fanFail (holds_updFan h)) (holds_ite (holds_fanFail (holds_updFan h))
        (holds_startQuery (holds_updFan h)))

theorem holds_memberStart {f : Fan} (h : x.Holds s) : x.Holds (memberStart s f) :=
  holds_memberRun (holds_foldl (fun _ _ => holds_sendFan) (.of h))

theorem holds_sendQueryFan {c : Cmd} {i : Nat} (h : x.Holds s) : x.Holds (sendQueryFan c s i) :=
  holds_ite (holds_memberStart (.of h)) (holds_sendFan (.of h))

theorem holds_beginFan {r : RerankReq} (h : x.Holds s) : x.Holds (beginFan s r) := by
  unfold beginFan
  split
  · exact holds_dropGather h
  · split
    · exact holds_holdGather h
    · exact holds_sendQueryFan (holds_dropGather h)

theorem holds_startFan {c : Cmd} {i : Nat} (h : x.Holds s) : x.Holds (startFan c s i) :=
  holds_beginFan (.of h)

theorem holds_retryGather {r : RerankReq} (h : x.Holds s) : x.Holds (retryGather s r) :=
  holds_ite h (holds_ite (holds_beginFan h) (holds_ite (holds_beginQuery h) (holds_tryGather h)))

theorem holds_resumeGather {id : Nat} (h : x.Holds s) : x.Holds (resumeGather s id) := by
  unfold resumeGather
  split
  · exact h
  · exact holds_retryGather (holds_updGather h)

theorem holds_wakeFans (h : x.Holds s) : x.Holds (wakeFans s) :=
  holds_foldl (fun _ _ => holds_memberRun) h

theorem holds_pinCmd {c : Cmd} (h : x.Holds s) : x.Holds (pinCmd s c) := holds_updCmd h

theorem holds_actSearch {c : Cmd} (h : x.Holds s) : x.Holds (actSearch s c) := by
  unfold actSearch
  split
  · exact h
  · dsimp only
    split
    · exact holds_foldl (fun _ _ => holds_startFan) (holds_pinCmd h)
    · split
      · exact holds_fail (holds_pinCmd h)
      · exact holds_foldl (fun _ _ => holds_startQuery) (holds_pinCmd h)

theorem holds_actSearchBatch {c : Cmd} (h : x.Holds s) : x.Holds (actSearchBatch s c) :=
  holds_actSearch h

theorem holds_actScan {c : Cmd} (h : x.Holds s) : x.Holds (actScan s c) := holds_actSearch h

theorem holds_beginRerank {c : Cmd} {k : Coll} {e : Nat} (h : x.Holds s) :
    x.Holds (beginRerank c k e s) := holds_startRerank h

theorem holds_actRerank {c : Cmd} (h : x.Holds s) : x.Holds (actRerank s c) := by
  unfold actRerank
  dsimp only
  split
  · exact holds_fail (holds_ite h (holds_pinCmd h))
  · exact holds_touching (holds_ite h (holds_pinCmd h)) fun _ h => holds_readPages h fun _ =>
      holds_beginRerank

/-! ### The functions of Machine/Kv.lean -/

theorem holds_updSeq {id : Nat} {f : KvSeq → KvSeq} (h : x.Holds s) : x.Holds (updSeq s id f) :=
  .of h

theorem holds_writeEntry {o : Option Owner} {q : KvSeq} {p : KvPage} (h : x.Holds s) :
    x.Holds (writeEntry s o q p) := holds_deviceWrite h

theorem holds_writeSummary {o : Option Owner} {q : KvSeq} {p : KvPage} (h : x.Holds s) :
    x.Holds (writeSummary s o q p) := by
  unfold writeSummary
  split
  · exact holds_deviceWrite h
  · exact h

theorem holds_putPage {o : Option Owner} {id : Nat} {p : KvPage} (h : x.Holds s) :
    x.Holds (putPage s o id p) := by
  unfold putPage
  split
  · exact h
  · exact holds_writeEntry (holds_updSeq h)

theorem holds_onPages {c : Cmd} {id lo hi : Nat} {act : State → State} (h : x.Holds s)
    (hact : ∀ a0, x.Holds a0 → x.Holds (act a0)) : x.Holds (onPages s c id lo hi act) :=
  holds_locked h hact

theorem holds_noteAfter {c : Cmd} {l lens : List Nat} (h : x.Holds s) :
    x.Holds (noteAfter s c l lens).1 := holds_ite_fst h (holds_updCmd h)

theorem holds_addSeq {d : List Byte} {names : List Nat} (h : x.Holds s) :
    x.Holds (addSeq s d names) := .of (fits_zeroUnits h)

theorem holds_actKvCreate {c : Cmd} (h : x.Holds s) : x.Holds (actKvCreate s c) := by
  unfold actKvCreate
  dsimp only
  refine holds_onPages h ?_
  intro s h
  split
  · exact holds_fail h
  · split
    · exact holds_fail h
    · exact holds_drawingKey h fun _ h => holds_succeed (holds_addSeq h)

theorem holds_storeVec {o : Option Owner} {d : List Byte} {frame t kind : Nat} {v : QVec}
    (h : x.Holds s) : x.Holds (storeVec s o d frame t kind v) :=
  holds_ite (holds_deviceWrite (holds_deviceWrite h)) (holds_deviceWrite h)

theorem holds_commitPage {o : Option Owner} {id j p : Nat} (h : x.Holds s) :
    x.Holds (commitPage s o id j p) := by
  unfold commitPage
  split
  · exact h
  · split
    · exact h
    · exact holds_writeSummary (holds_updSeq h)

theorem holds_framePage {o : Option Owner} {id j p : Nat} (h : x.Holds s)
    (ht : framePage s o id j p = some t) : x.Holds t := by
  unfold framePage at ht
  split at ht
  · cases ht
  · split at ht
    · cases ht
      exact h
    · obtain ⟨_, -, rfl⟩ := Option.map_eq_some_iff.1 ht
      exact holds_putPage (holds_ite (holds_deviceWrite h) h)

theorem holds_framePages {o : Option Owner} {id : Nat} {l : List (Nat × Nat)} (h : x.Holds s)
    (ht : framePages o id s l = some t) : x.Holds t := by
  induction l generalizing s with
  | nil =>
    cases ht
    exact h
  | cons p l ih =>
    unfold framePages at ht
    split at ht
    · cases ht
    next hp => exact ih (holds_framePage h hp) ht

theorem holds_storeToken {o : Option Owner} {id pos : Nat} {d bs : List Byte} {y : Nat × Nat}
    (h : x.Holds s) : x.Holds (storeToken o id pos d bs s y) := by
  unfold storeToken
  split
  · exact h
  · dsimp only
    split
    · exact h
    · exact holds_storeVec (holds_storeVec h)

theorem holds_appendTokens {cmd id len : Nat} {d : List Byte} {heads : Nat} (h : x.Holds s) :
    x.Holds (appendTokens s cmd id len d heads) :=
  holds_updCmd (holds_updSeq (holds_foldl (fun _ _ => holds_commitPage) (holds_foldl (fun _ _ =>
    holds_storeToken) h)))

theorem holds_readBulk {c : Cmd} {d : List Byte} {ps : List KvPage} {act : State → State}
    (h : x.Holds s) (hact : ∀ a0, x.Holds a0 → x.Holds (act a0)) :
    x.Holds (readBulk s c d ps act) :=
  holds_ite (hact _ h) (holds_foldl (fun _ _ => holds_bulkRead) (holds_updCmd h))

theorem holds_swappedFault {c : Cmd} {p : KvPage} {len stop : Nat} (h : x.Holds s) :
    x.Holds (swappedFault s c p len stop) := holds_blockOn h

theorem holds_appendRun {c : Cmd} {q : KvSeq} {d : List Byte} (h : x.Holds s) :
    x.Holds (appendRun s c q d) := by
  unfold appendRun
  refine holds_ite (holds_fail h) (holds_ite (holds_fail h) (holds_ite (holds_fail h) ?_))
  split
  · exact holds_swappedFault h
  · refine holds_readBulk h fun s h => ?_
    split
    · exact holds_fail h
    next hs =>
      have h1 := holds_framePages h hs
      split
      · exact h
      · split
        · exact holds_blockOn h
        · exact holds_succeed (holds_appendTokens h1)

theorem holds_actKvAppend {c : Cmd} (h : x.Holds s) : x.Holds (actKvAppend s c) := by
  unfold actKvAppend
  dsimp only
  split
  · exact holds_fail h
  · refine holds_onPages (holds_noteAfter h) ?_
    intro s h
    split
    · exact holds_fail h
    · exact holds_appendRun h

theorem holds_readItems {c : Cmd} {l : List (ItemCtx × Nat)} {act : State → State} (h : x.Holds s)
    (hact : ∀ s, x.Holds s → x.Holds (act s)) : x.Holds (readItems c l s act) := by
  induction l generalizing s with
  | nil => exact hact s h
  | cons k l ih => exact holds_readBulk h fun _ h => ih h

theorem holds_startItems {c : Cmd} {ks : List (ItemCtx × Nat)} (h : x.Holds s) :
    x.Holds (startItems s c ks) := holds_foldl (fun _ _ => holds_slabEnqueue) (.of h)

theorem holds_attendRun {c : Cmd} (h : x.Holds s) : x.Holds (attendRun s c) := by
  unfold attendRun
  split
  · exact holds_fail h
  · dsimp only
    split
    · exact holds_swappedFault h
    · exact holds_ite (holds_fail h) (holds_touching h (fun _ h => holds_readItems h (fun _ =>
        holds_startItems)))

theorem holds_actKvAttend {c : Cmd} (h : x.Holds s) : x.Holds (actKvAttend s c) :=
  holds_ite (holds_setPhase (holds_noteAfter h)) (holds_attendRun (holds_noteAfter h))

theorem holds_addMass {y : AttendItem} {ps : List Machine.Part} {z : Nat × Nat × List F32}
    (h : x.Holds s) : x.Holds (addMass y ps s z) := by
  unfold addMass
  split
  · exact h
  · split
    · exact h
    · exact holds_writeSummary (holds_updSeq h)

theorem holds_attendStep {cmd idx : Nat} {urgent : Bool} (h : x.Holds s) :
    x.Holds (attendStep s cmd idx urgent) := by
  unfold attendStep
  split
  · exact h
  · exact holds_ite (.of h) (holds_slabEnqueue (.of h))

theorem holds_attendDone {c : Cmd} (h : x.Holds s) : x.Holds (attendDone s c) :=
  holds_ite h (holds_succeed (holds_slotReady (.of h)))

theorem holds_mergeItem {y : AttendItem} (h : x.Holds s) : x.Holds (mergeItem s y) :=
  .of (holds_foldl (fun _ _ => holds_addMass) h)

theorem holds_evicting {c : Cmd} {act : State → Cmd → KvSeq → List Byte → State} (h : x.Holds s)
    (hact : ∀ a0 a1 a2 a3, x.Holds a0 → x.Holds (act a0 a1 a2 a3)) :
    x.Holds (evicting s c act) := by
  unfold evicting
  dsimp only
  refine holds_onPages (holds_noteAfter h) ?_
  intro s h
  split
  · exact holds_setPhase h
  · split
    · exact holds_fail h
    · exact hact _ _ _ _ h

theorem holds_toBulk {o : Option Owner} {cmd id : Nat} {d : List Byte} {p : KvPage} (h : x.Holds s) :
    x.Holds (toBulk o cmd id d s p) :=
  holds_foldl (fun _ _ => holds_addProgram) (holds_putPage (.of h))

theorem holds_dropPage {o : Option Owner} {id : Nat} {p : KvPage} (h : x.Holds s) :
    x.Holds (dropPage o id s p) := holds_putPage h

theorem holds_moveToBulk {c : Cmd} {q : KvSeq} {ps : List KvPage} {more : Nat}
    {done : State → State} (h : x.Holds s) (hdone : ∀ a0, x.Holds a0 → x.Holds (done a0)) :
    x.Holds (moveToBulk s c q ps more done) :=
  holds_ite (holds_fail h) (holds_ite (holds_fail h) (holds_touching h (fun _ h => holds_ite
    (holds_setPhase (hdone _ (holds_foldl (fun _ _ => holds_toBulk) h))) (holds_succeed (hdone _
    (holds_foldl (fun _ _ => holds_toBulk) h))))))

theorem holds_evictRun {c : Cmd} {q : KvSeq} {d : List Byte} (h : x.Holds s) :
    x.Holds (evictRun s c q d) :=
  holds_ite (holds_moveToBulk h (fun _ h => h)) (holds_succeed (holds_foldl (fun _ _ =>
    holds_dropPage) h))

theorem holds_makeDurable {id : Nat} (h : x.Holds s) : x.Holds (makeDurable s id) := holds_updSeq h

theorem holds_evictAllRun {c : Cmd} {q : KvSeq} {a4 : List Byte} (h : x.Holds s) :
    x.Holds (evictAllRun s c q a4) :=
  holds_ite (holds_fail h) (holds_moveToBulk h (fun _ => holds_makeDurable))

theorem holds_actKvEvict {c : Cmd} (h : x.Holds s) : x.Holds (actKvEvict s c) :=
  holds_evicting h fun _ _ _ _ => holds_evictRun

theorem holds_actKvEvictAll {c : Cmd} (h : x.Holds s) : x.Holds (actKvEvictAll s c) :=
  holds_evicting h fun _ _ _ _ => holds_evictAllRun

theorem holds_swapOutPage {o : Option Owner} {id a : Nat} {d : List Byte} {y : KvPage × Nat}
    (h : x.Holds s) : x.Holds (swapOutPage o id a d s y) := holds_putPage (holds_deviceWrite h)

theorem holds_swapOutRun {c : Cmd} {q : KvSeq} {d : List Byte} (h : x.Holds s) :
    x.Holds (swapOutRun s c q d) :=
  holds_ite (holds_fail h) (holds_touching h (fun _ h => holds_succeed (holds_foldl (fun _ _ =>
    holds_swapOutPage) h)))

theorem holds_actKvSwapOut {c : Cmd} (h : x.Holds s) : x.Holds (actKvSwapOut s c) :=
  holds_evicting h fun _ _ _ _ => holds_swapOutRun

theorem holds_swapInPage {o : Option Owner} {id : Nat} {p : KvPage} (h : x.Holds s)
    (ht : swapInPage s o id p = some t) : x.Holds t := by
  unfold swapInPage at ht
  split at ht
  · cases ht
  · obtain ⟨_, -, rfl⟩ := Option.map_eq_some_iff.1 ht
    exact holds_putPage (holds_deviceWrite h)

theorem holds_swapInPages {o : Option Owner} {id : Nat} {l : List KvPage} (h : x.Holds s)
    (ht : swapInPages o id s l = some t) : x.Holds t := by
  induction l generalizing s with
  | nil =>
    cases ht
    exact h
  | cons p l ih =>
    unfold swapInPages at ht
    split at ht
    · cases ht
    next hp => exact ih (holds_swapInPage h hp) ht

theorem holds_swapInRun {c : Cmd} {q : KvSeq} {d : List Byte} (h : x.Holds s) :
    x.Holds (swapInRun s c q d) := by
  unfold swapInRun
  refine holds_ite (holds_fail h) (holds_touching h fun s h => holds_readBulk h fun s h => ?_)
  split
  · exact holds_fail h
  next hs => exact holds_succeed (holds_updSeq (holds_swapInPages h hs))

theorem holds_actKvSwapIn {c : Cmd} (h : x.Holds s) : x.Holds (actKvSwapIn s c) :=
  holds_evicting h fun _ _ _ _ => holds_swapInRun

theorem holds_destroyRun {c : Cmd} {q : KvSeq} {a4 : List Byte} (h : x.Holds s) :
    x.Holds (destroyRun s c q a4) := holds_succeed (.of h)

theorem holds_actKvDestroy {c : Cmd} (h : x.Holds s) : x.Holds (actKvDestroy s c) :=
  holds_evicting h fun _ _ _ _ => holds_destroyRun

/-! ### The functions of Machine/SlabEnd.lean -/

theorem holds_opDone {cmd : Nat} (h : x.Holds s) : x.Holds (opDone s cmd) := by
  unfold opDone
  split
  · exact h
  · exact holds_ite (holds_succeed h) (holds_updCmd h)

theorem holds_projectDone {cmd coll : Nat} {vecs : List (List F32)} (h : x.Holds s) :
    x.Holds (projectDone s cmd coll vecs) := by
  unfold projectDone
  split
  · exact holds_succeed (holds_slotReady (.of h))
  · exact holds_fail h
  · exact h

theorem holds_finishOp {op : SlabOp} (h : x.Holds s) : x.Holds (finishOp s op) := by
  unfold finishOp
  split
  · exact h
  · split
    · exact holds_foldl (fun _ _ => holds_selectQuery) h
    · exact holds_endPart h
    · exact holds_sketchDone h
    · exact holds_updCmd h
    · exact holds_attendStep h
    · exact holds_projectDone h
    · exact holds_opDone (holds_putBlockRows h)
    · exact holds_opDone h

theorem holds_finishGroup {ops : List SlabOp} (h : x.Holds s) : x.Holds (finishGroup s ops) :=
  holds_foldl (fun _ _ => holds_finishOp) (.of h)

/-! ### The functions of Machine/Mailbox.lean -/

theorem holds_respond {smbus : Bool} {bs : List Byte} (h : x.Holds s) :
    x.Holds (respond s smbus bs) := .of h

theorem holds_mailDone {status a0 a1 a2 : Nat} {payload : List Byte} (h : x.Holds s) :
    x.Holds (mailDone s status a0 a1 a2 payload) := .of h

theorem holds_mailEnd {status : Nat} (h : x.Holds s) : x.Holds (mailEnd s status) :=
  holds_mailDone h

theorem holds_mailWake (h : x.Holds s) : x.Holds (mailWake s) := .of h

/-! ### The functions of Machine/Owners.lean -/

theorem holds_wakeCmd {id : Nat} (h : x.Holds s) : x.Holds (wakeCmd s id) :=
  holds_ite (holds_settleWriting (holds_copyOn h)) (holds_updCmd (holds_settleWriting (holds_copyOn
    h)))

theorem holds_wakeOwner {o : Owner} (h : x.Holds s) : x.Holds (wakeOwner s o) := by
  unfold wakeOwner
  split
  · exact h
  · split
    · exact holds_wakeCmd h
    · exact holds_ite (holds_resumeGather h) h
    · exact holds_ite (holds_wakeStream h) h
    · exact h
    · exact h
    · exact holds_ite (holds_mailWake h) h

theorem holds_reopen {id : Nat} (h : x.Holds s) : x.Holds (reopen s id) := holds_updCmd h

theorem holds_endOwner {o : Owner} {e : Err} (h : x.Holds s) : x.Holds (endOwner s o e) := by
  unfold endOwner
  split
  · split
    · exact holds_ite h (holds_migrateFail h)
    · dsimp only
      split
      · exact holds_endCmd (holds_reopen h)
      · exact holds_reopen h
  · split
    · exact holds_failQuery (holds_dropGather h)
    · exact h
  · split
    · split
      · exact holds_hodFail h
      · exact h
    · exact h
  · exact h
  · exact .of h
  · exact holds_ite (holds_mailEnd h) h

theorem holds_farLost {l : Nat} (h : x.Holds s) : x.Holds (farLost s l) :=
  holds_foldl (fun _ _ => holds_endOwner) (.of h)

theorem holds_farForOp {id : Nat} {poison : Bool} (h : x.Holds s) :
    x.Holds (farForOp s id poison) := by
  unfold farForOp
  dsimp only
  split
  · exact .of h
  · split
    · split
      · exact holds_endInPair (.of h)
      · exact .of h
    · exact .of h

theorem holds_farAnswer {who : FarRead} {poison : Bool} (h : x.Holds s) :
    x.Holds (farAnswer s who poison) := by
  unfold farAnswer
  split
  · split
    · split
      · exact holds_ite h (holds_ite (holds_endOwner h) (holds_setPhase h))
      · exact h
    · exact h
  · split
    · exact holds_ite h (holds_ite (holds_endOwner h) (holds_resumeGather h))
    · exact h
  · split
    · exact holds_ite h (holds_ite (holds_endOwner h) (holds_wakeStream h))
    · exact h
  · exact holds_farForOp h
  · exact holds_ite h (holds_ite (holds_endOwner (.of h)) (.of h))
  · exact holds_ite h (holds_ite (holds_endOwner h) (holds_mailWake h))

theorem holds_forgetReq {tag : Nat} (h : x.Holds s) : x.Holds (forgetReq s tag) := .of h

theorem holds_unbacked {r : MReq} (h : x.Holds s) : x.Holds (unbacked s r) := by
  unfold unbacked
  dsimp only
  split
  · exact holds_ite (holds_openFault (holds_forgetReq h)) (holds_forgetReq h)
  · exact holds_endOwner (holds_forgetReq h)
  · exact holds_ite (holds_openFault (.of h)) (holds_endOwner (holds_forgetReq h))

theorem holds_retryPeer {tag : Nat} (h : x.Holds s) : x.Holds (retryPeer s tag) := by
  unfold retryPeer
  split
  · exact h
  · dsimp only
    split
    · exact holds_forgetReq h
    · split
      · exact holds_ite (holds_openFault h) (holds_endOwner (holds_forgetReq h))
      · exact holds_endOwner (holds_forgetReq h)
      · exact holds_wakeOwner (holds_ite (holds_homeWrite (holds_forgetReq h)) (holds_askPart
          (holds_forgetReq h)))

theorem holds_expirePeer {tag u : Nat} (h : x.Holds s) : x.Holds (expirePeer s tag u) := by
  unfold expirePeer
  split
  · exact h
  · split
    · exact holds_endOwner (holds_forgetReq h)
    · exact holds_forgetReq h

/-! ### The functions of Machine/Faults.lean -/

theorem holds_retryWaiter {u : Nat} {w : Waiter} (h : x.Holds s) : x.Holds (retryWaiter u s w) := by
  unfold retryWaiter
  split
  · exact holds_updCmd h
  · exact holds_resumeStream h
  · exact holds_sendRead h
  · exact holds_resumeGather h
  · exact holds_unpark h
  · exact holds_retryPeer h
  · exact holds_mailWake h

theorem holds_resolveFault {f : TierFault} (h : x.Holds s) : x.Holds (resolveFault s f) :=
  holds_foldl (fun _ _ => holds_retryWaiter) (.of h)

theorem holds_expireWaiter {u : Nat} {w : Waiter} (h : x.Holds s) :
    x.Holds (expireWaiter u s w) := by
  unfold expireWaiter
  dsimp only
  split
  · split
    · exact holds_ite (holds_endCmd h) h
    · exact h
  · split
    · split
      · exact holds_hodFail h
      · exact h
    · exact h
  · split
    · exact holds_failWalk h
    · exact h
  · split
    · exact holds_failQuery (holds_dropGather h)
    · exact h
  · split
    · exact holds_foldl (fun _ _ => holds_failOp) (.of h)
    · exact h
  · exact holds_expirePeer h
  · exact holds_endOwner h

theorem holds_expireFault {f : TierFault} (h : x.Holds s) : x.Holds (expireFault s f) :=
  holds_dropOrphans (holds_foldl (fun _ _ => holds_expireWaiter) (.of h))

/-! ### The functions of Machine/Remote.lean -/

theorem holds_childFail {fan child status : Nat} (h : x.Holds s) :
    x.Holds (childFail s fan child status) := holds_fanCheck (holds_updFan h)

theorem holds_endReq {r : MReq} {status : Nat} (h : x.Holds s) : x.Holds (endReq s r status) := by
  unfold endReq
  split
  · exact holds_childFail h
  · exact holds_endOwner h
  · exact h

/-! ### What every step keeps

The functions so far leave the inbound store of Mortar as it is; what follows may not, and keeps the other
two forms. -/

/-- The two forms that every step keeps. -/
inductive Lasting where
  | memory
  | parts

def Lasting.form : Lasting → Form
  | .memory => .memory
  | .parts => .parts

variable {φ : Lasting}

/-- The forms that last do not look at the inbound store. -/
theorem fits_store {is : List Instr} (h : φ.form.Fits m bs ps us ns ib) :
    φ.form.Fits m bs ps us ns is := by
  cases φ with
  | memory => exact h
  | parts => exact h

theorem holds_dropCommands (h : φ.form.Holds s) : φ.form.Holds (dropCommands s) :=
  .of (fits_map_bricks (fun _ _ => List.length_replicate) (fits_units (List.length_map _) (fits_store h)))

theorem holds_peerLost {n : Nat} (h : φ.form.Holds s) : φ.form.Holds (peerLost s n) :=
  holds_foldl (fun _ _ => holds_endReq) (holds_interrupt (.of (fits_store h)))

theorem holds_losePeers {old s : State} (h : φ.form.Holds s) :
    φ.form.Holds (losePeers old s) := holds_foldl (fun _ _ => holds_peerLost) h

theorem holds_regainPeers (h : φ.form.Holds s) : φ.form.Holds (regainPeers s) := .of h

theorem holds_setTimeRoot (h : φ.form.Holds s) : φ.form.Holds (setTimeRoot s) := .of h

theorem holds_controlSend {p opcode : Nat} {payload : List Byte} (h : φ.form.Holds s) :
    φ.form.Holds (controlSend s p opcode payload) := .of (fits_modAt_ports h)

theorem holds_flood {skip number link : Nat} {up : Bool} (h : φ.form.Holds s) :
    φ.form.Holds (flood s skip number link up) := holds_foldl (fun _ _ => holds_controlSend) h

theorem holds_linksChanged {old s : State} (h : φ.form.Holds s) :
    φ.form.Holds (linksChanged old s) := holds_setTimeRoot (holds_regainPeers (holds_losePeers h))

theorem holds_portOut {p st : Nat} (h : φ.form.Holds s) : φ.form.Holds (portOut s p st) :=
  holds_linksChanged (holds_ite (holds_flood (.of (fits_modAt_ports h))) (.of (fits_modAt_ports
    h)))

theorem holds_reply {g : MortarHeader} {opcode : Nat} {payload : List Byte} (h : x.Holds s) :
    x.Holds (reply s g opcode payload) := holds_mortarSend h

theorem holds_serveFan {g : MortarHeader} {payload : List Byte} (h : x.Holds s) :
    x.Holds (serveFan s g payload) :=
  holds_ite (holds_reply h) (holds_ite (holds_reply h) (holds_memberStart h))

theorem holds_remoteServe {i : Instr} (h : x.Holds s) (ht : remoteServe s i = some t) :
    x.Holds t := by
  unfold remoteServe at ht
  split at ht
  · split at ht <;> cases ht
    · exact holds_reply h
    · exact holds_reply h
  · split at ht <;> cases ht
    · exact holds_reply h
    · exact holds_reply (holds_deviceWrite h)
  · split at ht <;> cases ht
    exact holds_serveFan h
  · cases ht
    exact h

theorem holds_nextInbound (h : φ.form.Holds s) (ht : nextInbound s = some t) : φ.form.Holds t := by
  obtain ⟨i, -, hi⟩ := List.exists_of_findSome?_eq_some ht
  split at hi
  · obtain ⟨u, hu, rfl⟩ := Option.map_eq_some_iff.1 hi
    have h1 := holds_remoteServe h hu
    exact .of (fits_store h1)
  · cases hi

theorem holds_serveInboundN {n : Nat} (h : φ.form.Holds s) : φ.form.Holds (serveInboundN n s) := by
  induction n generalizing s with
  | zero => exact h
  | succ n ih =>
    unfold serveInboundN
    split
    · exact h
    next ht => exact ih (holds_nextInbound h ht)

theorem holds_serveInbound (h : φ.form.Holds s) : φ.form.Holds (serveInbound s) := holds_serveInboundN h

theorem holds_refuse {g : MortarHeader} (h : φ.form.Holds s) : φ.form.Holds (refuse s g) :=
  .of (holds_reply h)

theorem holds_takeRequest {i : Instr} {g : MortarHeader} (h : φ.form.Holds s) :
    φ.form.Holds (takeRequest s i g) :=
  holds_ite (holds_refuse h) (holds_ite h (holds_serveInbound (.of (fits_store h))))

theorem holds_mortarIn {g : MortarHeader} {act : State → State} (h : φ.form.Holds s)
    (hact : ∀ a0, φ.form.Holds a0 → φ.form.Holds (act a0)) : φ.form.Holds (mortarIn s g act) :=
  holds_ite h (holds_ite (holds_portOut h) (hact _ (.of (fits_modAt_ports h))))

theorem holds_withPieces {g : MortarHeader} {payload : List Byte} {act : State → List Byte → State}
    (h : φ.form.Holds s) (hact : ∀ a0 a1, φ.form.Holds a0 → φ.form.Holds (act a0 a1)) :
    φ.form.Holds (withPieces s g payload act) := holds_ite (hact _ _ (.of h)) (.of h)

theorem holds_wakeReq {r : MReq} (h : φ.form.Holds s) : φ.form.Holds (wakeReq s r) := by
  unfold wakeReq
  split
  · exact holds_wakeOwner (holds_forgetReq h)
  · exact holds_forgetReq h

theorem holds_takeRemote {r : MReq} {bytes : List Byte} (h : φ.form.Holds s) :
    φ.form.Holds (takeRemote s r bytes) := holds_ite h (holds_wakeReq (.of (fits_writeBytes h)))

theorem holds_takeStatus {r : MReq} {status : Nat} (h : φ.form.Holds s) :
    φ.form.Holds (takeStatus s r status) :=
  holds_ite h (holds_ite (holds_endReq (holds_forgetReq h)) (holds_ite (holds_wakeReq h) (holds_ite
    (holds_unbacked h) (holds_endReq (holds_forgetReq h)))))

theorem holds_resend {r : MReq} (h : φ.form.Holds s) : φ.form.Holds (resend s r) := .of (holds_mortarSend h)

theorem holds_takePartial {r : MReq} {fan : Nat} {bs : List Byte} (h : φ.form.Holds s) :
    φ.form.Holds (takePartial s r fan bs) := holds_fanCheck (holds_updFan (.of h))

/-! ### The functions of Machine/Power.lean -/

theorem holds_reachState {st : Nat} (h : φ.form.Holds s) : φ.form.Holds (reachState s st) := by
  have hdown : ∀ {t : State}, φ.form.Holds t → φ.form.Fits t.mem t.bricks (portsIn st t.mortar.ports)
      t.plumb.units t.index.staging t.mortar.inbound := fun h => fits_ports (List.length_map _) h
  unfold reachState
  split
  · exact holds_ite (holds_linksChanged (.of (hdown (holds_succeed h))))
      (.of (hdown (holds_succeed h)))
  · exact holds_ite (holds_linksChanged (.of (hdown h))) (.of (hdown h))

theorem holds_beginState {st : Nat} {automatic : Bool} (h : φ.form.Holds s) :
    φ.form.Holds (beginState s st automatic) := .of h

theorem holds_leaveState {ready : Bool} (h : φ.form.Holds s) : φ.form.Holds (leaveState s ready) :=
  .of (fits_ports ((List.length_map _).trans List.length_zipIdx) (holds_ite (holds_wakeFans
    (holds_publishAll h)) h))

theorem holds_wakeDomain (h : φ.form.Holds s) : φ.form.Holds (wakeDomain s) :=
  holds_drainOut (holds_ite (holds_mailWake (holds_foldl (fun _ _ => holds_resumeGather) (.of h)))
    (holds_foldl (fun _ _ => holds_resumeGather) (.of h)))

theorem holds_backToServing (h : φ.form.Holds s) : φ.form.Holds (backToServing s) :=
  holds_serveInbound (holds_serveDevs (holds_wakeDomain (holds_leaveState h)))

theorem holds_toServing (h : φ.form.Holds s) : φ.form.Holds (toServing s) := by
  unfold toServing
  split
  · exact holds_backToServing (holds_reachState h)
  · exact holds_ite h (holds_backToServing h)

theorem holds_domainUp {d : Nat} (h : φ.form.Holds s) : φ.form.Holds (domainUp s d) := by
  unfold domainUp
  refine holds_serveInbound (holds_wakeDomain (.of (fits_ports ?_ h)))
  dsimp only
  split
  · exact (List.length_map _).trans List.length_zipIdx
  · rfl

theorem holds_domainReady {d : Nat} (h : φ.form.Holds s) : φ.form.Holds (domainReady s d) :=
  holds_ite (holds_domainUp h) h

theorem holds_enterNow {st : Nat} {automatic : Bool} (h : φ.form.Holds s) :
    φ.form.Holds (enterNow s st automatic) := holds_reachState (holds_beginState h)

theorem holds_writeWake (h : φ.form.Holds s) : φ.form.Holds (writeWake s) :=
  holds_ite (holds_leaveState h) (.of h)

theorem holds_fatalError {source unit location status : Nat} (h : φ.form.Holds s) :
    φ.form.Holds (fatalError s source unit location status) := by
  have h1 : φ.form.Holds (dropCommands (hwError s 2 source unit location status 6)) :=
    holds_dropCommands (holds_hwError h)
  unfold fatalError
  generalize dropCommands (hwError s 2 source unit location status 6) = s1 at h1
  exact holds_linksChanged (.of (fits_ports (List.length_map _) h1))

theorem holds_poisonLine {stack offset : Nat} (h : φ.form.Holds s) :
    φ.form.Holds (poisonLine s stack offset) := by
  unfold poisonLine
  dsimp only
  split
  · exact holds_hwError h
  · exact holds_ite (holds_fatalError h) (.of (holds_hwError h))

theorem holds_scrubFinding {stack : Nat} {f : ScrubFinding} (h : φ.form.Holds s) :
    φ.form.Holds (scrubFinding stack s f) := holds_ite (holds_hwError h) (holds_poisonLine h)

/-! ### The functions of Machine/Mail.lean -/

theorem holds_mailAudit {event : Nat} {detail : List Nat} {obj : List Byte} (h : φ.form.Holds s) :
    φ.form.Holds (mailAudit s event detail obj) := by
  unfold mailAudit
  exact holds_audit h

theorem holds_mailFail {status : Nat} (h : φ.form.Holds s) : φ.form.Holds (mailFail s status) :=
  holds_mailEnd (holds_ite (holds_mailAudit h) h)

theorem holds_mailAudited {event : Nat} {detail : List Nat} {obj : List Byte} {act : State → State}
    (h : φ.form.Holds s) (hact : ∀ a0, φ.form.Holds a0 → φ.form.Holds (act a0)) :
    φ.form.Holds (mailAudited s event detail obj act) :=
  holds_ite (hact _ (holds_mailAudit h)) (holds_mailEnd (holds_auditFail h))

theorem holds_mailStart {smbus : Bool} {req : List Byte} (h : φ.form.Holds s) :
    φ.form.Holds (mailStart s smbus req) := .of (holds_ite (holds_toServing h) h)

theorem holds_mailRun {r : MailReq} {op : Nat} {any : Bool} {act : State → List Byte → State}
    (h : φ.form.Holds s) (hact : ∀ a0 a1, φ.form.Holds a0 → φ.form.Holds (act a0 a1)) :
    φ.form.Holds (mailRun s r op any act) := by
  unfold mailRun
  split
  · exact h
  · split
    · exact holds_ite (hact _ _ (holds_mailStart h)) h
    · split
      · exact h
      · split
        · exact holds_respond h
        · split
          · exact holds_mailEnd (holds_mailStart h)
          · exact hact _ _ (holds_mailStart h)

theorem holds_writeGo (h : φ.form.Holds s) : φ.form.Holds (writeGo s) := by
  unfold writeGo
  refine holds_ite (.of h) ?_
  dsimp only
  split
  · exact holds_mailEnd (holds_mailStart h)
  · exact .of h

theorem holds_mailHold {u : Nat} {r : Range} {y : Reach} {w : Wait} (h : φ.form.Holds s) :
    φ.form.Holds (mailHold s u r y w) := holds_askPart (.of h)

theorem holds_mailBlock {u : Nat} {r : Range} {y : Reach} (h : φ.form.Holds s) :
    φ.form.Holds (mailBlock s u r y) := by
  unfold mailBlock
  split
  · exact holds_ite (holds_openFault (.of h)) (holds_mailEnd h)
  · exact holds_mailEnd h
  · exact holds_mailHold h
  · exact holds_mailHold h
  · exact holds_mailHold h
  · exact .of h

theorem holds_stageRequest {req : List Byte} {size : Nat} {old : List Host.Cell}
    {put : State → List Host.Cell → State} (h : φ.form.Holds s)
    (hput : ∀ a0 a1, φ.form.Holds a0 → φ.form.Holds (put a0 a1)) :
    φ.form.Holds (stageRequest s req size old put) := by
  unfold stageRequest
  split
  · exact holds_mailEnd h
  · split
    · exact holds_mailBlock h
    · exact holds_mailEnd (hput _ _ h)

/-! ### The functions of Machine/Boot.lean -/

theorem holds_restoreTables {q : KvSeq} (h : φ.form.Holds s) : φ.form.Holds (restoreTables s q) :=
  holds_foldl (fun _ _ h => holds_writeSummary (holds_writeEntry h)) (.of (fits_zeroUnits h))

theorem holds_recover (h : φ.form.Holds s) : φ.form.Holds (recover s) := by
  unfold recover
  refine holds_retire (holds_foldl (fun _ _ => holds_restoreTables) ?_)
  exact .of (Form.Fits.mem (fun hm => memWf_freeUnits (memWf_homed hm)) h)

theorem holds_resetState {cause : Nat} {goesOn session : Bool} (h : φ.form.Holds s) :
    φ.form.Holds (resetState s cause goesOn session) := by
  have hr := holds_recover (holds_dropCommands h)
  unfold resetState
  generalize recover (dropCommands s) = r at hr
  refine .of (fits_map_bricks (fun _ _ => List.length_replicate) ?_)
  cases φ with
  | memory => exact hr
  | parts =>
    obtain ⟨hb, hp, -⟩ := hr
    exact ⟨hb, hp, List.length_replicate, List.length_replicate, List.length_replicate⟩

theorem holds_endRequest (h : φ.form.Holds s) : φ.form.Holds (endRequest s) := holds_ite (holds_mailEnd h) h

theorem holds_managementOnly {step status : Nat} (h : φ.form.Holds s) :
    φ.form.Holds (managementOnly s step status) := holds_endRequest (.of h)

theorem holds_bootFirmware {romOk : Bool} (h : φ.form.Holds s) (ht : bootFirmware s romOk = some t) :
    φ.form.Holds t := by
  unfold bootFirmware at ht
  dsimp only at ht
  split at ht
  · obtain ⟨_, -, rfl⟩ := Option.map_eq_some_iff.1 ht
    exact .of h
  · cases ht

theorem holds_bootImage (h : φ.form.Holds s) : φ.form.Holds (bootImage s).1 := by
  unfold bootImage
  dsimp only
  split
  · exact .of h
  · split
    · exact .of h
    · exact h

theorem holds_dieFails {y : Nat × Nat} (h : φ.form.Holds s) : φ.form.Holds (dieFails s y) :=
  holds_hwError (.of (fits_modAt_bricks (fun _ hb => hb) h))

theorem holds_drawModuleKeys (h : φ.form.Holds s) : φ.form.Holds (drawModuleKeys s) :=
  holds_ite h (holds_ite (holds_hwError h) (.of h))

theorem holds_bootLinks {mode : Nat} {bytes : List Nat} (h : φ.form.Holds s) :
    φ.form.Holds (bootLinks s mode bytes) := .of h

theorem holds_bootMedia {f : BootFindings} (h : φ.form.Holds s) : φ.form.Holds (bootMedia s f) := by
  unfold bootMedia
  split
  · exact holds_managementOnly (holds_foldl (fun _ _ => holds_hwError) h)
  · split
    · exact holds_managementOnly (holds_hwError h)
    · exact holds_bootLinks (holds_drawModuleKeys (holds_publishAll (holds_foldl (fun _ _ =>
        holds_dieFails) h)))

theorem holds_boot {f : BootFindings} (h : φ.form.Holds s) : φ.form.Holds (boot s f) := by
  unfold boot
  refine holds_ite (.of h) ?_
  dsimp only
  split
  · exact .of h
  next s1 hs =>
    have h0 : φ.form.Holds { s with power := { s.power with mainOn := true } } := .of h
    have h1 := holds_bootFirmware h0 hs
    have h2 := holds_bootImage h1
    refine holds_ite (holds_managementOnly h1) ?_
    split
    next e =>
      rw [e] at h2
      exact holds_bootMedia h2
    next e =>
      rw [e] at h2
      exact holds_managementOnly h2

theorem holds_saveStaging (h : φ.form.Holds s) : φ.form.Holds (saveStaging s) := holds_ite h (.of h)

theorem holds_closeByReset (h : φ.form.Holds s) : φ.form.Holds (closeByReset s) := by
  unfold closeByReset
  exact holds_ite (holds_audit h) h

theorem holds_moduleReset {cause : Nat} {goesOn : Bool} (h : φ.form.Holds s) :
    φ.form.Holds (moduleReset s cause goesOn) :=
  holds_boot (holds_resetState (holds_saveStaging (holds_closeByReset h)))

theorem holds_postBoot (h : φ.form.Holds s) : φ.form.Holds (postBoot s) := by
  unfold postBoot
  exact holds_endRequest (holds_ite (holds_audit (.of h)) (holds_auditFail (.of h)))

theorem holds_uzoneActive (h : φ.form.Holds s) : φ.form.Holds (uzoneActive s) :=
  holds_postFaults (holds_flushAllHeld (holds_ite (holds_postBoot (.of h)) (.of h)))

theorem holds_powerDown (h : φ.form.Holds s) : φ.form.Holds (powerDown s) := by
  have hr := holds_resetState (cause := 0) (goesOn := false) (session := true)
    (holds_saveStaging (holds_closeByReset h))
  unfold powerDown
  generalize resetState (saveStaging (closeByReset s)) 0 false true = r at hr
  exact .of hr

theorem holds_aonDown (h : φ.form.Holds s) : φ.form.Holds (aonDown s) := .of h

/-! ### The functions of Machine/Mortar.lean -/

theorem holds_updPort {p : Nat} {f : Port → Port} (h : φ.form.Holds s) : φ.form.Holds (updPort s p f) :=
  .of (fits_modAt_ports h)

theorem holds_writePortControl {v : Nat} (h : φ.form.Holds s) : φ.form.Holds (writePortControl s v) :=
  holds_linksChanged (.of (fits_ports ((List.length_map _).trans List.length_zipIdx) h))

theorem holds_retrainPort {p : Nat} (h : φ.form.Holds s) : φ.form.Holds (retrainPort s p) := holds_updPort h

theorem holds_sendKeyRoll {p k : Nat} (h : φ.form.Holds s) : φ.form.Holds (sendKeyRoll s p k) :=
  .of (holds_updPort (holds_controlSend h))

theorem holds_firstKey {p : Nat} (h : φ.form.Holds s) : φ.form.Holds (firstKey s p) := by
  unfold firstKey
  exact holds_ite (holds_portOut (holds_hwError h)) (holds_ite (holds_audit (holds_sendKeyRoll h))
    (holds_portOut (holds_auditFail h)))

theorem holds_rollKey {p : Nat} (h : φ.form.Holds s) : φ.form.Holds (rollKey s p) := by
  unfold rollKey
  split
  · exact holds_ite (holds_sendKeyRoll h) h
  · exact h

theorem holds_checkAlive {p : Nat} {v : Byte} {act : State → State} (h : φ.form.Holds s)
    (hact : ∀ a0, φ.form.Holds a0 → φ.form.Holds (act a0)) : φ.form.Holds (checkAlive s p v act) :=
  holds_ite (hact _ (holds_updPort h)) (holds_ite (holds_retrainPort (.of h)) (holds_updPort (.of
    h)))

theorem holds_controlIn {port : BitVec 3} {alive : Byte} {act : State → State} (h : φ.form.Holds s)
    (hact : ∀ a0, φ.form.Holds a0 → φ.form.Holds (act a0)) : φ.form.Holds (controlIn s port alive act) :=
  holds_ite h (holds_ite (holds_portOut h) (holds_checkAlive h hact))

theorem holds_takeHello {p : Nat} {b : List Byte} (h : φ.form.Holds s) : φ.form.Holds (takeHello s p b) :=
  holds_updPort h

theorem holds_loadTime {p : Nat} (h : φ.form.Holds s) : φ.form.Holds (loadTime s p) := by
  unfold loadTime
  exact holds_ite (holds_setTimeRoot h) (holds_ite (holds_audit (holds_toServing (.of h)))
    (holds_auditFail (holds_setTimeRoot h)))

theorem holds_portActive {p : Nat} (h : φ.form.Holds s) : φ.form.Holds (portActive s p) :=
  holds_ite (holds_flood (holds_loadTime (holds_linksChanged (holds_updPort (holds_ite
    (holds_firstKey (holds_ite (holds_hwError (holds_updPort h)) (holds_updPort h))) (holds_ite
    (holds_hwError (holds_updPort h)) (holds_updPort h))))))) (holds_ite (holds_firstKey (holds_ite
    (holds_hwError (holds_updPort h)) (holds_updPort h))) (holds_ite (holds_hwError (holds_updPort
    h)) (holds_updPort h)))

theorem holds_portCredits {p : Nat} (h : φ.form.Holds s) : φ.form.Holds (portCredits s p) :=
  holds_ite (holds_portActive h) (holds_updPort h)

theorem holds_setLink {number link : Nat} {up : Bool} (h : φ.form.Holds s) :
    φ.form.Holds (setLink s number link up) := .of h

theorem holds_takeSync {t0 t1 t2 t3 : Nat} (h : φ.form.Holds s) : φ.form.Holds (takeSync s t0 t1 t2 t3) :=
  .of h

/-! ### The functions of Machine/Lintel.lean -/

theorem holds_signOut {purpose : Nat} {obj : List Byte} (h : φ.form.Holds s) :
    φ.form.Holds (signOut s purpose obj) := .of h

theorem holds_withEntropy {act : State → State} (h : φ.form.Holds s)
    (hact : ∀ a0, φ.form.Holds a0 → φ.form.Holds (act a0)) : φ.form.Holds (withEntropy s act) :=
  holds_ite (holds_mailEnd (holds_hwError h)) (hact _ h)

theorem holds_openDebug {scope seconds : Nat} (h : φ.form.Holds s) :
    φ.form.Holds (openDebug s scope seconds) :=
  holds_ite (holds_foldl (fun _ _ h => holds_ite (holds_portOut h) h) (.of h)) (.of h)

theorem holds_shutDebug (h : φ.form.Holds s) : φ.form.Holds (shutDebug s) := .of h

theorem holds_eraseNand (h : φ.form.Holds s) : φ.form.Holds (eraseNand s) := by
  refine .of (fits_map_bricks (fun _ _ => List.length_replicate) ?_)
  cases φ with
  | memory => exact memWf_freeUnits h
  | parts =>
    obtain ⟨hb, hp, hm, hu, -⟩ := h
    exact ⟨hb, hp, hm, hu, List.length_replicate⟩

/-! ### The functions of Machine/Time.lean -/

theorem holds_withTime {f : FabricTime} (h : φ.form.Holds s) : φ.form.Holds { s with time := f } := .of h

theorem holds_setTime {origin detail v : Nat} {digest : List Byte} (h : φ.form.Holds s) :
    φ.form.Holds (setTime s origin detail digest v) := by
  unfold setTime
  exact holds_ite h (holds_ite (holds_setTimeRoot (holds_audit (holds_withTime
    (holds_audit (holds_toServing h))))) (holds_auditFail h))

/-! ### The functions of Machine/Uzone.lean -/

theorem holds_uzDegraded {lanes : Nat} (h : φ.form.Holds s) : φ.form.Holds (uzDegraded s lanes) :=
  holds_linkEvent (holds_hwError h)

theorem holds_uzFailed {lanes : Nat} (h : φ.form.Holds s) : φ.form.Holds (uzFailed s lanes) :=
  holds_foldl (fun _ _ => holds_endOwner) (holds_hwError (.of h))

theorem holds_uzCredits (h : φ.form.Holds s) : φ.form.Holds (uzCredits s) :=
  holds_ite (holds_ite (holds_linkEvent (holds_hwError (holds_drainOut (holds_uzoneActive (.of
    h))))) (holds_drainOut (holds_uzoneActive (.of h)))) h

theorem holds_uzSettle (h : φ.form.Holds s) : φ.form.Holds (uzSettle s) := .of h

theorem holds_countEvent {old new : Nat} (h : φ.form.Holds s) : φ.form.Holds (countEvent old new s) :=
  holds_ite (holds_linkEvent h) h

theorem holds_uzCodeword {errors : List Nat} (h : φ.form.Holds s) : φ.form.Holds (uzCodeword s errors).1 :=
  holds_countEvent (.of h)

theorem holds_uzDrop {check : Bool} (h : φ.form.Holds s) : φ.form.Holds (uzDrop s check) :=
  holds_countEvent (.of h)

theorem holds_uzAccept {f : List Byte} (h : φ.form.Holds s) : φ.form.Holds (uzAccept s f) :=
  holds_ite (holds_retrainUzone (.of h)) (holds_uzSettle (holds_uzCredits (.of h)))

theorem holds_uzFlit {flit : List Byte} {errors : List Nat} (h : φ.form.Holds s) :
    φ.form.Holds (uzFlit s flit errors) :=
  holds_ite (holds_ite (holds_uzDrop (holds_uzCodeword h)) (holds_ite (holds_uzAccept
    (holds_uzCodeword h)) (holds_uzDrop (holds_uzCodeword h)))) h

theorem holds_snoop {addr tag : Nat} {share : Bool} (h : φ.form.Holds s) :
    φ.form.Holds (snoop s addr tag share) := holds_drainOut (.of h)

theorem holds_dropReq {tag : Nat} (h : φ.form.Holds s) : φ.form.Holds (dropReq s tag) := .of h

theorem holds_settleReq {r : UzReq} {status : Nat} (h : φ.form.Holds s) :
    φ.form.Holds (settleReq s r status) := by
  unfold settleReq
  split
  · exact h
  · exact holds_ite (holds_wakeOwner h) (holds_endOwner h)

theorem holds_grantLine {r : UzReq} (h : φ.form.Holds s) : φ.form.Holds (grantLine s r) := .of h

theorem holds_takeData {r : UzReq} {bytes : List Byte} (h : φ.form.Holds s) :
    φ.form.Holds (takeData s r bytes) :=
  holds_ite (.of (fits_writeBytes h)) (holds_ite (holds_grantLine (.of (fits_writeBytes h))) h)

theorem holds_respondTo {tag status : Nat} {act : State → UzReq → State} (h : φ.form.Holds s)
    (hact : ∀ a0 a1, φ.form.Holds a0 → φ.form.Holds (act a0 a1)) :
    φ.form.Holds (respondTo s tag status act) := by
  unfold respondTo
  split
  · split
    · exact h
    · exact holds_settleReq (holds_drainOut (holds_ite (hact _ _ (holds_dropReq (.of h)))
        (holds_dropReq (.of h))))
  · exact h

theorem holds_grantIn {tag : Nat} (h : φ.form.Holds s) : φ.form.Holds (grantIn s tag) :=
  holds_respondTo h fun _ _ h => holds_ite (holds_grantLine h) h

theorem holds_dataIn {tag status : Nat} {bytes : List Byte} (h : φ.form.Holds s) :
    φ.form.Holds (dataIn s tag status bytes) := holds_respondTo h fun _ _ => holds_takeData

theorem holds_cmpIn {tag status : Nat} (h : φ.form.Holds s) : φ.form.Holds (cmpIn s tag status) :=
  holds_respondTo h fun _ _ h => h

/-! ### The functions of Machine/Registers.lean -/

theorem holds_readClears {a : Nat} {eight : Bool} (h : φ.form.Holds s) :
    φ.form.Holds (readClears s a eight) :=
  holds_ite (.of h) (holds_ite (.of h) (holds_ite (.of h) (holds_ite (.of h) (holds_ite (.of h)
    (holds_ite (.of h) h)))))

theorem holds_readAccess {a : Nat} {eight : Bool} (h : φ.form.Holds s) :
    φ.form.Holds (readAccess s a eight) := .of (holds_ite (holds_readClears h) h)

theorem holds_auditedWrite {w : Source} {a old new : Nat} {act : State → State} (h : φ.form.Holds s)
    (hact : ∀ a0, φ.form.Holds a0 → φ.form.Holds (act a0)) :
    φ.form.Holds (auditedWrite s w a old new act) := by
  unfold auditedWrite
  exact holds_ite (hact _ (holds_audit (holds_toServing h))) (holds_auditFail h)

theorem holds_writeSched {w : Source} {a v : Nat} (h : φ.form.Holds s) :
    φ.form.Holds (writeSched s w a v) :=
  holds_ite (holds_ite h (.of h)) (holds_ite (holds_ite h (.of h)) (holds_ite
    (holds_writeAdminControl h) (holds_ite (holds_auditedWrite h (fun _ h => .of h)) (holds_ite
    (holds_ite (holds_updSq h) (holds_updCq h)) h))))

theorem holds_writeTier {w : Source} {a o v : Nat} (h : φ.form.Holds s) :
    φ.form.Holds (writeTier s w a o v) :=
  holds_ite (holds_ite h (holds_auditedWrite h (fun _ h => .of h))) (holds_ite
    (holds_writeTierControl h) (holds_ite (holds_auditedWrite h (fun _ h => .of h)) h))

theorem holds_writePlumb {o v : Nat} (h : φ.form.Holds s) : φ.form.Holds (writePlumb s o v) :=
  holds_ite h (holds_ite (holds_updUnit h) (holds_ite (holds_updUnit h) (holds_ite (holds_updUnit h)
    h)))

theorem holds_writeMortar {w : Source} {a o v : Nat} (h : φ.form.Holds s) :
    φ.form.Holds (writeMortar s w a o v) :=
  holds_ite (holds_ite h (holds_auditedWrite h (fun _ h => .of h))) (holds_ite (holds_auditedWrite h
    (fun _ => holds_writePortControl)) (holds_ite (holds_auditedWrite h (fun _ h => .of h))
    (holds_ite (holds_ite h (holds_auditedWrite h (fun _ h => .of h))) (holds_ite
    (holds_auditedWrite h (fun _ h => .of h)) h))))

theorem holds_writeMailControl {v : Nat} (h : φ.form.Holds s) : φ.form.Holds (writeMailControl s v) :=
  holds_ite (holds_writeGo (.of h)) (.of h)

theorem holds_writeMailBuffer {off n v : Nat} (h : φ.form.Holds s) :
    φ.form.Holds (writeMailBuffer s off n v) := holds_ite h (.of h)

theorem holds_writeQuoin {o v : Nat} (h : φ.form.Holds s) : φ.form.Holds (writeQuoin s o v) :=
  holds_ite (holds_writeMailControl h) (holds_ite (holds_ite (holds_writeWake h) h) (holds_ite (.of
    h) h))

theorem holds_writeDoorbell {o v : Nat} (h : φ.form.Holds s) : φ.form.Holds (writeDoorbell s o v) :=
  holds_ite h (holds_ite (holds_ringTail h) (holds_ringHead h))

theorem holds_writeRegOf {w : Source} {b : RegBlock} {a o v : Nat} (h : φ.form.Holds s) :
    φ.form.Holds (writeRegOf s w b a o v) := by
  unfold writeRegOf
  split
  · exact holds_writeSched h
  · exact holds_writeDoorbell h
  · exact h
  · exact holds_writeTier h
  · exact holds_writePlumb h
  · exact h
  · exact holds_writeMortar h
  · exact h
  · exact holds_ite (holds_setTime h) h
  · exact holds_writeQuoin h
  · exact h
  · exact h
  · exact h
  · exact h
  · exact h
  · exact h

theorem holds_writeReg {w : Source} {a : Nat} {eight : Bool} {v : Nat} (h : φ.form.Holds s) :
    φ.form.Holds (writeReg s w a eight v) := by
  unfold writeReg
  split
  · exact h
  · split
    · exact h
    · split
      · exact holds_writeMailBuffer h
      · split
        · exact h
        · exact holds_writeRegOf h

theorem holds_mmioRead {a : Nat} {eight : Bool} (h : φ.form.Holds s) : φ.form.Holds (mmioRead s a eight) :=
  holds_ite h (holds_ite (holds_readAccess h) (.of h))

theorem holds_mmioWrite {a : Nat} {eight : Bool} {v : Nat} (h : φ.form.Holds s) :
    φ.form.Holds (mmioWrite s a eight v) := holds_ite (holds_writeReg h) h

theorem holds_actIdentify {c : Cmd} (h : φ.form.Holds s) : φ.form.Holds (actIdentify s c) :=
  holds_succeed (holds_slotReady h)

/-! ### The functions of Machine/Quoin.lean -/

theorem holds_stopFetching {drain : Bool} {go : State → State} (h : φ.form.Holds s)
    (hgo : ∀ a0, φ.form.Holds a0 → φ.form.Holds (go a0)) : φ.form.Holds (stopFetching s drain go) :=
  holds_ite (.of h) (hgo _ (.of h))

theorem holds_applySwitch (h : φ.form.Holds s) : φ.form.Holds (applySwitch s) := by
  unfold applySwitch
  exact holds_mailAudited (.of h) fun _ h => holds_moduleReset (.of h)

theorem holds_requestReset (h : φ.form.Holds s) : φ.form.Holds (requestReset s) := holds_moduleReset h

theorem holds_testEnd {v1 v2 storedMj : Nat} (h : φ.form.Holds s) :
    φ.form.Holds (testEnd s v1 v2 storedMj) := .of h

theorem holds_mctpAnswer {bs : List Byte} (h : φ.form.Holds s) : φ.form.Holds (mctpAnswer s bs) :=
  holds_ite (.of h) h

/-! ### The functions of Machine/Pins.lean -/

theorem holds_tapSet {ir : Nat} {tdr : BitVec 32} (h : φ.form.Holds s) : φ.form.Holds (tapSet s ir tdr) :=
  holds_ite (.of h) h

theorem holds_scanIns {ir : Nat} (h : φ.form.Holds s) : φ.form.Holds (scanIns s ir) :=
  holds_ite h (holds_ite (.of h) (.of h))

/-! ### The functions of Machine/Serve.lean -/

theorem holds_mmioOne {y : Mmio} (h : φ.form.Holds s) : φ.form.Holds (mmioOne s y) := by
  unfold mmioOne
  split
  · exact holds_answer (holds_mmioWrite h)
  · exact holds_answer (.of (holds_mmioRead h))

theorem holds_serveOne {i : Instr} (h : φ.form.Holds s) : φ.form.Holds (serveOne s i).1 := by
  unfold serveOne
  split
  · exact holds_mmioOne h
  · exact holds_devOne h

theorem holds_serveHeld (h : φ.form.Holds s) : φ.form.Holds (serveHeld s) :=
  holds_serveWith (fun _ _ => holds_serveOne) h

theorem holds_companionRequest {i : Instr} (h : φ.form.Holds s) : φ.form.Holds (companionRequest s i) :=
  holds_ite h (holds_ite (holds_retrainUzone h) (holds_serveHeld (.of h)))

/-! ### Every row of the table -/

theorem holds_withLintel {l : Lintel} (h : φ.form.Holds s) : φ.form.Holds { s with lintel := l } := .of h

theorem exec_holds (h : φ.form.Holds s) (i : Instr) : ∃ t, exec i s = .next t ∧ φ.form.Holds t := by
  cases i with
  | search q => exact ⟨_, rfl, holds_runCommand h fun _ _ => holds_actSearch⟩
  | searchBatch q => exact ⟨_, rfl, holds_runCommand h fun _ _ => holds_actSearchBatch⟩
  | rerank q => exact ⟨_, rfl, holds_runCommand h fun _ _ => holds_actRerank⟩
  | scan q => exact ⟨_, rfl, holds_runCommand h fun _ _ => holds_actScan⟩
  | project q => exact ⟨_, rfl, holds_runCommand h fun _ _ => holds_actProject⟩
  | insert q => exact ⟨_, rfl, holds_runCommand h fun _ _ => holds_actInsert⟩
  | delete q => exact ⟨_, rfl, holds_runCommand h fun _ _ => holds_actDelete⟩
  | update q => exact ⟨_, rfl, holds_runCommand h fun _ _ => holds_actUpdate⟩
  | epochSetSchedule q => exact ⟨_, rfl, holds_runCommand h fun _ _ => holds_actSchedule⟩
  | epochCancelSchedule q => exact ⟨_, rfl, holds_runCommand h fun _ _ => holds_actCancel⟩
  | epochPublishNow q => exact ⟨_, rfl, holds_runCommand h fun _ _ => holds_actPublishNow⟩
  | epochSetFloor q => exact ⟨_, rfl, holds_runCommand h fun _ _ => holds_actSetFloor⟩
  | compact q => exact ⟨_, rfl, holds_runCommand h fun _ _ => holds_actCompact⟩
  | repair q => exact ⟨_, rfl, holds_runCommand h fun _ _ => holds_actRepair⟩
  | collectionCreate q => exact ⟨_, rfl, holds_runCommand h fun _ _ => holds_actCreate⟩
  | collectionDrop q => exact ⟨_, rfl, holds_runCommand h fun _ _ => holds_actDrop⟩
  | kvCreate q => exact ⟨_, rfl, holds_runCommand h fun _ _ => holds_actKvCreate⟩
  | kvAppend q => exact ⟨_, rfl, holds_runCommand h fun _ _ => holds_actKvAppend⟩
  | kvAttend q => exact ⟨_, rfl, holds_runCommand h fun _ _ => holds_actKvAttend⟩
  | kvEvict q => exact ⟨_, rfl, holds_runCommand h fun _ _ => holds_actKvEvict⟩
  | kvEvictAll q => exact ⟨_, rfl, holds_runCommand h fun _ _ => holds_actKvEvictAll⟩
  | kvSwapOut q => exact ⟨_, rfl, holds_runCommand h fun _ _ => holds_actKvSwapOut⟩
  | kvSwapIn q => exact ⟨_, rfl, holds_runCommand h fun _ _ => holds_actKvSwapIn⟩
  | kvDestroy q => exact ⟨_, rfl, holds_runCommand h fun _ _ => holds_actKvDestroy⟩
  | matmul q => exact ⟨_, rfl, holds_runCommand h fun _ _ => holds_actMatmul⟩
  | rescaleLoad q => exact ⟨_, rfl, holds_runCommand h fun _ _ => holds_actRescale⟩
  | hodStream q =>
    exact ⟨_, rfl, holds_runCommand h fun _ _ h => holds_actHod (fun _ _ => holds_startStreamCmd) h⟩
  | hodChain q =>
    exact ⟨_, rfl, holds_runCommand h fun _ _ h => holds_actHod (fun _ _ => holds_startChainCmd) h⟩
  | plumbScan q =>
    exact ⟨_, rfl, holds_runCommand h fun _ _ h => holds_actHod (fun _ _ => holds_startScanCmd) h⟩
  | migrateMove q => exact ⟨_, rfl, holds_runCommand h fun _ _ => holds_actMove⟩
  | migratePlace q =>
    exact ⟨_, rfl, holds_runCommand h fun _ _ h => holds_migrateEach h fun _ _ => holds_placeUnit⟩
  | migrateVacate q =>
    exact ⟨_, rfl, holds_runCommand h fun _ _ h => holds_migrateEach h fun _ _ => holds_vacateUnit⟩
  | migrateFaultOn q =>
    exact ⟨_, rfl, holds_runCommand h fun _ _ h => holds_migrateEach h fun _ _ => holds_setHome⟩
  | migrateFaultOff q =>
    exact ⟨_, rfl, holds_runCommand h fun _ _ h => holds_migrateEach h fun _ _ => holds_setHome⟩
  | queueCreate q => exact ⟨_, rfl, holds_runCommand h fun _ _ => holds_actQueueCreate⟩
  | queueDelete q => exact ⟨_, rfl, holds_runCommand h fun _ _ => holds_actQueueDelete⟩
  | queueRestartRetry q => exact ⟨_, rfl, holds_runCommand h fun _ _ => holds_actRestart⟩
  | queueRestartSkip q => exact ⟨_, rfl, holds_runCommand h fun _ _ => holds_actRestart⟩
  | logRead q => exact ⟨_, rfl, holds_runCommand h fun _ _ => holds_actLogRead⟩
  | powerState q => exact ⟨_, rfl, holds_runCommand h fun _ _ => holds_actPowerState⟩
  | identify q => exact ⟨_, rfl, holds_runCommand h fun _ _ => holds_actIdentify⟩
  | commandFetch =>
    exact ⟨_, rfl, holds_foldl (fun _ _ => holds_refuseFront) (holds_fetchOne (holds_raiseCopies
      h))⟩
  | coalesceTimeout cq =>
    refine ⟨_, rfl, ?_⟩
    split
    · exact h
    · split
      · dsimp only
        split
        · exact holds_interrupt (holds_updCq h)
        · exact holds_updCq h
      · exact h
  | sqTailDoorbell q w => exact ⟨_, rfl, holds_companionRequest h⟩
  | cqHeadDoorbell q w => exact ⟨_, rfl, holds_companionRequest h⟩
  | adminQueueEnable w => exact ⟨_, rfl, holds_companionRequest h⟩
  | adminQueueRetry w => exact ⟨_, rfl, holds_companionRequest h⟩
  | adminQueueSkip w => exact ⟨_, rfl, holds_companionRequest h⟩
  | rangeLockGrant cmd => exact ⟨_, rfl, holds_grantLock h⟩
  | dispatchWaitEnd cmd => exact ⟨_, rfl, holds_wakeFrom h⟩
  | domainReady domain => exact ⟨_, rfl, holds_serveHeld (holds_domainReady h)⟩
  | walkAdmission brick =>
    refine ⟨_, rfl, ?_⟩
    split
    · exact h
    · exact holds_ite (holds_holdWork h) (holds_ite h (holds_nextRound (holds_updWalk (.of
        (fits_modAt_bricks (fun _ hb => hb) h)))))
  | admissionQueueRoom brick =>
    refine ⟨_, rfl, ?_⟩
    split
    · split
      · exact holds_enqueueWalk h
      · exact h
    · exact h
  | landingBufferGrant brick =>
    refine ⟨_, rfl, ?_⟩
    split
    · exact holds_ite (holds_sendGranted (.of (fits_modAt_bricks (fun _ hb => hb) h)))
        (holds_holdWork h)
    · exact h
  | remoteBlockReadRequest brick =>
    refine ⟨_, rfl, ?_⟩
    split
    · exact h
    · exact holds_ite (holds_sendRead (.of (fits_modAt_bricks (fun _ hb => hb) h))) (holds_holdWork
        h)
  | flashReadComplete brick plane retries mismatch =>
    refine ⟨_, rfl, holds_ite h (holds_ite (holds_holdWork h) ?_)⟩
    split
    · exact h
    · refine holds_arrayDone (holds_noteBlock (holds_readError (.of ?_)))
      exact fits_modAt_bricks (fun _ hb => (length_modAt _ _ _).trans hb) h
  | blockLanded walk entry =>
    refine ⟨_, rfl, ?_⟩
    split
    · exact holds_takeLanded h
    · split
      · exact h
      · exact holds_ite h (holds_ite (holds_holdWork h) (holds_ite (holds_failWalk (.of
          (fits_modAt_bricks (fun _ hb => hb) (holds_takeLanded h)))) (holds_walkOn (holds_updWalk
          (holds_takeLanded h)))))
  | walkDeadline walk =>
    refine ⟨_, rfl, ?_⟩
    split
    · exact h
    · exact holds_ite (holds_stopWalk h) h
  | rerankTileClose tile =>
    refine ⟨_, rfl, ?_⟩
    split
    · exact h
    · exact holds_ite (holds_closeTile h) h
  | slabPairAdmit =>
    refine ⟨_, rfl, ?_⟩
    split
    · exact h
    · split
      · exact h
      · split
        · exact holds_holdWork h
        · split
          · exact holds_parkOps h
          · exact holds_failOp (.of h)
          · exact holds_admitOps h
  | slabQueueRoom => exact ⟨_, rfl, holds_slabRoom h⟩
  | slabPrologueEnd pair =>
    refine ⟨_, rfl, ?_⟩
    split
    · exact holds_ite (holds_holdWork h) (holds_ite (holds_endPrologue h) h)
    · exact h
  | slabComputeEnd =>
    refine ⟨_, rfl, ?_⟩
    split
    · exact holds_holdWork h
    · split
      · exact holds_endCompute h
      · exact holds_endCompute h
      · exact h
  | slabEpilogueEnd =>
    refine ⟨_, rfl, ?_⟩
    split
    · exact h
    · dsimp only
      split
      · exact holds_holdWork h
      · split
        · exact holds_parkOps (.of h)
        · exact holds_failOp (.of h)
        · exact .of h
        · exact holds_holdWork h
        · exact holds_finishGroup (.of h)
  | kvAttendMerge cmd =>
    refine ⟨_, rfl, ?_⟩
    split
    · exact holds_ite (holds_attendDone (holds_mergeItem h)) (holds_holdWork h)
    · exact h
  | sealDurable cmd =>
    refine ⟨_, rfl, ?_⟩
    split
    · exact h
    · split
      · exact holds_post (holds_freePrograms h)
      · exact h
  | epochBoundary => exact ⟨_, rfl, holds_closeNext h⟩
  | epochPublicationComplete => exact ⟨_, rfl, holds_ite (holds_wakeFans (holds_publishNext h)) h⟩
  | patchFold brick => exact ⟨_, rfl, holds_foldDue (holds_retire h)⟩
  | changeEntryWaitEnd cmd => exact ⟨_, rfl, holds_wakeFrom (holds_retire h)⟩
  | patchLogWaitEnd cmd => exact ⟨_, rfl, holds_wakeFrom h⟩
  | insertStagingWaitEnd cmd => exact ⟨_, rfl, holds_wakeFrom h⟩
  | compactSwitchWaitEnd cmd => exact ⟨_, rfl, holds_wakeFrom h⟩
  | tierFaultResolved unit =>
    refine ⟨_, rfl, ?_⟩
    split
    · exact h
    · exact holds_ite (holds_postFaults (holds_resolveFault h)) h
  | tierFaultTimeout unit =>
    refine ⟨_, rfl, ?_⟩
    split
    · exact h
    · exact holds_ite (holds_postFaults (holds_expireFault h)) h
  | tierFaultQueueHead w => exact ⟨_, rfl, holds_companionRequest h⟩
  | tierFaultQueueEnable w => exact ⟨_, rfl, holds_companionRequest h⟩
  | migrateUnitDone cmd result => exact ⟨_, rfl, holds_serveHeld (holds_unitDone h)⟩
  | hodTileIssue engine =>
    refine ⟨_, rfl, ?_⟩
    split
    · exact holds_ite (holds_holdWork h) h
    · split
      · exact h
      · split
        · exact h
        · split
          · exact holds_issueOwn h
          · exact holds_tryIssue h
          · exact h
  | hodTileDelivered stream =>
    refine ⟨_, rfl, ?_⟩
    split
    · exact h
    · split
      · exact holds_holdWork h
      · split
        · exact holds_deliverGather h
        · exact holds_tryDeliver h
        · exact h
  | hodLinkPoolWaitEnd cmd =>
    refine ⟨_, rfl, ?_⟩
    split
    · exact h
    · exact holds_ite (holds_startAgain h) h
  | plumbUnitWaitEnd cmd =>
    refine ⟨_, rfl, ?_⟩
    split
    · exact h
    · split
      · exact holds_startAgain h
      · exact h
  | hodWatchdogExpiry stream =>
    refine ⟨_, rfl, ?_⟩
    split
    · exact h
    · exact holds_ite (holds_examine h) h
  | fabricTimeTick => exact ⟨_, rfl, .of h⟩
  | fabricTimeSet w => exact ⟨_, rfl, holds_companionRequest h⟩
  | uzoneTrainingTimeout lanes =>
    exact ⟨_, rfl, holds_ite (holds_ite (holds_uzDegraded (.of h)) (.of h)) (holds_ite (holds_ite
      (holds_uzFailed h) (.of h)) h)⟩
  | uzoneParameterBlock block =>
    exact ⟨_, rfl, holds_ite (holds_ite (holds_moduleReset h) (.of h)) h⟩
  | uzoneFlitReceived flit low high => exact ⟨_, rfl, holds_serveHeld (holds_uzFlit h)⟩
  | uzoneNakReceived seq =>
    exact ⟨_, rfl, holds_ite (holds_ite (holds_retrainUzone (holds_ite (holds_linkEvent (.of h))
      (.of h))) (holds_ite (holds_linkEvent (.of h)) (.of h))) h⟩
  | uzoneFecLockLost lane => exact ⟨_, rfl, holds_ite (holds_retrainUzone h) h⟩
  | uzoneAckTimeout => exact ⟨_, rfl, holds_ite (holds_retrainUzone h) h⟩
  | uzoneDownRetry => exact ⟨_, rfl, holds_ite (.of h) h⟩
  | uzoneLowPowerExit => exact ⟨_, rfl, holds_ite (.of h) h⟩
  | devRd addr lines tag => exact ⟨_, rfl, holds_companionRequest h⟩
  | devWr addr data tag => exact ⟨_, rfl, holds_companionRequest h⟩
  | devWrPartial addr mask data tag => exact ⟨_, rfl, holds_companionRequest h⟩
  | snpShare addr tag => exact ⟨_, rfl, holds_ite (holds_snoop h) h⟩
  | snpInv addr tag => exact ⟨_, rfl, holds_ite (holds_snoop h) h⟩
  | grantE tag => exact ⟨_, rfl, holds_serveHeld (holds_grantIn h)⟩
  | data tag grant status bytes => exact ⟨_, rfl, holds_serveHeld (holds_dataIn h)⟩
  | cmp tag status => exact ⟨_, rfl, holds_serveHeld (holds_cmpIn h)⟩
  | mortarPortEnable w => exact ⟨_, rfl, holds_companionRequest h⟩
  | mortarTrainingTimeout port lanes =>
    exact ⟨_, rfl, holds_ite (holds_ite (holds_hwError (holds_updPort h)) (holds_updPort h))
      (holds_ite (holds_ite (holds_hwError (holds_portOut h)) (holds_updPort h)) h)⟩
  | mortarDownRetry port => exact ⟨_, rfl, holds_ite (holds_updPort h) h⟩
  | hello port alive block =>
    exact ⟨_, rfl, holds_ite (holds_checkAlive h (fun _ h => holds_ite (holds_takeHello h)
      (holds_linksChanged (holds_takeHello h)))) h⟩
  | timeSyncTimer =>
    exact ⟨_, rfl, holds_ite (holds_controlSend (holds_foldl (fun _ _ => holds_rollKey) h))
      (holds_foldl (fun _ _ => holds_rollKey) h)⟩
  | timeSync port alive t0 t1 t2 t3 =>
    exact ⟨_, rfl, holds_controlIn h fun _ h => holds_ite h (holds_ite (holds_takeSync h)
      (holds_controlSend h))⟩
  | linkState port alive number link up =>
    exact ⟨_, rfl, holds_controlIn h fun _ h => holds_ite h (holds_linksChanged (holds_flood
      (holds_setLink h)))⟩
  | keyRoll port alive keyId salt =>
    exact ⟨_, rfl, holds_ite h (holds_ite (holds_portOut h) (holds_checkAlive h (fun _ h =>
      holds_ite h (holds_updPort h))))⟩
  | mortarTransitForward port vc message =>
    refine ⟨_, rfl, ?_⟩
    split
    · exact h
    · split
      · exact h
      · exact holds_updPort h
  | remoteRd g length => exact ⟨_, rfl, holds_mortarIn h fun _ => holds_takeRequest⟩
  | remoteWr g bytes => exact ⟨_, rfl, holds_mortarIn h fun _ => holds_takeRequest⟩
  | remoteData g bytes =>
    refine ⟨_, rfl, ?_⟩
    refine holds_serveHeld ?_
    refine holds_mortarIn h ?_
    intro s h
    split
    · exact h
    · exact holds_withPieces h fun _ _ => holds_takeRemote
  | remoteCmp g status =>
    refine ⟨_, rfl, ?_⟩
    refine holds_serveHeld ?_
    refine holds_mortarIn h ?_
    intro s h
    split
    · exact h
    · exact holds_takeStatus h
  | backoff g =>
    refine ⟨_, rfl, ?_⟩
    refine holds_mortarIn h ?_
    intro s h
    split
    · exact h
    · exact holds_ite h (.of h)
  | backoffResend dest =>
    refine ⟨_, rfl, ?_⟩
    split
    · exact h
    · exact holds_foldl (fun _ _ => holds_resend) (.of h)
  | fanout g payload =>
    exact ⟨_, rfl, holds_mortarIn h fun _ h => holds_withPieces h fun _ _ h => holds_takeRequest
      (.of h)⟩
  | fanoutEpochWaitTimeout fan =>
    refine ⟨_, rfl, ?_⟩
    split
    · exact h
    · split
      · exact holds_ite (holds_fanFail (holds_updFan h)) h
      · exact h
  | partialList g payload =>
    refine ⟨_, rfl, ?_⟩
    refine holds_mortarIn h ?_
    intro s h
    split
    · exact h
    · split
      · exact holds_withPieces h fun _ _ h => holds_takePartial (holds_forgetReq h)
      · exact h
  | mortarRequestTimeout tag =>
    refine ⟨_, rfl, ?_⟩
    split
    · exact h
    · exact holds_ite (holds_peerLost h) h
  | mortarLinkDown port => exact ⟨_, rfl, holds_ite h (holds_hwError (holds_portOut h))⟩
  | xfLinkDown link =>
    exact ⟨_, rfl, holds_ite (holds_serveHeld (holds_farLost (holds_hwError h))) h⟩
  | xfCapacityChange link bytes => exact ⟨_, rfl, .of h⟩
  | coldBoot findings => exact ⟨_, rfl, holds_ite h (holds_boot (.of h))⟩
  | mainInputReturn findings => exact ⟨_, rfl, holds_ite (holds_boot (.of h)) h⟩
  | rstPin => exact ⟨_, rfl, holds_ite (holds_moduleReset h) h⟩
  | powerFailure => exact ⟨_, rfl, holds_ite (holds_powerDown h) h⟩
  | auxInputLoss => exact ⟨_, rfl, holds_ite (holds_aonDown (holds_ite (holds_powerDown h) h)) h⟩
  | wakePin => exact ⟨_, rfl, holds_ite (holds_leaveState h) h⟩
  | powerControlWake => exact ⟨_, rfl, holds_writeWake h⟩
  | powerStateEntry =>
    refine ⟨_, rfl, ?_⟩
    split
    · exact holds_reachState h
    · exact holds_ite (holds_beginState h) h
  | powerStateExit => exact ⟨_, rfl, holds_ite (holds_leaveState h) h⟩
  | drowseIdleTimer => exact ⟨_, rfl, holds_ite (holds_enterNow h) h⟩
  | bankedIdleTimer => exact ⟨_, rfl, holds_ite (holds_enterNow h) h⟩
  | targetStateReturn => exact ⟨_, rfl, holds_ite (holds_enterNow h) h⟩
  | holdupTestTimer => exact ⟨_, rfl, holds_ite h (holds_ite h (holds_ite (.of h) h))⟩
  | thermalSample reading => exact ⟨_, rfl, .of h⟩
  | refclkLost => exact ⟨_, rfl, .of h⟩
  | refclkRestored => exact ⟨_, rfl, .of h⟩
  | memoryScrub stack findings =>
    exact ⟨_, rfl, holds_foldl (fun _ _ => holds_scrubFinding) h⟩
  | blockRefresh brick =>
    refine ⟨_, rfl, ?_⟩
    split
    · exact h
    · exact holds_refreshBlock (.of (fits_modAt_bricks (fun _ hb => hb) h))
  | nandProgramComplete brick erase ok =>
    exact ⟨_, rfl, holds_ite (holds_programEnd h) (holds_ite h (holds_retireBlock h))⟩
  | nandDieFailure brick die =>
    exact ⟨_, rfl, holds_ite h (holds_hwError (.of (fits_modAt_bricks (fun _ hb => hb) h)))⟩
  | entropyHealthFail => exact ⟨_, rfl, .of h⟩
  | readRegister r =>
    exact ⟨_, rfl, holds_mailRun h fun _ _ h => holds_ite (holds_mailEnd h) (holds_mailDone
      (holds_readAccess h))⟩
  | writeRegister r =>
    exact ⟨_, rfl, holds_mailRun h fun _ _ h => holds_ite (holds_mailEnd h) (holds_ite
      (holds_mailEnd h) (holds_mailEnd (holds_writeReg h)))⟩
  | bondStage r =>
    exact ⟨_, rfl, holds_mailRun h fun _ _ h => holds_stageRequest h fun _ _ h => .of h⟩
  | bondApply r =>
    refine ⟨_, rfl, ?_⟩
    refine holds_mailRun h ?_
    intro s _ h
    dsimp only
    split
    · exact holds_mailFail h
    · exact holds_stopFetching (.of h) fun _ => holds_applySwitch
  | drainTimeout =>
    exact ⟨_, rfl, holds_ite h (holds_ite (holds_applySwitch (.of h)) (holds_requestReset (.of h)))⟩
  | moduleReset r =>
    exact ⟨_, rfl, holds_mailRun h fun _ _ h => holds_ite (holds_stopFetching h (fun _ =>
      holds_requestReset)) (holds_requestReset h)⟩
  | firmwareStage r =>
    exact ⟨_, rfl, holds_mailRun h fun _ _ h => holds_stageRequest h fun _ _ h => .of h⟩
  | firmwareActivate r =>
    refine ⟨_, rfl, holds_mailRun h fun _ _ h => ?_⟩
    dsimp only
    split
    · exact holds_mailFail h
    · exact holds_mailAudited h fun _ h => holds_moduleReset (holds_withLintel h)
  | secureErase r =>
    exact ⟨_, rfl, holds_mailRun h fun _ _ h => holds_mailAudited h fun _ h => holds_moduleReset
      (holds_eraseNand (holds_dropCommands (.of h)))⟩
  | holdupTest r => exact ⟨_, rfl, holds_mailRun h fun _ _ h => .of h⟩
  | telemetryRequest => exact ⟨_, rfl, holds_ite (.of h) h⟩
  | setEndpointId eid => exact ⟨_, rfl, holds_ite (holds_mctpAnswer h) (holds_mctpAnswer (.of h))⟩
  | getEndpointId => exact ⟨_, rfl, holds_mctpAnswer h⟩
  | getMctpVersionSupport => exact ⟨_, rfl, holds_mctpAnswer (.of h)⟩
  | getMessageTypeSupport => exact ⟨_, rfl, holds_mctpAnswer h⟩
  | getVendorDefinedMessageSupport => exact ⟨_, rfl, holds_mctpAnswer (.of h)⟩
  | smbusAlertResponse => exact ⟨_, rfl, .of h⟩
  | lintelStage r =>
    exact ⟨_, rfl, holds_mailRun h fun _ _ h => holds_stageRequest h fun _ _ h => .of h⟩
  | lintelRead r =>
    exact ⟨_, rfl, holds_mailRun h fun _ _ h => holds_ite (holds_mailEnd h) (holds_mailDone h)⟩
  | attest r =>
    exact ⟨_, rfl, holds_mailRun h fun _ _ h => holds_ite (holds_mailEnd h) (holds_mailEnd
      (holds_signOut h))⟩
  | rollbackCommit r =>
    exact ⟨_, rfl, holds_mailRun h fun _ _ h => holds_ite (holds_mailEnd h) (holds_ite
      (holds_mailEnd h) (holds_mailAudited h (fun _ h => holds_mailEnd (.of h))))⟩
  | debugChallenge r =>
    exact ⟨_, rfl, holds_mailRun h fun _ _ h => holds_withEntropy h fun _ h => holds_mailEnd (.of
      h)⟩
  | debugUnlock r =>
    exact ⟨_, rfl, holds_mailRun h fun _ _ h => holds_ite (holds_mailEnd h) (holds_ite
      (holds_mailEnd h) (holds_ite (holds_mailEnd h) (holds_ite (holds_mailAudited h (fun _ h =>
      holds_mailEnd (holds_openDebug h))) (holds_mailFail (.of h)))))⟩
  | debugClose r =>
    exact ⟨_, rfl, holds_mailRun h fun _ _ h => holds_ite (holds_mailEnd h) (holds_mailAudited h
      (fun _ h => holds_mailEnd (holds_shutDebug h)))⟩
  | debugExpiry =>
    exact ⟨_, rfl, holds_ite (holds_ite (holds_shutDebug (holds_audit h)) (holds_auditFail h)) h⟩
  | challengeExpiry =>
    refine ⟨_, rfl, ?_⟩
    split
    · exact holds_ite (.of h) h
    · exact h
  | keyInstall r =>
    refine ⟨_, rfl, holds_mailRun h fun _ _ h => ?_⟩
    dsimp only
    split
    · exact holds_mailFail h
    · exact holds_mailAudited h fun _ h => holds_mailEnd (holds_withLintel h)
  | keyDestroy r =>
    exact ⟨_, rfl, holds_mailRun h fun _ _ h => holds_ite (holds_mailEnd h) (holds_ite
      (holds_mailEnd h) (holds_mailAudited h (fun _ h => holds_mailEnd (.of h))))⟩
  | anchorUpdate r =>
    refine ⟨_, rfl, ?_⟩
    refine holds_mailRun h ?_
    intro s _ h
    dsimp only
    split
    · exact holds_mailFail h
    · exact holds_mailAudited h fun _ h => holds_mailEnd (.of h)
  | extest => exact ⟨_, rfl, holds_scanIns h⟩
  | clamp => exact ⟨_, rfl, holds_scanIns h⟩
  | highz => exact ⟨_, rfl, holds_scanIns h⟩
  | samplePreload pins => exact ⟨_, rfl, holds_ite (.of h) h⟩
  | idcode => exact ⟨_, rfl, holds_tapSet h⟩
  | bypass => exact ⟨_, rfl, holds_tapSet h⟩
  | tapReset => exact ⟨_, rfl, holds_tapSet h⟩
  | uzoneErrorCountsRead => exact ⟨_, rfl, holds_companionRequest h⟩
  | plumbAliveFailuresRead => exact ⟨_, rfl, holds_companionRequest h⟩
  | mortarPeerEventsRead => exact ⟨_, rfl, holds_companionRequest h⟩
  | errorCountsRead => exact ⟨_, rfl, holds_companionRequest h⟩
  | epochPublishDelayRead => exact ⟨_, rfl, holds_companionRequest h⟩
  | clockStatusRead => exact ⟨_, rfl, holds_companionRequest h⟩
  | registerWrite addr eight w => exact ⟨_, rfl, holds_companionRequest h⟩
  | mortarFlitReceived port flit errors =>
    exact ⟨_, rfl, holds_ite (holds_portCredits (.of (holds_updPort h))) h⟩
  | mortarNakReceived port seq =>
    exact ⟨_, rfl, holds_ite (holds_ite (holds_retrainPort (holds_updPort h)) (holds_updPort h)) h⟩
  | mortarFecLockLost port lane => exact ⟨_, rfl, holds_ite (holds_retrainPort h) h⟩
  | mortarAckTimeout port => exact ⟨_, rfl, holds_ite (holds_retrainPort h) h⟩
  | uzoneCompanionRetrain => exact ⟨_, rfl, holds_ite (.of h) h⟩
  | xfReadResponse who poison => exact ⟨_, rfl, holds_serveHeld (holds_farAnswer h)⟩
  | holdupTestEnd v1 v2 storedMj =>
    exact ⟨_, rfl, holds_ite (holds_ite (holds_mailDone (holds_ite (holds_hwError (holds_testEnd h))
      (holds_testEnd h))) (holds_ite (holds_hwError (holds_testEnd h)) (holds_testEnd h))) h⟩
  | holdupFloorCrossing storedMj => exact ⟨_, rfl, .of h⟩
  | entropyHealthPass => exact ⟨_, rfl, .of h⟩
  | railFault rail millivolts => exact ⟨_, rfl, holds_hwError h⟩
  | powerCapThrottle inputMw mainMv auxMv mainOver capDuty => exact ⟨_, rfl, .of h⟩

theorem step_holds (h : φ.form.Holds s) (hstep : step s = .next t) : φ.form.Holds t := by
  unfold step at hstep
  split at hstep
  · cases hstep
    exact h
  next c rest _ =>
    have hrest : φ.form.Holds { s with pending := rest } := .of h
    obtain ⟨u, hexec, hu⟩ := exec_holds hrest c
    rw [hexec] at hstep
    cases hstep
    exact hu

/-- Settles O59: every function of the model writes memory by the operations that keep its form. -/
theorem everyStepKeepsMemoryCanonical : Obligations.EveryStepKeepsMemoryCanonical :=
  fun _ _ h hstep => step_holds (φ := .memory) h hstep

/-- Settles O60: no function adds or drops a part; a reset and a boot set the same numbers again. -/
theorem everyStepKeepsTheNumberOfParts : Obligations.EveryStepKeepsTheNumberOfParts :=
  fun _ _ h hstep => step_holds (φ := .parts) h hstep

end Sys2Proof.Steps
end

section
/-!
PROOF. A step and the state after reset: a step runs the command at the front of the queue, every row
answers a next state, and the reset state is read off its definition (log 4, log 5).
-/

open Sys2Proof Sys2Proof.Machine

namespace Sys2Proof.Block

/-- Every row of the table has a meaning, and its meaning answers a next state. -/
theorem exec_answers (i : Instr) (s : State) : ∃ t, exec i s = .next t := by
  cases i <;> exact ⟨_, rfl⟩

theorem step_of_cons {s : State} {c : Instr} {rest : List Instr} (h : s.pending = c :: rest) :
    step s = exec c { s with pending := rest } := by
  simp only [step, h]

theorem step_of_nil {s : State} (h : s.pending = []) : step s = .next s := by
  simp only [step, h]

theorem safeStep (s : State) : SafeStep s := by
  cases h : s.pending with
  | nil => exact ⟨s, step_of_nil h⟩
  | cons c rest =>
    obtain ⟨t, ht⟩ := exec_answers c { s with pending := rest }
    exact ⟨t, (step_of_cons h).trans ht⟩

/-- Settles O57. -/
theorem stepRunsTheFrontCommand : Obligations.StepRunsTheFrontCommand :=
  ⟨fun _ _ _ => step_of_cons, fun _ => step_of_nil, safeStep⟩

/-- Settles O58. Memory after reset lists nothing; every other clause is a closed fact about the fields
of `State.reset`. -/
theorem resetLeavesTheModuleUnbooted : Obligations.ResetLeavesTheModuleUnbooted :=
  ⟨rfl, memWf_reset, fun _ => rfl, by decide⟩

end Sys2Proof.Block
end

section
/-!
PROOF. Lists of the state that are changed at one place or where a test holds, and the commands that a row
picks from one (R351).
-/

open Sys2Proof Sys2Proof.Machine Sys2Proof.Steps

namespace Sys2Proof.Lists

/-! ### Lists changed at one place -/

theorem getD_modAt_self {α : Type} {l : List α} {i : Nat} {f : α → α} {d : α} (h : i < l.length) :
    (modAt l i f).getD i d = f (l.getD i d) := by
  induction l generalizing i with
  | nil => exact absurd h (Nat.not_lt_zero _)
  | cons x l ih =>
    cases i with
    | zero => rfl
    | succ i => exact ih (Nat.lt_of_succ_lt_succ h)

theorem getD_modAt_other {α : Type} {l : List α} {i j : Nat} {f : α → α} {d : α} (h : j ≠ i) :
    (modAt l i f).getD j d = l.getD j d := by
  induction l generalizing i j with
  | nil => rfl
  | cons x l ih =>
    cases i with
    | zero =>
      cases j with
      | zero => exact absurd rfl h
      | succ j => rfl
    | succ i =>
      cases j with
      | zero => rfl
      | succ j => exact ih fun hji => h (congrArg (· + 1) hji)

theorem modAt_modAt {α : Type} (l : List α) (i : Nat) (f g : α → α) :
    modAt (modAt l i f) i g = modAt l i fun x => g (f x) := by
  induction l generalizing i with
  | nil => rfl
  | cons x l ih =>
    cases i with
    | zero => rfl
    | succ i => exact congrArg (x :: ·) (ih i)

theorem find?_mapIf {α : Type} {p : α → Bool} {f : α → α} (h : ∀ x, p x = true → p (f x) = true)
    (l : List α) : (mapIf p f l).find? p = (l.find? p).map f := by
  induction l with
  | nil => rfl
  | cons x l ih =>
    by_cases hx : p x = true
    · simp [mapIf, hx, h x hx]
    · simpa [mapIf, hx] using ih

theorem any_modAt {α : Type} {p : α → Bool} {f : α → α} (h : ∀ x, p (f x) = p x) (l : List α) (i : Nat) :
    (modAt l i f).any p = l.any p := by
  induction l generalizing i with
  | nil => rfl
  | cons x l ih =>
    cases i with
    | zero => simp [modAt, h]
    | succ i => simp [modAt, ih i]

theorem find?_mapIf_other {α : Type} {p r : α → Bool} {f : α → α}
    (h : ∀ x, p x = true → r x = false ∧ r (f x) = false) (l : List α) :
    (mapIf p f l).find? r = l.find? r := by
  induction l with
  | nil => rfl
  | cons x l ih =>
    by_cases hx : p x = true
    · simpa [mapIf, hx, h x hx] using ih
    · simp only [mapIf, List.map_cons, hx, Bool.false_eq_true, if_false, List.find?_cons] at ih ⊢
      rw [ih]

/-! ### Records found by their number -/

theorem findColl_updColl {s : State} {k : Coll} {id : Nat} {f : Coll → Coll}
    (h : findColl s id = some k) (hf : ∀ k, (f k).id = k.id) :
    findColl (updColl s id f) id = some (f k) := by
  have h' := find?_mapIf (p := (·.id == id)) (f := f) (by simp [hf]) s.index.colls
  unfold findColl at *
  rw [h] at h'
  exact h'

theorem id_of_findColl {s : State} {k : Coll} {id : Nat} (h : findColl s id = some k) : k.id = id := by
  simpa using List.find?_some h

variable {s : State} {c : Cmd}

/-- A command that a row picks is one of its own. -/
theorem mine_of_pick {n : Nat} {mine : Cmd → Bool} (h : pick s n mine = some c) : mine c = true := by
  unfold pick at h
  split at h
  · cases h
    have := List.find?_some (by assumption)
    simp only [Bool.and_eq_true] at this
    exact this.2
  · split at h
    · cases h
    · split at h
      · split at h
        · cases h
          assumption
        · cases h
      · cases h

/-! ### Structures outside the Bulk pages -/

theorem flashPages_of_none_bulk {rs : List Range} (h : ∀ r ∈ rs, bulkHomed s r = false) :
    flashPages s rs = [] := by
  have hf : (rs.flatMap fun r => if bulkHomed s r then
      ((List.range ((r.addr + r.len - 1) / 16384 - r.addr / 16384 + 1)).map fun i =>
        r.addr / 16384 * 16384 + 16384 * i).filter fun p => homeOf s (unitOf p) == .bulk
      else []) = [] := by
    rw [List.flatMap_eq_nil_iff]
    intro r hr
    simp [h r hr]
  unfold flashPages
  rw [hf]
  rfl

/-- Structures none of which lies in Bulk are read at once. -/
theorem readPages_of_none_bulk {rs : List Range} {act : State → State}
    (h : ∀ r ∈ rs, bulkHomed s r = false) : readPages s c rs act = act s := by
  simp only [readPages, flashPages_of_none_bulk h, List.filter_nil, List.isEmpty_nil, if_true]

end Sys2Proof.Lists
end

section
/-!
PROOF. A completion that is posted at once (R357, R358): what it leaves in memory and in the scheduler.
-/

open Sys2Proof Sys2Proof.Machine

namespace Sys2Proof.CommandInterface

variable {s : State} {x : Completion} {sq : SubQ} {q : ComplQ}

/-- The queue of a completion after its entry: the tail advances, and PHASE turns over at a wrap. -/
def afterEntry (s : State) (q : ComplQ) (x : Completion) (y : ComplQ) : ComplQ :=
  let raise := cqRaises q (isError x.status)
  let tail := (q.tail + 1) % q.depth
  { y with
    tail := tail
    phase := if tail == 0 then !y.phase else y.phase
    since := if raise then 0 else y.since + 1
    firstAt := if raise then none else some (y.firstAt.getD (now s)) }

theorem writeCompletion_sched (q : ComplQ)
    (hpin : (findCmd s x.cmd).bind (·.pin) = none ∨ s.index.changes = []) :
    (writeCompletion s q x).sched = { s.sched with
      cqs := mapIf (·.id == q.id) (afterEntry s q x) s.sched.cqs
      cmds := s.sched.cmds.filter (·.id != x.cmd) } := by
  obtain ⟨t, hw, ht⟩ : ∃ t, writeCompletion s q x = emit t (completionItems s q x) ∧
      t.sched = { s.sched with
        cqs := mapIf (·.id == q.id) (afterEntry s q x) s.sched.cqs
        cmds := s.sched.cmds.filter (·.id != x.cmd) } :=
    ⟨_, congrArg (emit · (completionItems s q x)) (unpinned_eq hpin), rfl⟩
  have hemit : Machine.Written t (emit t (completionItems s q x)) := written_emit _ _
  rw [hw, hemit, ← ht]

theorem post_sched (h : Posts s x sq q) :
    (post s x).sched = { s.sched with
      cqs := mapIf (·.id == q.id) (afterEntry s q x) s.sched.cqs
      cmds := s.sched.cmds.filter (·.id != x.cmd) } := by
  rw [post_of_posts h]
  obtain ⟨-, -, -, -, -, -, hpin, -⟩ := h
  exact writeCompletion_sched q hpin

theorem post_mem (h : Posts s x sq q) :
    (post s x).mem =
      writeBytes s.mem (q.base + 32 * q.tail) (completionBytes x sq.head q.phase) := by
  rw [post_of_posts h]
  obtain ⟨hsq, -, -, -, -, -, hpin, hwritable⟩ := h
  obtain ⟨t, hw, htmem, -, ht⟩ := writeCompletion_eq_emit q hpin
  rw [hw, emit_completionItems_mem x ((ht _).2 hwritable), htmem, hsq]
  rfl

/-- Settles O40. The entry is all that is written, at the tail of the queue that the completion names. -/
theorem completionIsWrittenAtTheTail : Obligations.CompletionIsWrittenAtTheTail := by
  intro s x sq q h hmem
  refine ⟨readBytes_post h hmem, fun a ha => ?_, ?_, fun y hy => ?_, ?_⟩
  · rw [post_mem h]
    exact readByte_writeBytes_other _ _ _ _ hmem (by rwa [completionBytes_length])
  · have hq : q ∈ s.sched.cqs := List.mem_of_find?_eq_some h.2.1
    refine ⟨afterEntry s q x q, ?_, rfl, rfl, by simp [afterEntry]⟩
    rw [post_sched h]
    exact List.mem_map.2 ⟨q, hq, by simp⟩
  · rw [post_sched h] at hy
    simpa using (List.mem_filter.1 hy).2
  · rw [post_sched h]

end Sys2Proof.CommandInterface
end

section
/-!
PROOF. Searches and walks: what a search command begins, how a walk runs, and how blocks are read for it
(R69 to R137).
-/

open Sys2Proof Sys2Proof.Machine Sys2Proof.Steps Sys2Proof.Lists

namespace Sys2Proof.Walks

variable {s : State} {q : QueueId} {c : Cmd} {k : Coll}

/-! ### What a search command begins (R144, R346) -/

theorem index_of_written {s t : State} (h : Machine.Written s t) : t.index = s.index := by rw [h]

theorem slotWrite_index (s : State) (id a : Nat) (bs : List Byte) :
    (slotWrite s id a bs).index = s.index :=
  index_of_written (written_emit s _)

/-- BUSY slots are written in memory and noted in their command. -/
theorem slotBusy_index (s : State) (id a : Nat) : (slotBusy s id a).index = s.index :=
  slotWrite_index _ _ _ _

theorem busySlots_index (s : State) (c : Cmd) (slots : List (Nat × Nat)) :
    (busySlots s c slots).index = s.index := by
  unfold busySlots
  induction slots generalizing s with
  | nil => rfl
  | cons p slots ih => exact (ih _).trans (slotBusy_index _ _ _)

theorem findColl_begun (s : State) (c : Cmd) (slots : List (Nat × Nat)) (id : Nat) :
    findColl (begun s c slots) id = findColl s id := by
  unfold findColl begun
  rw [busySlots_index, updCmd_index]

theorem pinOf_begun (s : State) (c : Cmd) (slots : List (Nat × Nat)) (e : Nat) :
    pinOf (begun s c slots) e = pinOf s e := by
  have h : (begun s c slots).epochs = s.epochs := by rw [(completes_begun s c slots).same]
  simp only [pinOf, pubBelow, h]

/-- A search that asks no other module begins one query for each of its vectors. -/
theorem actSearch_local (hpin : c.pin = none) (hfan : fansOut s c = false)
    (hk : findColl s (entColl c) = some k) :
    actSearch s c = (List.range (queries c)).foldl
      (fun t i => startQuery t (newQuery s c k i) c.urgent) (pinCmd s c) := by
  simp [actSearch, hpin, hfan, hk]

/-- A RERANK that finds its ID-map entries at once gathers its slots. -/
theorem actRerank_at_once (hpin : c.pin = none) (hk : findColl s (entColl c) = some k)
    (hreach : reachRanges (pinCmd s c) c.loaded (idRanges (pinCmd s c) c k) = none)
    (hbulk : ∀ r ∈ idRanges (pinCmd s c) c k, bulkHomed (pinCmd s c) r = false) :
    actRerank s c = startRerank (pinCmd s c)
      { newQuery s c k 0 with path := 2, nodes := entCount c, vec := vecAt s c 0 }
      (rerankRow s c k (pinOf s (entEpoch c))) c.urgent := by
  have hk' : findColl (pinCmd s c) (entColl c) = some k := hk
  simp only [actRerank, hpin, Option.isSome_none, Bool.false_eq_true, if_false, hk']
  rw [touching_clear hreach]
  rw [readPages_of_none_bulk hbulk]
  rfl

/-- Settles O1. Each of the rows is dispatched alike; a search begins its queries, a RERANK its gather. -/
theorem searchesPinAndBegin : Obligations.SearchesPinAndBegin := by
  intro s q c k b pinned hp hpin hfan hk
  have hk' : findColl b (entColl (ran c)) = some k := (findColl_begun _ _ _ _).trans hk
  have hpinOf : pinOf b (entEpoch c) = pinOf s (entEpoch c) := pinOf_begun _ _ _ _
  have hpinned : pinCmd b (ran c) = pinned := by
    have h : pinCmd b (ran c) = updCmd b c.id fun x => { x with pin := some (pinOf b (entEpoch c)) } := rfl
    rw [h, hpinOf]
  have hact : actSearch b (ran c) = (List.range (queries c)).foldl
      (fun t i => startQuery t (newQuery b (ran c) k i) c.urgent) pinned := by
    rw [← hpinned]
    exact actSearch_local hpin hfan hk'
  have hone : opIs 0x11 c = false → actSearch b (ran c) =
      startQuery pinned (newQuery b (ran c) k 0) c.urgent := fun h => by
    rw [hact, show queries c = 1 by simp [queries, isBatch, h]]
    rfl
  have hop : ∀ {op}, Taken s q (opIs op) c → op ≠ 0x11 → opIs 0x11 c = false := fun ht hne => by
    have h : opIs _ c = true := mine_of_pick ht.1
    simp only [opIs, beq_iff_eq] at h ⊢
    simp [h, hne]
  refine ⟨fun ht => ?_, fun ht => ?_, fun ht => ?_, fun ht hreach hbulk => ?_, fun i => ⟨hpinOf, rfl, rfl⟩⟩
  · exact congrArg Host.Outcome.next ((runCommand_passes ht hp).trans (hone (hop ht (by decide))))
  · exact congrArg Host.Outcome.next ((runCommand_passes ht hp).trans (hone (hop ht (by decide))))
  · have h : opIs 0x11 c = true := mine_of_pick ht.1
    have hq : queries c = entCount c := by simp [queries, isBatch, h]
    rw [hq] at hact
    exact congrArg Host.Outcome.next ((runCommand_passes ht hp).trans hact)
  · refine congrArg Host.Outcome.next ((runCommand_passes ht hp).trans ?_)
    rw [← hpinned, ← hpinOf]
    rw [← hpinned] at hreach hbulk
    exact actRerank_at_once hpin hk' hreach hbulk

/-- A walk that is changed is found changed. -/
theorem findWalk_updWalk {w : Walk} {id : Nat} {f : Walk → Walk} (h : findWalk s id = some w)
    (hf : ∀ w, (f w).id = w.id) : findWalk (updWalk s id f) id = some (f w) := by
  have h' := find?_mapIf (p := (·.id == id)) (f := f) (by simp [hf]) s.walks
  unfold findWalk at *
  rw [h] at h'
  exact h'

/-! ### Walk admission (R75, R81, R82) -/

/-- The state in which an admitted walk runs: it has left the queues of its Brick and holds its slots. -/
def admitted (s : State) (w : Walk) : State :=
  updWalk (updBrick s w.brick fun k => { k with
    urgentQ := k.urgentQ.filter (· != w.id)
    normalQ := k.normalQ.filter (· != w.id)
    slotsInUse := k.slotsInUse + w.slots }) w.id fun w => { w with stage := .running }

/-- The walk at the head of its class that finds its slots starts its next round. -/
theorem exec_walkAdmission {w : Walk} {brick : BitVec 6} (hw : findWalk s w.id = some w)
    (hb : w.brick = brick.toNat) (hon : brickOn s brick.toNat = true)
    (hhead : admissionHead (s.bricks.getD brick.toNat {}) = some w.id)
    (hslots : slotsHeld s brick.toNat + w.slots ≤ slotTotal s) :
    exec (.walkAdmission brick) s = .next (nextRound (admitted s w) { w with stage := .running }) := by
  have h : exec (.walkAdmission brick) s = execWalkAdmission brick s := rfl
  rw [h, execWalkAdmission, hhead]
  simp only [Option.bind_some, hw, hon, Bool.not_true, Bool.false_eq_true, if_false,
    Nat.not_lt.2 hslots]
  rw [← hb]
  rfl

/-- A walk that may go on and has candidates left starts a round. -/
theorem nextRound_starts {w : Walk} (hhops : w.core.hops < w.params.budget)
    (hdl : pastDeadline s w.params = false) (hround : (roundOf w.params w.core).isEmpty = false) :
    nextRound s w = startRound s w := by
  simp [nextRound, hdl, hround, Nat.not_le.2 hhops]

/-- The Brick of a walk that is admitted and starts a round: it has the round's reads to send. -/
theorem startRound_brick (w : Walk) :
    (startRound (admitted s w) { w with stage := .running }).bricks =
      modAt s.bricks w.brick fun k => { k with
        urgentQ := k.urgentQ.filter (· != w.id)
        normalQ := k.normalQ.filter (· != w.id)
        slotsInUse := k.slotsInUse + w.slots
        asks := k.asks ++ (roundOf w.params w.core).zipIdx.map fun x => {
          owner := .walk w.id x.2, origin := w.brick, coll := w.query.coll, slot := x.1.slot }
        stalls := (k.stalls + (((roundOf w.params w.core).zipIdx.map fun x => ({
          owner := .walk w.id x.2, origin := w.brick, coll := w.query.coll, slot := x.1.slot } :
            ReadReq)).length - (256 - k.buffers.length - k.asks.length))) % 2 ^ 64 } :=
  modAt_modAt _ _ _ _

/-- Settles O3. -/
theorem walkAdmission : Obligations.WalkAdmission := by
  intro s brick w hlen hw hb hround hon
  have hlt : brick.toNat < s.bricks.length := by rw [hlen]; exact brick.isLt
  refine ⟨fun hhead hq hslots hhops hdl hne => ⟨_, exec_walkAdmission hw hb hon hhead hslots, ?_⟩,
    fun hwalks hstage hroom => ?_⟩
  · rw [nextRound_starts (s := admitted s w) (w := { w with stage := .running }) hhops hdl hne]
    refine ⟨?_, ?_, ?_, rfl, rfl⟩
    · rw [startRound_brick, hb, getD_modAt_self hlt]
    · rw [startRound_brick, hb, getD_modAt_self hlt]
      simp
    · have h1 := findWalk_updWalk (s := s) (f := fun w => { w with stage := .running }) hw fun _ => rfl
      have h2 := findWalk_updWalk (f := fun w' => { w' with
        round := (roundOf w.params w.core).map fun x => { cand := x } }) h1 fun _ => rfl
      refine ⟨_, h2, rfl, rfl, ?_⟩
      simp [Function.comp_def]
  · have h : exec (.admissionQueueRoom brick) s = execAdmissionQueueRoom brick s := rfl
    rw [h, execAdmissionQueueRoom]
    simp only [hroom, if_true]
    simp [hwalks, hb, hstage, enqueueWalk, updBrick, updWalk, mapIf]

/-! ### Block reads (R77, R78, R88 to R90, R103) -/

/-- What a Brick does with its extents kept leaves every unit its home. -/
theorem homeOf_updBrick {b : Nat} {f : Brick → Brick} (hf : ∀ k, (f k).extents = k.extents) (u : Nat) :
    homeOf (updBrick s b f) u = homeOf s u := by
  have h : inExtent (updBrick s b f) u = inExtent s u := any_modAt (fun k => by rw [hf k]) _ _
  simp only [homeOf, plainHome, h]
  rfl

/-- A read of a walk changes the entry of the round that it is for. -/
theorem updEntry_walk {r : ReadReq} {w e : Nat} (hr : r.owner = .walk w e) (hd : r.dead = false)
    (f : REntry → REntry) :
    updEntry s r f = updWalk s w fun w => { w with round := modAt w.round e f } := by
  simp [updEntry, hr, hd]

/-- A unit in the flash tile that does not fault is reached for a block. -/
theorem reachUnit_tile {u : Nat} (hhome : homeOf s u = .tile) (hf : faultOn s u = false) :
    reachUnit s true 0 false u = .ok := by
  simp [reachUnit, hhome, hf, inPlace, homeOff, backing]

/-- The owner of a Tile block puts its read at the end of the block's plane queue. -/
theorem sendRead_tile {r : ReadReq} (hhome : homeOf s (unitOf (readRange s r).addr) = .tile)
    (hf : faultOn s (unitOf (readRange s r).addr) = false) :
    sendRead s r = updBrick s (brickOf r.slot) fun k => { k with
      planes := modAt k.planes (planeOf r.slot) (· ++ [r]) } := by
  simp only [sendRead, reachUnit_tile hhome hf, hhome]

theorem freeBuffer_spec {k : Brick} {i : Nat} (h : freeBuffer k = some i) :
    i < 256 ∧ i ∉ k.buffers := by
  have hmem := List.mem_of_find?_eq_some h
  have hfree := List.find?_some h
  exact ⟨List.mem_range.1 hmem, by simpa using hfree⟩

/-- A read of a sound block ends well. -/
theorem readResult_sound {r : ReadReq} {b p n w e : Nat} {x : Block} (hr : r.owner = .walk w e)
    (hn : n < 3) (hw : s.lintel.withheld = false)
    (hd : (s.bricks.getD b {}).deadDies.contains (p / 4) = false)
    (hx : blockOf s r = some x) (hc : x.corrupt = false) (hl : x.lost = false) :
    readResult s b p n false r = 0 := by
  have h7 : ¬ 7 < n := by omega
  have hblock : forBlock r = true := by simp [forBlock, hr]
  simp only [readResult, hd]
  simp [hw, h7, hblock, hx, hc, hl]

/-- A read that ends well leaves no error record. -/
theorem readError_ok {r : ReadReq} {b p n : Nat} (hn : n < 3) : readError s b r p 0 n = s := by
  have h3 : ¬ 3 ≤ n := by omega
  simp [readError, h3]

/-- Nor does such a block have to be refreshed. -/
theorem noteBlock_bricks {r : ReadReq} {b n : Nat} (hn : n < 3) :
    (noteBlock s b r 0 n).bricks = modAt s.bricks b fun k => k := by
  have h3 : ¬ 3 ≤ n := by omega
  simp [noteBlock, updBrick, h3]
  split <;> rfl

/-- What is noted of a block stands in its Brick and its collection. -/
theorem noteBlock_same {r : ReadReq} {b st n : Nat} :
    noteBlock s b r st n = { s with
      bricks := (noteBlock s b r st n).bricks, index := (noteBlock s b r st n).index } := by
  unfold noteBlock
  dsimp only
  split <;> rfl

/-- A block of a walk that its array has read is on its way back, and waits for the bus. -/
theorem arrayDone_walk {r : ReadReq} {b st w e : Nat} (hr : r.owner = .walk w e) (hd : r.dead = false) :
    arrayDone s b r st = updWalk (updBrick s b fun k => { k with
      bus := k.bus ++ [{ r with result := st }]
      remoteReads := (k.remoteReads + b2n (r.origin != b)) % 2 ^ 64 }) w fun w => { w with
        round := modAt w.round e fun e => { e with st := .returned, result := st } } := by
  have hblock : forBlock r = true := by simp [forBlock, hr]
  simp only [arrayDone, hr, hblock, Bool.true_and]
  exact updEntry_walk hr hd _

/-- The state in which a walk's read of a sound block is on its way back. -/
def readBack (s : State) (b p n w e : Nat) (r : ReadReq) (rest : List ReadReq) : State :=
  updWalk (updBrick (noteBlock (updBrick s b fun k => startPrograms { k with
    planes := modAt k.planes p fun _ => rest }) b r 0 n) b fun k => { k with
      bus := k.bus ++ [{ r with result := 0 }]
      remoteReads := (k.remoteReads + b2n (r.origin != b)) % 2 ^ 64 }) w fun w => { w with
        round := modAt w.round e fun e => { e with st := .returned, result := 0 } }

theorem exec_flashReadComplete_sound {b : BitVec 6} {p : BitVec 5} {n w e : Nat} {r : ReadReq}
    {rest : List ReadReq} {x : Block} (hr : r.owner = .walk w e) (hd : r.dead = false)
    (hon : brickOn s b.toNat = true)
    (hplane : (s.bricks.getD b.toNat {}).planes.getD p.toNat [] = r :: rest) (hn : n < 3)
    (hbusy : planeBusy (s.bricks.getD b.toNat {}) p.toNat = false) (hw : s.lintel.withheld = false)
    (hdead : (s.bricks.getD b.toNat {}).deadDies.contains (p.toNat / 4) = false)
    (hx : blockOf s r = some x) (hc : x.corrupt = false) (hl : x.lost = false) :
    exec (.flashReadComplete b p n false) s = .next (readBack s b.toNat p.toNat n w e r rest) := by
  have h : exec (.flashReadComplete b p n false) s = execFlashReadComplete b p n false s := rfl
  rw [h, execFlashReadComplete]
  simp only [hbusy, hon, hplane, Bool.not_true, Bool.false_eq_true, if_false,
    readResult_sound hr hn hw hdead hx hc hl, readError_ok hn]
  rw [arrayDone_walk hr hd]
  rfl

theorem readBack_bricks {b p n w e : Nat} {r : ReadReq} {rest : List ReadReq} (hn : n < 3) :
    (readBack s b p n w e r rest).bricks = modAt s.bricks b fun k => { k with
      planes := modAt k.planes p fun _ => rest
      bus := k.bus ++ [{ r with result := 0 }]
      programs := (startPrograms { k with planes := modAt k.planes p fun _ => rest }).programs
      remoteReads := (k.remoteReads + b2n (r.origin != b)) % 2 ^ 64 } := by
  unfold readBack
  dsimp only [updWalk, updBrick]
  rw [noteBlock_bricks hn]
  simp only [modAt_modAt]
  rfl

theorem readBack_same {b p n w e : Nat} {r : ReadReq} {rest : List ReadReq} :
    let t := readBack s b p n w e r rest
    t.walks = mapIf (·.id == w) (fun w => { w with
      round := modAt w.round e fun e => { e with st := .returned, result := 0 } }) s.walks ∧
    t.mem = s.mem ∧ t.sched = s.sched ∧ t.hw = s.hw ∧ t.slab = s.slab := by
  unfold readBack
  dsimp only [updWalk, updBrick]
  rw [noteBlock_same]
  exact ⟨rfl, rfl, rfl, rfl, rfl⟩

/-- Settles O4. -/
theorem blockReadsGoThroughTheirOwners : Obligations.BlockReadsGoThroughTheirOwners := by
  intro s b r rest w e hlen hon hr hd
  refine ⟨fun i hasks hbuf hother => ?_, fun hremote howner hhome hf => ?_,
    fun p n x hplane hn hbusy hwith hdead hx hcorrupt hlost => ?_⟩
  · obtain ⟨hlt, hfree⟩ := freeBuffer_spec hbuf
    refine ⟨hlt, hfree, ?_⟩
    have h : exec (.landingBufferGrant b) s = execLandingBufferGrant b s := rfl
    rw [h, execLandingBufferGrant]
    simp only [hasks, hbuf, hon, if_true, sendGranted, beq_false_of_ne hother, Bool.false_eq_true, if_false]
    rw [updEntry_walk (by exact hr) (by exact hd)]
    rfl
  · have h : exec (.remoteBlockReadRequest b) s = execRemoteBlockReadRequest b s := rfl
    rw [h, execRemoteBlockReadRequest]
    simp only [hremote, hon, if_true]
    rw [sendRead_tile ((homeOf_updBrick (by exact fun _ => rfl) _).trans hhome) (by exact hf), howner]
    simp only [updBrick, modAt_modAt]
  · exact ⟨_, exec_flashReadComplete_sound hr hd hon hplane hn hbusy hwith hdead hx hcorrupt hlost,
      readBack_bricks hn, readBack_same⟩

/-! ### Blocks in their turn (R82, R83, R90) -/

/-- A read that crosses its bus changes nothing but the Bricks. -/
theorem crossBus_same (s : State) (b n : Nat) :
    crossBus s b n = { s with bricks := (crossBus s b n).bricks } := by
  have h : ∀ (l : List ReadReq) (t : State),
      l.foldl (fun s r => updBrick s r.origin fun k => { k with incoming := k.incoming ++ [r] }) t =
        { t with bricks := (l.foldl (fun s r => updBrick s r.origin fun k => { k with
          incoming := k.incoming ++ [r] }) t).bricks } := by
    intro l
    induction l with
    | nil => exact fun _ => rfl
    | cons r l ih =>
      intro t
      rw [List.foldl_cons, ih]
      rfl
  unfold crossBus
  rw [h]
  rfl

/-- A block that has come changes nothing but the Bricks. -/
theorem takeLanded_same (s : State) (walk entry : Nat) (free : Bool) :
    takeLanded s walk entry free = { s with bricks := (takeLanded s walk entry free).bricks } := by
  unfold takeLanded
  dsimp only
  split
  · rw [crossBus_same]
  · rfl

/-- Its read is no longer on its way. -/
theorem takeLanded_incoming {walk entry : Nat} {free : Bool} {k : Brick}
    (h : k ∈ (takeLanded s walk entry free).bricks) {r : ReadReq} (hr : r ∈ k.incoming) :
    isRead walk entry r = false := by
  obtain ⟨k', -, rfl⟩ := List.mem_map.1 h
  simpa using (List.mem_filter.1 hr).2

theorem findWalk_takeLanded (walk entry id : Nat) (free : Bool) :
    findWalk (takeLanded s walk entry free) id = findWalk s id := by
  rw [takeLanded_same]
  rfl

theorem pastDeadline_takeLanded (walk entry : Nat) (free : Bool) (p : WalkParams) :
    pastDeadline (takeLanded s walk entry free) p = pastDeadline s p := by
  rw [takeLanded_same]
  rfl

/-- The entry of a round whose block has landed. -/
def landedAt (i : Nat) (w : Walk) : Walk :=
  { w with round := modAt w.round i fun e => { e with st := .landed } }

/-- A block that returned well lands, and its walk goes on as far as it can. -/
theorem exec_blockLanded {w : Walk} {i : Nat} {x : REntry} (hw : findWalk s w.id = some w)
    (hx : w.round[i]? = some x) (hst : x.st = .returned) (hres : x.result = 0)
    (hon : brickOn s w.brick = true) :
    exec (.blockLanded w.id i) s =
      .next (walkOn 18 (updWalk (takeLanded s w.id i false) w.id (landedAt i)) w.id) := by
  have h : exec (.blockLanded w.id i) s = execBlockLanded w.id i s := rfl
  rw [h, execBlockLanded, hw]
  simp only [hx, hst, hres, hon, bne_self_eq_false, Bool.not_true, Bool.false_eq_true, if_false]
  rfl

theorem findWalk_landed {w : Walk} {i : Nat} (hw : findWalk s w.id = some w) :
    findWalk (updWalk (takeLanded s w.id i false) w.id (landedAt i)) w.id = some (landedAt i w) :=
  findWalk_updWalk ((findWalk_takeLanded _ _ _ _).trans hw) fun _ => rfl

/-- Where one that counts is changed and still counts, the first that counts stands where it stood. -/
theorem find?_zipIdx_modAt {α : Type} {p : α → Bool} {f : α → α} {l : List α} {i : Nat} {x : α}
    (hx : l[i]? = some x) (hp : p x = true) (hf : p (f x) = true) (n : Nat) :
    ((modAt l i f).zipIdx n).find? (fun y => p y.1) = ((l.zipIdx n).find? fun y => p y.1).map
      fun y => if y.2 = n + i then (f y.1, y.2) else y := by
  induction l generalizing i n with
  | nil => simp at hx
  | cons y l ih =>
    cases i with
    | zero =>
      obtain rfl : y = x := by simpa using hx
      simp [modAt, List.zipIdx_cons, hp, hf]
    | succ i =>
      have h := ih (i := i) (by simpa using hx) (n + 1)
      rw [show n + 1 + i = n + (i + 1) by omega] at h
      by_cases hy : p y = true
      · simp [modAt, List.zipIdx_cons, hy]
      · simpa [modAt, List.zipIdx_cons, hy] using h

/-- The entry that a walk takes next stands where it stood when one that is not yet processed lands. -/
theorem nextEntry_landedAt {w : Walk} {i : Nat} {x : REntry} (hx : w.round[i]? = some x)
    (hst : x.st = .returned) : nextEntry (landedAt i w) = (nextEntry w).map fun y =>
      if y.1 = i then (y.1, { y.2 with st := .landed }) else y := by
  have h := find?_zipIdx_modAt (p := fun e => e.st != .processed)
    (f := fun e => { e with st := RState.landed }) hx (by simp [hst]) (by simp) 0
  unfold nextEntry landedAt
  dsimp only
  rw [h, Option.map_map, Option.map_map]
  refine congrArg (Option.map · _) (funext fun y => ?_)
  simp only [Function.comp_apply, Nat.zero_add]
  split <;> rfl

/-! ### One block processed (R83, R86, R91) -/

section block
variable {p : WalkParams} {pred : Option Pred} {vis : Nat → Vis} {sc : Scorer}

theorem offer_hops (k : WalkCore) (e : BEntry) : (offer p pred vis sc k e).hops = k.hops := by
  unfold offer
  split <;> rfl

/-- An entry that is offered can only mark its slot as visited. -/
theorem offer_visited (k : WalkCore) (e : BEntry) {i : Nat} (h : k.visited.testBit i = true) :
    (offer p pred vis sc k e).visited.testBit i = true := by
  unfold offer
  split
  · exact h
  · have hmark : (visitedMark p.L k.visited e.slot).testBit i = true := by simp [visitedMark, h]
    dsimp only
    generalize (if (vis e.slot == Vis.live && _) = true then _ else none : Option _) = rq
    split
    · exact hmark
    · exact h

theorem offers_keep (es : List BEntry) (k : WalkCore) :
    (es.foldl (offer p pred vis sc) k).hops = k.hops ∧
    ∀ i, k.visited.testBit i = true → (es.foldl (offer p pred vis sc) k).visited.testBit i = true := by
  induction es generalizing k with
  | nil => exact ⟨rfl, fun _ h => h⟩
  | cons e es ih =>
    obtain ⟨hhops, hvis⟩ := ih (offer p pred vis sc k e)
    exact ⟨hhops.trans (offer_hops k e), fun i h => hvis i (offer_visited k e h)⟩

/-- The candidate of a block that is processed stands as expanded. -/
theorem processBlock_expanded {x : Cand} {es : List BEntry} {own : BitVec 64} {k : WalkCore} {y : Cand}
    (hy : y ∈ (processBlock p pred vis sc x es own k).cq) (hd : y.d = x.d) (hslot : y.slot = x.slot) :
    y.expanded = true := by
  obtain ⟨z, -, rfl⟩ := List.mem_map.1 hy
  dsimp only at hd hslot ⊢
  split
  · rfl
  · next hne =>
    rw [if_neg hne] at hd hslot
    exact absurd (by simp [hd, hslot]) hne

end block

/-- Settles O5. -/
theorem landedBlocksAreProcessedInOrder : Obligations.LandedBlocksAreProcessedInOrder := by
  refine ⟨fun s w i j x y hw hx hst hres hon hnext hne hy hhops => ?_,
    fun s w i x hw hx hst hres hon hnext hhops hdl => ?_,
    fun s walk entry free => ⟨fun k hk r hr => takeLanded_incoming hk hr, ?_, ?_, ?_⟩,
    fun p pred vis sc x es own k => ⟨?_, ?_, fun y hy => processBlock_expanded hy⟩⟩
  · rw [exec_blockLanded hw hx hst hres hon]
    have hnext' : nextEntry (landedAt i w) = some (j, y) := by
      rw [nextEntry_landedAt hx hst, hnext]
      simp [hne]
    have hgo : walkOn 18 (updWalk (takeLanded s w.id i false) w.id (landedAt i)) w.id =
        updWalk (takeLanded s w.id i false) w.id (landedAt i) := by
      have hhops' : ¬ (landedAt i w).params.budget ≤ (landedAt i w).core.hops := Nat.not_le.2 hhops
      simp [walkOn, findWalk_landed hw, hnext', hhops', hy]
    rw [hgo, updWalk, takeLanded_same]
    rfl
  · rw [exec_blockLanded hw hx hst hres hon]
    have hnext' : nextEntry (landedAt i w) = some (i, { x with st := .landed }) := by
      rw [nextEntry_landedAt hx hst, hnext]
      simp
    have hhops' : ¬ (landedAt i w).params.budget ≤ (landedAt i w).core.hops := Nat.not_le.2 hhops
    have hdl' : pastDeadline (updWalk (takeLanded s w.id i false) w.id (landedAt i))
        (landedAt i w).params = false := (pastDeadline_takeLanded w.id i false _).trans hdl
    refine congrArg Host.Outcome.next ?_
    rw [walkOn, findWalk_landed hw]
    simp only [hnext', hhops', hdl', if_false, bne_self_eq_false, Bool.false_eq_true]
    rfl
  · rw [takeLanded_same]
  · rw [takeLanded_same]
  · rw [takeLanded_same]
  · exact congrArg (· + 1) (offers_keep es k).1
  · refine Nat.eq_of_testBit_eq fun i => ?_
    rw [Nat.testBit_and]
    cases h : k.visited.testBit i with
    | false => simp
    | true =>
      rw [Bool.and_true]
      exact (offers_keep es k).2 i h

/-! ### Deadlines and tiles (R91 to R94, R109) -/

/-- An operation finds room in the queue of the Slab where none is held before it. -/
theorem slabEnqueue_room (op : SlabOp) (hheld : s.slab.heldWork = []) (hroom : s.slab.queue.length < 4096) :
    slabEnqueue s op = { s with slab := { s.slab with
      nextOp := s.slab.nextOp + 1, queue := s.slab.queue ++ [{ op with id := s.slab.nextOp }] } } := by
  simp [slabEnqueue, hheld, Nat.not_le.2 hroom]

/-- Settles O6. -/
theorem walkDeadlineAndTileClose : Obligations.WalkDeadlineAndTileClose := by
  refine ⟨fun s w c hw hst hdl hc => ?_, fun s t ht hdue hheld hroom => ?_⟩
  · have h : exec (.walkDeadline w.id) s = execWalkDeadline w.id s := rfl
    rw [h, execWalkDeadline, hw]
    simp only [hst, hdl, beq_self_eq_true, Bool.and_self, if_true, stopWalk, hc]
  · have h : exec (.rerankTileClose t.id) s = execRerankTileClose t.id s := rfl
    refine ⟨{ tileOp s t with id := s.slab.nextOp }, rfl, rfl, rfl, rfl, h.trans ?_⟩
    rw [execRerankTileClose, ht]
    simp only [hdue, if_true, closeTile]
    rw [slabEnqueue_room _ (by exact hheld) (by exact hroom)]

end Sys2Proof.Walks
end

section
/-!
PROOF. What the live index writes: its collections, change table and patch log, with their bytes in memory
(R138 to R185).
-/

open Sys2Proof Sys2Proof.Machine Sys2Proof.Steps Sys2Proof.Lists

namespace Sys2Proof.Index

variable {s t u : State}

/-! ### Writes of the live index -/

/-- Beside the collections, the change table, the patch log and the bytes that the module writes at names,
`t` is as `s` is. -/
structure IndexWrites (s t : State) : Prop where
  same : t = { s with mem := t.mem, index := t.index, uzone := t.uzone, mortar := t.mortar, hw := t.hw }
  index : t.index = { s.index with
    colls := t.index.colls, changes := t.index.changes, patches := t.index.patches }
  fans : t.mortar.fans = s.mortar.fans
  hw : t.hw = { s.hw with poisoned := t.hw.poisoned }

theorem IndexWrites.refl (s : State) : IndexWrites s s := ⟨rfl, rfl, rfl, rfl⟩

theorem IndexWrites.trans (h1 : IndexWrites s t) (h2 : IndexWrites t u) : IndexWrites s u :=
  ⟨by rw [h2.same, h1.same], by rw [h2.index, h1.index], h2.fans.trans h1.fans, by rw [h2.hw, h1.hw]⟩

theorem IndexWrites.foldl {α : Type} {f : State → α → State} (h : ∀ s x, IndexWrites s (f s x))
    (l : List α) (s : State) : IndexWrites s (l.foldl f s) := by
  induction l generalizing s with
  | nil => exact .refl s
  | cons x l ih => exact (h s x).trans (ih _)

theorem IndexWrites.sched (h : IndexWrites s t) : t.sched = s.sched := by rw [h.same]
theorem IndexWrites.epochs (h : IndexWrites s t) : t.epochs = s.epochs := by rw [h.same]
theorem IndexWrites.kv (h : IndexWrites s t) : t.kv = s.kv := by rw [h.same]

theorem indexWrites_updColl (id : Nat) (f : Coll → Coll) : IndexWrites s (updColl s id f) :=
  ⟨rfl, rfl, rfl, rfl⟩

/-- A write keeps the index and the fan-outs. -/
theorem indexWrites_of_written (h : Machine.Written s t) (hf : t.mortar.fans = s.mortar.fans) :
    IndexWrites s t := by
  unfold Machine.Written at h
  exact ⟨by rw [h], by rw [h], hf, by rw [h]⟩

theorem mortarRequest_fans (op d : Nat) (o : Option Owner) (n a : Nat) (p : List Byte) :
    (mortarRequest s op d o n a p).mortar.fans = s.mortar.fans := rfl

theorem homeWrite_fans (o : Option Owner) (s : State) (h : Home) (a : Nat) (bs : List Byte) :
    (homeWrite o s h a bs).mortar.fans = s.mortar.fans := by
  have hfold : ∀ (l : List (List Byte × Nat)) (g : List Byte × Nat → Nat) (d n : Nat) (s : State),
      (l.foldl (fun s c => mortarRequest s 2 d o n (g c) c.1) s).mortar.fans = s.mortar.fans := by
    intro l g d n
    induction l with
    | nil => exact fun _ => rfl
    | cons c l ih => exact fun s => (ih _).trans (mortarRequest_fans _ _ _ _ _ _)
  cases h with
  | neighbour p => exact hfold _ _ _ _ s
  | _ => rfl

theorem deviceWrite_fans (s : State) (o : Option Owner) (a : Nat) (bs : List Byte) :
    (deviceWrite s o a bs).mortar.fans = s.mortar.fans := by
  unfold deviceWrite
  rw [show s.mortar.fans = (clearPoison s a bs.length).mortar.fans from rfl]
  generalize clearPoison s a bs.length = t
  induction spanUnits a bs.length generalizing t with
  | nil => rfl
  | cons x l ih => exact (ih _).trans (homeWrite_fans _ _ _ _ _)

theorem indexWrites_deviceWrite (o : Option Owner) (a : Nat) (bs : List Byte) :
    IndexWrites s (deviceWrite s o a bs) :=
  indexWrites_of_written (written_deviceWrite s o a bs) (deviceWrite_fans s o a bs)

theorem indexWrites_putCode (coll slot code : Nat) : IndexWrites s (putCode s coll slot code) := by
  unfold putCode
  split
  · exact .refl s
  · unfold writeCode
    split
    · exact indexWrites_updColl _ _
    · exact (indexWrites_updColl _ _).trans (indexWrites_deviceWrite _ _ _)

theorem indexWrites_freeSlot (coll slot : Nat) : IndexWrites s (freeSlot s coll slot) := by
  unfold freeSlot
  split
  · exact .refl s
  · dsimp only
    refine IndexWrites.trans ?_ (indexWrites_putCode _ _ _)
    split
    · refine IndexWrites.trans ?_ (indexWrites_deviceWrite _ _ _)
      refine IndexWrites.trans ?_ (.foldl (fun _ _ => indexWrites_deviceWrite _ _ _) _ _)
      exact ⟨rfl, rfl, rfl, rfl⟩
    · refine IndexWrites.trans ?_ (.foldl (fun _ _ => indexWrites_deviceWrite _ _ _) _ _)
      exact ⟨rfl, rfl, rfl, rfl⟩

theorem indexWrites_retire (s : State) : IndexWrites s (retire s) := by
  unfold retire
  dsimp only
  refine IndexWrites.trans (.foldl (fun s e => ?_) _ s) ⟨rfl, rfl, rfl, rfl⟩
  split
  · exact indexWrites_freeSlot _ _
  · exact indexWrites_putCode _ _ _

theorem indexWrites_publishColl (e low : Nat) (s : State) (c : Coll) :
    IndexWrites s (publishColl e low s c) :=
  .trans (indexWrites_updColl _ _) (.foldl (fun _ _ => indexWrites_deviceWrite _ _ _) _ _)

/-! ### Publication (R139, R142, R143) -/

theorem IndexWrites.withEpochs (h : IndexWrites s t) (ep : Epochs) :
    IndexWrites { s with epochs := ep } { t with epochs := ep } := by
  obtain ⟨hsame, hindex, hfans, hhw⟩ := h
  exact ⟨by rw [hsame], hindex, hfans, hhw⟩

/-- The epochs once the oldest closed epoch is published. -/
def publishedEpochs (s : State) (e boundary : Nat) (deferred : Bool) : Epochs :=
  { s.epochs with
    published := e
    floor := nextFloor s.epochs e
    closing := s.epochs.closing.drop 1
    pubs := s.epochs.pubs.filter (fun p => decide (nextFloor s.epochs e ≤ p)) ++ [e]
    delayLast := min 0xFFFF (now s - boundary)
    delayMax := if deferred then s.epochs.delayMax
      else max s.epochs.delayMax (min 0xFFFF (now s - boundary)) }

/-- A publication sets the epochs, and writes what it keeps of the live index. -/
theorem publish_writes (s : State) (e b : Nat) (d : Bool) :
    IndexWrites { s with epochs := publishedEpochs s e b d } (publish s e b d) := by
  let low := release { s with epochs := { s.epochs with floor := nextFloor s.epochs e } }
  have h : IndexWrites s (s.index.colls.foldl (publishColl e low) s) :=
    .foldl (indexWrites_publishColl e low) _ s
  have hep := h.epochs
  unfold publish
  dsimp only
  rw [hep]
  exact (h.withEpochs (publishedEpochs s e b d)).trans (indexWrites_retire _)

/-- With no fan-out, none waits for the epoch. -/
theorem wakeFans_of_no_fans (h : s.mortar.fans = []) : wakeFans s = s := by
  rw [wakeFans, h]
  rfl

/-- Settles O7. -/
theorem epochsCloseAndArePublished : Obligations.EpochsCloseAndArePublished := by
  refine ⟨⟨fun s e t l hcl hfans hst hstage => ?_, fun s f t hf hwait hdue => ?_⟩,
    fun s x hx hvalid hdue => ?_⟩
  · have hw := publish_writes s e t false
    have h : exec .epochPublicationComplete s = execEpochPublicationComplete s := rfl
    refine ⟨publish s e t false, ?_, ?_, hw.sched, hw.kv⟩
    · rw [h, execEpochPublicationComplete]
      simp only [hst, hstage, beq_self_eq_true, decide_true, Bool.and_self, if_true]
      have hpub : publishNext s false = publish s e t false := by
        simp [publishNext, hcl, published]
      rw [hpub, wakeFans_of_no_fans (hw.fans.trans hfans)]
    · rw [hw.epochs]
      simp [publishedEpochs, hcl]
  · have h : exec (.fanoutEpochWaitTimeout f.id) s = execFanoutEpochWaitTimeout f.id s := rfl
    rw [h, execFanoutEpochWaitTimeout, hf]
    simp only [hwait, hdue, if_true]
  · have h : exec .epochBoundary s = .next (closeNext s) := rfl
    rw [h, closeNext, hx]
    simp [hvalid, nextBoundary, hdue, closeEpoch, hx]

/-! ### Collections (R38, R64, R176, R529) -/

section collections
variable {q : QueueId} {c : Cmd} {k : Coll}

/-- A command whose audit record can be written acts after it. -/
theorem audited_ok {event : Nat} {detail : List Nat} {desc : List Byte} {act : State → State}
    (h : auditOk s = true) : audited s c event detail desc act =
      act (audit s 0 event detail (c.sq + entTag c * 65536) (c.entry ++ desc)) := by
  simp [audited, h]

/-- With keys, space and entropy at hand, a create adds its collection under its audit record. -/
theorem actCreate_ok {names areas : List Nat} (hw : s.lintel.withheld = false)
    (he : s.lintel.entropyFault = false) (ha : auditOk s = true)
    (hnames : allotExtents s (readBytes s.mem (entDesc c) 64) = some names)
    (hareas : allotIndex s (dHome (readBytes s.mem (entDesc c) 64))
      (collSizes s (readBytes s.mem (entDesc c) 64)) = some areas) :
    let d := readBytes s.mem (entDesc c) 64
    actCreate s c = sealed (addColl (audit s 0 0x40 [byteAt d 4, dKey d] (c.sq + entTag c * 65536)
      (c.entry ++ d)) c.id d names areas) c 0 0 0 := by
  have hdraw : ∀ act, drawingKey s c (dKey (readBytes s.mem (entDesc c) 64)) act = act s := fun act => by
    simp [drawingKey, he]
  simp only [actCreate, withheldErr, hw, must, hnames, hareas, hdraw, audited_ok ha, Bool.not_false,
    if_true]

theorem idLookup_of_no_entries (h : k.idMap = []) (v : Nat) : idLookup k v = none := by
  simp [idLookup, h, idFind, idAt]

/-- Beside the collection, its space and its key, a create leaves the module as it was. -/
theorem addColl_same (s : State) (id : Nat) (d : List Byte) (names areas : List Nat) :
    let t := addColl s id d names areas
    t.lintel.audit = s.lintel.audit ∧ t.epochs = s.epochs ∧ t.kv = s.kv ∧ t.tiers = s.tiers :=
  ⟨rfl, rfl, rfl, rfl⟩

/-- Settles O8. -/
theorem collectionCreateAddsAnEmptyCollection : Obligations.CollectionCreateAddsAnEmptyCollection := by
  intro s q c names areas d b a ht hp hw he ha hnames hareas
  refine ⟨addColl a (ran c).id d names areas, newColl a d names areas (ran c).id, ?_, rfl, rfl, rfl, rfl,
    rfl, rfl, idLookup_of_no_entries rfl, addColl_same a (ran c).id d names areas⟩
  exact congrArg Host.Outcome.next ((runCommand_passes ht hp).trans (actCreate_ok hw he ha hnames hareas))

/-- A command whose collection no other command uses waits for none. -/
theorem dropWaits_eq_nil {id : Nat} (hafter : c.after = [])
    (h : ∀ x ∈ s.sched.cmds, x.id ≠ c.id → x.checked = false) : dropWaits s c id = [] := by
  simp only [dropWaits, hafter, List.isEmpty_nil, if_true, onColl, List.map_eq_nil_iff,
    List.filter_eq_nil_iff]
  intro x hx
  by_cases hid : x.id = c.id
  · simp [hid]
  · simp [h x hx hid]

/-- The state in which a drop holds its whole collection. -/
def dropState (s : State) (c : Cmd) (k : Coll) : State :=
  withLock (updCmd s c.id fun x => { x with born := some k.born })
    { cmd := c.id, kv := false, obj := entColl c, lo := 0, hi := 0xFFFFFFFFFFFE, held := true }

/-- A drop that holds its collection at once, with no command on it, removes it under its audit record. -/
theorem actDrop_ok (hk : findColl s (entColl c) = some k) (hborn : c.born = none) (hafter : c.after = [])
    (hlocks : s.index.locks = []) (hqueue : s.index.lockQueue = []) (ha : auditOk s = true)
    (hcmds : ∀ x ∈ s.sched.cmds, x.id ≠ c.id → x.checked = false) :
    let c' := { c with born := some k.born }
    actDrop s c = sealed (removeColl (audit (dropState s c k) 0 0x41 [k.id, dKey k.desc]
      (c'.sq + entTag c' * 65536) (c'.entry ++ [])) k) c' 0 0 0 := by
  have hlock : LockAtOnce (updCmd s c.id fun x => { x with born := some k.born })
      { cmd := c.id, kv := false, obj := entColl c, lo := 0, hi := 0xFFFFFFFFFFFE, held := true } := by
    simp [LockAtOnce, lockOf, hlocks, hqueue]
  have hk' : findColl (dropState s c k) (entColl c) = some k := hk
  have hleft : dropWaits (dropState s c k) { c with born := some k.born } k.id = [] := by
    refine dropWaits_eq_nil hafter fun x hx hne => ?_
    obtain ⟨y, hy, rfl⟩ := List.mem_map.1 hx
    by_cases hid : y.id = c.id
    · exact absurd (by simp [hid]) hne
    · simpa [hid] using hcmds y hy hid
  have ha' : auditOk (dropState s c k) = true := ha
  intro c'
  simp only [actDrop, hk, hborn, Option.getD_none]
  rw [locked_once rfl hlock]
  have hent : entColl { c with born := some k.born } = entColl c := rfl
  unfold dropState at hk' hleft ha' ⊢
  simp only [hent, hk', hleft, bne_self_eq_false, Bool.false_eq_true, if_false, List.isEmpty_nil, if_true,
    audited_ok ha']
  rfl

/-- The removal of a collection takes it, its change-table entries and its patches. -/
theorem removeColl_spec (s : State) (k : Coll) :
    let t := removeColl s k
    findColl t k.id = none ∧ (∀ j, j ≠ k.id → findColl t j = findColl s j) ∧
      (∀ x, x ∈ t.index.changes ↔ x ∈ s.index.changes ∧ x.coll ≠ k.id) ∧
      (∀ x, x ∈ t.index.patches ↔ x ∈ s.index.patches ∧ x.coll ≠ k.id) ∧
      t.epochs = s.epochs ∧ t.kv = s.kv := by
  refine ⟨?_, fun j hj => ?_, fun x => ?_, fun x => ?_, rfl, rfl⟩
  · simp [findColl, removeColl, List.find?_eq_none]
  · simp only [findColl, removeColl, List.find?_filter]
    refine congrArg (List.find? · s.index.colls) (funext fun x => ?_)
    by_cases hx : x.id = j
    · simp [hx, hj]
    · simp [hx]
  · simp [removeColl, List.mem_filter]
  · simp [removeColl, List.mem_filter]

/-- Settles O9. -/
theorem collectionDropRemovesItsCollectionAlone :
    Obligations.CollectionDropRemovesItsCollectionAlone := by
  intro s q c k ht hp hk hborn hafter hlocks hqueue ha hcmds
  have hcmds' : ∀ x ∈ (begun s c []).sched.cmds, x.id ≠ (ran c).id → x.checked = false := fun x hx hne => by
    obtain ⟨y, hy, rfl⟩ := List.mem_map.1 hx
    by_cases hid : y.id = c.id
    · exact absurd (by simp [hid, ran]) hne
    · simpa [hid] using (hcmds y hy hid).2
  have hdrop := actDrop_ok (s := begun s c []) (c := ran c) (k := k) hk hborn hafter hlocks hqueue ha hcmds'
  obtain ⟨hgone, hothers, hchanges, hpatches, hepochs, hkv⟩ := removeColl_spec
    (audit (dropState (begun s c []) (ran c) k) 0 0x41 [k.id, dKey k.desc] _ _) k
  refine ⟨_, { ran c with born := some k.born }, rfl, rfl, rfl,
    congrArg Host.Outcome.next ((runCommand_passes ht hp).trans hdrop), hgone, hothers, hchanges, hpatches,
    hepochs, hkv⟩

end collections

/-! ### Sealing and visibility (R146, R147, R168 to R170) -/

/-- Settles O10. -/
theorem sealWaitsForNand : Obligations.SealWaitsForNand := by
  refine fun s c n a b => ⟨fun hseal => ?_, fun hseal hbelow => ?_, fun hseal hbelow => ?_⟩ <;>
    simp [sealed, *]

theorem upTo_false {x : Option Nat} {e : Nat} : upTo x e = false ↔ ∀ v, x = some v → e < v := by
  cases x <;> simp [upTo]

/-- Settles O13. -/
theorem visibilityFollowsTheChangeTable : Obligations.VisibilityFollowsTheChangeTable := by
  refine fun s c e slot => ⟨fun x hx => ⟨fun hins => ?_, fun r hr hle => ?_, fun hins hrep hdel => ?_,
    fun d hd hle hins hrep => ?_⟩, fun hx => ⟨fun h => ?_, fun h => ?_, ?_⟩⟩
  · simp [visible, hx, hins]
  · simp [visible, hx, hr, upTo, hle]
  · simp [visible, hx, Nat.not_lt.2 hins, upTo_false.2 hrep, upTo_false.2 hdel]
  · have hdel : upTo x.del e = true := by simp [upTo, hd, hle]
    simp [visible, hx, Nat.not_lt.2 hins, upTo_false.2 hrep, hdel]
  · simp [visible, hx, h]
  · simp [visible, hx, h]
  · rintro (h | h) <;> simp [visible, hx, h]

/-! ### EPOCH_PUBLISH (R140, R141, R143, R399) -/

/-- The boundaries that are due depend on the epochs and on the time alone. -/
theorem closeTimes_epochs (n : Nat) (hep : t.epochs = s.epochs) (htime : t.time = s.time) :
    closeTimes n t = { t with epochs := (closeTimes n s).epochs } := by
  induction n generalizing s t with
  | zero => rw [closeTimes, closeTimes, ← hep]
  | succ n ih =>
    have h : closeNext t = { t with epochs := (closeNext s).epochs } ∧ (closeNext s).time = s.time := by
      have hnow : now t = now s := by rw [now, now, htime]
      have hvalid : t.time.valid = s.time.valid := by rw [htime]
      simp only [closeNext, closeEpoch, hep, hvalid, hnow]
      split
      · exact ⟨by rw [← hep], rfl⟩
      · split
        · exact ⟨rfl, rfl⟩
        · exact ⟨by rw [← hep], rfl⟩
    rw [closeTimes, closeTimes, h.1]
    exact ih rfl (htime.trans h.2.symm)

theorem closeDue_epochs (hep : t.epochs = s.epochs) (htime : t.time = s.time) :
    closeDue t = { t with epochs := (closeDue s).epochs } := by
  have hnow : now t = now s := by rw [now, now, htime]
  unfold closeDue
  rw [hep, hnow]
  exact closeTimes_epochs _ hep htime

/-- The boundaries that close publish nothing and keep the floor. -/
theorem closeTimes_keeps (n : Nat) (s : State) : (closeTimes n s).epochs.published = s.epochs.published ∧
    (closeTimes n s).epochs.floor = s.epochs.floor := by
  induction n generalizing s with
  | zero => exact ⟨rfl, rfl⟩
  | succ n ih =>
    have h : (closeNext s).epochs.published = s.epochs.published ∧
        (closeNext s).epochs.floor = s.epochs.floor := by
      unfold closeNext
      split
      · exact ⟨rfl, rfl⟩
      · split <;> exact ⟨rfl, rfl⟩
    exact ⟨(ih _).1.trans h.1, (ih _).2.trans h.2⟩

section publish
variable {q : QueueId} {c : Cmd}

/-- A command that sets or cancels the schedule completes with the epoch published and the floor. -/
theorem epochDone_of_same {ep : Epochs} (hp : ep.published = t.epochs.published)
    (hf : ep.floor = t.epochs.floor) : epochDone { s with epochs := ep } c =
      succeed { s with epochs := ep } c 0 0 0 t.epochs.published t.epochs.floor := by
  rw [← hp, ← hf]
  rfl

theorem takeModes_eq (ep : Epochs) (d : List Byte) : takeModes ep d = { ep with
    manual := byteAt d 5 == 1, retain := if byteAt d 6 = 0 then 8 else byteAt d 6 } := by
  simp [takeModes]

theorem epPeriod_eq (d : List Byte) :
    epPeriod d = if getLE d 16 4 = 0 then 1000000 else getLE d 16 4 := by
  simp [epPeriod]

theorem audit_epochs (s : State) (o e : Nat) (l : List Nat) (x : Nat) (bs : List Byte) :
    (audit s o e l x bs).epochs = s.epochs := by
  rw [audit]

/-- The boundaries due at a record close behind it as they close before it. -/
theorem closeDue_audit (s : State) (o e : Nat) (l : List Nat) (x : Nat) (bs : List Byte) :
    closeDue (audit s o e l x bs) =
      (fun t : State => { t with epochs := (closeDue s).epochs }) (audit s o e l x bs) :=
  closeDue_epochs (audit_epochs _ _ _ _ _ _) (TimeKeeper.audit_time _ _ _ _ _ _)

/-- The modes and the schedule of an action 0, behind the boundaries that are due. -/
def scheduled (s : State) (d : List Byte) : Epochs :=
  { (closeDue s).epochs with
    manual := byteAt d 5 == 1
    retain := if byteAt d 6 = 0 then 8 else byteAt d 6
    opened := getLE d 24 8
    schedule := some {
      base := getLE d 8 8, n := 0, epoch := getLE d 24 8
      period := if getLE d 16 4 = 0 then 1000000 else getLE d 16 4 } }

/-- The modes of an action 0 that cancels the schedule. -/
def cancelled (s : State) (d : List Byte) : Epochs :=
  { (closeDue s).epochs with
    manual := byteAt d 5 == 1
    retain := if byteAt d 6 = 0 then 8 else byteAt d 6
    schedule := none }

theorem actSchedule_ok (ha : auditOk s = true) :
    let d := readBytes s.mem (entDesc c) 32
    let a := audit s 0 0x42 [0, getLE d 24 8] (c.sq + entTag c * 65536) (c.entry ++ d)
    actSchedule s c = succeed { a with epochs := scheduled s d } c 0 0 0
      s.epochs.published s.epochs.floor := by
  obtain ⟨hpub, hfloor⟩ : (closeDue s).epochs.published = s.epochs.published ∧
    (closeDue s).epochs.floor = s.epochs.floor := closeTimes_keeps _ s
  intro d a
  simp only [actSchedule, audited_ok ha, closeDue_audit, takeModes_eq, epPeriod_eq]
  exact epochDone_of_same (t := s) hpub hfloor

theorem actCancel_ok (ha : auditOk s = true) :
    let d := readBytes s.mem (entDesc c) 32
    let a := audit s 0 0x42 [0, getLE d 24 8] (c.sq + entTag c * 65536) (c.entry ++ d)
    actCancel s c = succeed { a with epochs := cancelled s d } c 0 0 0
      s.epochs.published s.epochs.floor := by
  obtain ⟨hpub, hfloor⟩ : (closeDue s).epochs.published = s.epochs.published ∧
    (closeDue s).epochs.floor = s.epochs.floor := closeTimes_keeps _ s
  intro d a
  simp only [actCancel, audited_ok ha, closeDue_audit, takeModes_eq]
  exact epochDone_of_same (t := s) hpub hfloor

/-- The floor set by an action 2: publications below it no longer count, and histograms below the release
epoch are dropped (R143, R148). -/
def floorSet (s : State) (f : Nat) : State :=
  let s0 := { s with
    epochs := { s.epochs with
      floor := f
      pubs := s.epochs.pubs.filter fun p => decide (f ≤ p) } }
  retire { s0 with
    index := { s0.index with
      colls := s0.index.colls.map fun k => { k with
        hists := k.hists.filter fun h => decide (release s0 ≤ h.epoch) } } }

theorem floorSet_epochs (s : State) (f : Nat) : (floorSet s f).epochs = { s.epochs with
    floor := f, pubs := s.epochs.pubs.filter fun p => decide (f ≤ p) } :=
  (indexWrites_retire _).epochs

theorem actSetFloor_ok (ha : auditOk s = true) :
    let f := getLE (readBytes s.mem (entDesc c) 32) 24 8
    ∃ p, actSetFloor s c = succeed p c 0 0 0 s.epochs.published f ∧ p.epochs = { s.epochs with
      floor := f, pubs := s.epochs.pubs.filter fun p => decide (f ≤ p) } := by
  intro f
  let a := audit s 0 0x42 [2, f] (c.sq + entTag c * 65536)
    (c.entry ++ readBytes s.mem (entDesc c) 32)
  have hact : actSetFloor s c = epochDone (floorSet a f) c :=
    audited_ok (act := fun s => epochDone (floorSet s f) c) ha
  have hep := floorSet_epochs a f
  rw [audit_epochs] at hep
  exact ⟨floorSet a f, by rw [hact, epochDone, hep], hep⟩

/-- Settles O11. -/
theorem epochPublishActions : Obligations.EpochPublishActions := by
  intro s q c d b a hp ha
  have hdue : (closeDue b).epochs = (closeDue s).epochs := by
    rw [closeDue_epochs (s := s) (t := b) rfl rfl]
  refine ⟨fun ht _ => ?_, fun ht => ?_, fun ht hsched => ?_, fun ht => ?_⟩
  · have h := actSchedule_ok (c := ran c) ha
    unfold scheduled at h
    rw [hdue] at h
    exact congrArg Host.Outcome.next ((runCommand_passes ht hp).trans h)
  · have h := actCancel_ok (c := ran c) ha
    unfold cancelled at h
    rw [hdue] at h
    exact congrArg Host.Outcome.next ((runCommand_passes ht hp).trans h)
  · refine congrArg Host.Outcome.next ((runCommand_passes ht hp).trans ?_)
    have hb : b.epochs.schedule.map (fun x => { x with n := x.n + 1 }) = s.epochs.schedule := by
      rw [show b.epochs.schedule = none from hsched, hsched]
      rfl
    change closeEpoch b (now b) (some c.id) = _
    rw [closeEpoch, hb]
    rfl
  · obtain ⟨p, hact, hep⟩ := actSetFloor_ok (c := ran c) ha
    refine ⟨p, congrArg Host.Outcome.next ((runCommand_passes ht hp).trans hact), ?_⟩
    rw [hep]
    refine ⟨rfl, rfl, rfl, fun e he => of_decide_eq_true (List.mem_filter.1 he).2⟩

end publish

/-! ### DELETE (R139, R161) -/

section delete
variable {q : QueueId} {c : Cmd} {k : Coll}

/-- The entry of a slot in the change table is made or changed. -/
theorem changeOf_setEpochs_same {coll slot vid : Nat} {f : Change → Change}
    (hf : ∀ x, (f x).coll = x.coll ∧ (f x).slot = x.slot) :
    ∃ x, changeOf (setEpochs s coll slot vid f) coll slot = some (f x) := by
  have hmap := find?_mapIf (p := fun x : Change => x.coll == coll && x.slot == slot) (f := f)
    (fun x hx => by simpa [hf x] using hx) s.index.changes
  cases h : changeOf s coll slot with
  | some x =>
    refine ⟨x, ?_⟩
    unfold changeOf at h
    simp [changeOf, setEpochs, h, hmap]
  | none =>
    refine ⟨{ coll := coll, slot := slot, vid := vid, ins := 0, del :=
      if ((findColl s coll).map (codeOf · slot)).getD 0 == 2 then some 0 else none }, ?_⟩
    unfold changeOf at h
    simp only [changeOf, setEpochs, h, Option.isSome_none, Bool.false_eq_true, if_false, List.find?_append,
      Option.none_or]
    simp only [List.find?_cons, hf, beq_self_eq_true, Bool.and_self]

/-- The entries of other slots stay as they are. -/
theorem changeOf_setEpochs_other {coll slot slot' vid : Nat} {f : Change → Change}
    (hf : ∀ x, (f x).coll = x.coll ∧ (f x).slot = x.slot) (hne : slot' ≠ slot) :
    changeOf (setEpochs s coll slot vid f) coll slot' = changeOf s coll slot' := by
  have hne' : (slot == slot') = false := beq_false_of_ne hne.symm
  unfold changeOf setEpochs
  dsimp only
  split
  · refine find?_mapIf_other (fun x hx => ?_) _
    have hx' : x.slot = slot := by simp at hx; exact hx.2
    simp [hf x, hx', hne']
  · rw [List.find?_append]
    simp [hf, hne']

/-- The entries of an ID map that are rewritten are bytes at names. -/
theorem index_writeIdMap (s : State) (o : Option Owner) (d : List Byte) (old new : List (Nat × Nat × Nat)) :
    IndexWrites s (writeIdMap s o d old new) ∧ (writeIdMap s o d old new).index = s.index := by
  unfold writeIdMap
  generalize idChanged old new = l
  induction l generalizing s with
  | nil => exact ⟨.refl s, rfl⟩
  | cons i l ih =>
    obtain ⟨hw, hi⟩ := ih (deviceWrite s o (dIdMap d + 16 * i) (idEntryBytes (idAt new i)))
    exact ⟨(indexWrites_deviceWrite _ _ _).trans hw, hi.trans (by rw [written_deviceWrite])⟩

/-- The deletion of a LIVE ID: the epoch of its slot, and its ID map. -/
theorem deleteId_spec {e cmd v o : Nat} (hk : findColl s k.id = some k) (ho : idLookup k v = some o) :
    let t := deleteId e cmd k.id s v
    (∃ x, changeOf t k.id o = some x ∧ x.del = some e) ∧
    (∀ o', o' ≠ o → changeOf t k.id o' = changeOf s k.id o') ∧
    findColl t k.id = some { k with idMap := idRemove (dIdEntries k.desc) k.idMap v } ∧
    t.index.patches = s.index.patches ∧ IndexWrites s t := by
  let s1 := setEpochs (updColl s k.id fun k' => { k' with
    idMap := idRemove (dIdEntries k.desc) k.idMap v }) k.id o v fun x => { x with del := some e }
  have ht : deleteId e cmd k.id s v = writeIdMap s1 (some (.cmd cmd)) k.desc k.idMap
      (idRemove (dIdEntries k.desc) k.idMap v) := by
    simp only [deleteId, hk, ho]
    rfl
  obtain ⟨hw, hi⟩ := index_writeIdMap s1 (some (.cmd cmd)) k.desc k.idMap
    (idRemove (dIdEntries k.desc) k.idMap v)
  rw [← ht] at hw hi
  have hchange : ∀ o', changeOf (deleteId e cmd k.id s v) k.id o' = changeOf s1 k.id o' := fun o' => by
    rw [changeOf, changeOf, hi]
  have hcoll : findColl (deleteId e cmd k.id s v) k.id = findColl s1 k.id := by
    rw [findColl, findColl, hi]
  refine ⟨?_, fun o' hne => ?_, ?_, ?_, ?_⟩
  · obtain ⟨x, hx⟩ := changeOf_setEpochs_same (s := updColl s k.id fun k' => { k' with
      idMap := idRemove (dIdEntries k.desc) k.idMap v }) (coll := k.id) (slot := o) (vid := v)
      (f := fun x => { x with del := some e }) fun _ => ⟨rfl, rfl⟩
    exact ⟨_, (hchange o).trans hx, rfl⟩
  · exact (hchange o').trans (changeOf_setEpochs_other (fun _ => ⟨rfl, rfl⟩) hne)
  · exact hcoll.trans (findColl_updColl hk fun _ => rfl)
  · rw [hi]
    rfl
  · have h1 : IndexWrites s s1 := ⟨rfl, rfl, rfl, rfl⟩
    exact h1.trans hw

theorem deleteId_of_not_live {e cmd v : Nat} (hk : findColl s k.id = some k) (hv : idLookup k v = none) :
    deleteId e cmd k.id s v = s := by
  simp only [deleteId, hk, hv]

/-- A DELETE that holds its range, finds room and reaches its ID-map entries commits. -/
theorem delRun_ok {ids : List Nat} :
    let h := closeDue (retire s)
    let live := ids.filterMap (idLookup k)
    let reads := idReadRanges h.mem k.desc k.idMap.length ids
    changeRoom h (live.filter fun x => (changeOf h k.id x).isNone) = true →
    reachRanges h c.loaded (reads ++ idWriteRanges k.desc k.idMap
      (ids.foldl (fun m v => idRemove (dIdEntries k.desc) m v) k.idMap)) = none →
    (∀ r ∈ reads, bulkHomed h r = false) →
    delRun s c k ids = sealed (ids.foldl (deleteId h.epochs.opened c.id k.id) h) c live.length
      h.epochs.opened (ids.length - live.length) := by
  intro h live reads hroom hreach hbulk
  have hroom' : (!changeRoom h (live.filter fun x => (changeOf h k.id x).isNone)) = false := by simp [hroom]
  unfold delRun
  dsimp only
  rw [hroom', touching_clear hreach, readPages_of_none_bulk hbulk]
  simp only [Bool.false_eq_true, if_false]
  rfl

/-- Settles O19. -/
theorem deleteCommitsAtTheOpenEpoch : Obligations.DeleteCommitsAtTheOpenEpoch := by
  constructor
  · intro s q c k b ids live h reads ht hp hborn hid hk hlock hroom hreach hbulk
    have hids : onIds b (ran c) ids (fun s c k => delRun s c k ids) = _ :=
      onIds_once (s := b) (c := ran c) (k := k) hborn hid hk hlock
    refine congrArg Host.Outcome.next ((runCommand_passes ht hp).trans (hids.trans ?_))
    exact delRun_ok hroom hreach hbulk
  · intro s e cmd v k hk t
    cases hv : idLookup k v with
    | none =>
      have hdel : t = s := deleteId_of_not_live hk hv
      refine ⟨fun _ => hdel, fun o ho => (nomatch ho), ?_⟩
      rw [hdel]
      exact ⟨rfl, rfl, rfl, rfl⟩
    | some o =>
      obtain ⟨hdel, hothers, hcoll, hpatches, hw⟩ := deleteId_spec (e := e) (cmd := cmd) hk hv
      refine ⟨nofun, fun o' ho' => ?_, hpatches, hw.epochs, hw.kv, hw.sched⟩
      cases ho'
      exact ⟨hdel, hothers, _, hcoll, rfl, rfl, rfl⟩

end delete

end Sys2Proof.Index
end

section
/-!
PROOF. Patches, views and the folds that keep them (R157 to R159).
-/

open Sys2Proof Sys2Proof.Machine Sys2Proof.Steps Sys2Proof.Lists Sys2Proof.Index

namespace Sys2Proof.Folding

variable {s t : State} {c k : Coll} {b : Block}

/-! ### The tags of a block -/

/-- Repeats dropped from an ascending list: what is left ascends strictly, and holds the same numbers. -/
theorem dropRepeats_spec (ts l : List Nat) (hl : l.Pairwise (· < ·)) (hts : ts.Pairwise (· ≤ ·))
    (hlt : ∀ x ∈ l, ∀ y ∈ ts, x ≤ y) :
    let r := ts.foldl (fun l t => if l.getLast? == some t then l else l ++ [t]) l
    r.Pairwise (· < ·) ∧ ∀ x, x ∈ r ↔ x ∈ l ∨ x ∈ ts := by
  induction ts generalizing l with
  | nil => exact ⟨hl, fun x => by simp⟩
  | cons y ts ih =>
    obtain ⟨hy, hts'⟩ := List.pairwise_cons.1 hts
    simp only [List.foldl_cons]
    split
    · next hlast =>
      have hmem : y ∈ l := List.mem_of_getLast? (by simpa using hlast)
      obtain ⟨hpair, hin⟩ := ih l hl hts' fun x hx z hz => hlt x hx z (by simp [hz])
      refine ⟨hpair, fun x => ?_⟩
      rw [hin, List.mem_cons]
      constructor
      · rintro (h | h) <;> simp [h]
      · rintro (h | rfl | h) <;> simp [*]
    · next hlast =>
      have hlt' : ∀ x ∈ l, x < y := by
        intro x hx
        refine lt_of_le_of_ne (hlt x hx y (by simp)) ?_
        rintro rfl
        obtain ⟨m, z, rfl⟩ := (List.eq_nil_or_concat' l).resolve_left (List.ne_nil_of_mem hx)
        have hxz : x ≠ z := by
          rintro rfl
          simp at hlast
        have hxm : x ∈ m := by simpa [hxz] using hx
        have hle : z ≤ x := hlt z (by simp) x (by simp)
        exact absurd ((List.pairwise_append.1 hl).2.2 x hxm z (by simp)) (Nat.not_lt.2 hle)
      obtain ⟨hpair, hin⟩ := ih (l ++ [y]) (by
        rw [List.pairwise_append]
        exact ⟨hl, by simp, by simpa using hlt'⟩) hts' fun x hx z hz => by
          rcases List.mem_append.1 hx with h | h
          · exact hlt x h z (by simp [hz])
          · rw [List.mem_singleton.1 h]
            exact hy z hz
      refine ⟨hpair, fun x => ?_⟩
      rw [hin]
      simp [or_assoc]

/-- The tags of a block between two epochs ascend strictly, and are those of its patches. -/
theorem tagsOf_spec (s : State) (coll slot lo hi : Nat) :
    (tagsOf s coll slot lo hi).Pairwise (· < ·) ∧ ∀ x, x ∈ tagsOf s coll slot lo hi ↔
      ∃ p ∈ s.index.patches, p.coll = coll ∧ p.target = slot ∧ p.tag = x ∧ lo < x ∧ x ≤ hi := by
  obtain ⟨hpair, hin⟩ := dropRepeats_spec (sortBy (fun a b => decide (a < b))
    ((s.index.patches.filter fun p => p.coll == coll && p.target == slot && decide (lo < p.tag) &&
      decide (p.tag ≤ hi)).map (·.tag))) [] .nil
    (Selection.sortBy_ordered (key := id) (by simp) _) (by simp)
  refine ⟨hpair, fun x => (hin x).trans ?_⟩
  rw [(Selection.sortBy_perm _).mem_iff]
  simp only [List.not_mem_nil, false_or, List.mem_map, List.mem_filter, Bool.and_eq_true, beq_iff_eq,
    decide_eq_true_eq]
  constructor
  · rintro ⟨p, ⟨hp, ⟨⟨hc, ht⟩, hlo⟩, hhi⟩, rfl⟩
    exact ⟨p, hp, hc, ht, rfl, hlo, hhi⟩
  · rintro ⟨p, hp, hc, ht, rfl, hlo, hhi⟩
    exact ⟨p, ⟨hp, ⟨⟨hc, ht⟩, hlo⟩, hhi⟩, rfl⟩

/-- Between two epochs come the tags up to any epoch between them, then the others. -/
theorem tagsOf_split {coll slot lo mid hi : Nat} (h1 : lo ≤ mid) (h2 : mid ≤ hi) :
    tagsOf s coll slot lo hi = tagsOf s coll slot lo mid ++ tagsOf s coll slot mid hi := by
  obtain ⟨hp, hin⟩ := tagsOf_spec s coll slot lo hi
  obtain ⟨hp1, hin1⟩ := tagsOf_spec s coll slot lo mid
  obtain ⟨hp2, hin2⟩ := tagsOf_spec s coll slot mid hi
  refine hp.eq_of_mem_iff (List.pairwise_append.2 ⟨hp1, hp2, fun x hx y hy => ?_⟩) fun x => ?_
  · obtain ⟨-, -, -, -, -, -, hx⟩ := (hin1 x).1 hx
    obtain ⟨-, -, -, -, -, hy, -⟩ := (hin2 y).1 hy
    omega
  · rw [List.mem_append, hin, hin1, hin2]
    constructor
    · rintro ⟨p, hp, hc, ht, hx, hlo, hhi⟩
      by_cases hm : x ≤ mid
      · exact .inl ⟨p, hp, hc, ht, hx, hlo, hm⟩
      · exact .inr ⟨p, hp, hc, ht, hx, by omega, hhi⟩
    · rintro (⟨p, hp, hc, ht, hx, hlo, hhi⟩ | ⟨p, hp, hc, ht, hx, hlo, hhi⟩)
      · exact ⟨p, hp, hc, ht, hx, hlo, by omega⟩
      · exact ⟨p, hp, hc, ht, hx, by omega, hhi⟩

theorem tagsOf_eq_nil {coll slot lo hi : Nat} (h : hi ≤ lo) : tagsOf s coll slot lo hi = [] := by
  refine List.eq_nil_iff_forall_not_mem.2 fun x hx => ?_
  obtain ⟨-, -, -, -, -, hlo, hhi⟩ := ((tagsOf_spec s coll slot lo hi).2 x).1 hx
  omega

/-! ### Folded blocks keep their view -/

/-- The patch log with the older patches of one block taken out (R159). -/
def foldedPatches (ps : List Patch) (coll slot e : Nat) : List Patch :=
  ps.filter fun p => !(p.coll == coll && p.target == slot && decide (p.tag ≤ e))

theorem patchesAt_folded {coll slot e x : Nat} (ht : t.index.patches = foldedPatches s.index.patches coll slot e)
    (hx : e < x) : patchesAt t coll slot x = patchesAt s coll slot x := by
  rw [patchesAt, patchesAt, ht, foldedPatches, List.filter_filter]
  refine List.filter_congr fun p _ => ?_
  by_cases hp : p.tag = x
  · have : ¬ p.tag ≤ e := by omega
    simp [this]
  · simp [hp]

theorem tagsOf_folded {coll slot e lo hi : Nat}
    (ht : t.index.patches = foldedPatches s.index.patches coll slot e) (hlo : e ≤ lo) :
    tagsOf t coll slot lo hi = tagsOf s coll slot lo hi := by
  have h : (t.index.patches.filter fun p => p.coll == coll && p.target == slot && decide (lo < p.tag) &&
      decide (p.tag ≤ hi)) = s.index.patches.filter fun p => p.coll == coll && p.target == slot &&
      decide (lo < p.tag) && decide (p.tag ≤ hi) := by
    rw [ht, foldedPatches, List.filter_filter]
    refine List.filter_congr fun p _ => ?_
    by_cases hp : lo < p.tag
    · have : ¬ p.tag ≤ e := by omega
      simp [this]
    · simp [hp]
  rw [tagsOf, tagsOf, h]

/-- A block stored as its view at an epoch, with the patches up to it taken out of the log, has the view
that it had at every epoch from that one on. -/
theorem viewAt_folded {x : Block} {e e' : Nat} (hid : k.id = c.id) (hdesc : k.desc = c.desc)
    (hslot : x.slot = b.slot) (hfold : x.fold = max b.fold e) (hentries : x.entries = viewAt s c b e)
    (ht : t.index.patches = foldedPatches s.index.patches c.id b.slot e) (he : e ≤ e') :
    viewAt t k x e' = viewAt s c b e' := by
  have hpatches : ∀ es, (tagsOf s c.id b.slot (max b.fold e) e').foldl
      (fun es y => applyTag c.desc es (patchesAt t c.id b.slot y)) es =
      (tagsOf s c.id b.slot (max b.fold e) e').foldl
      (fun es y => applyTag c.desc es (patchesAt s c.id b.slot y)) es := fun es => by
    refine List.foldl_ext _ _ _ fun es y hy => ?_
    obtain ⟨-, -, -, -, -, hlo, -⟩ := ((tagsOf_spec _ _ _ _ _).2 y).1 hy
    rw [patchesAt_folded ht (by omega)]
  have hnew : viewAt t k x e' = (tagsOf s c.id b.slot (max b.fold e) e').foldl
      (fun es y => applyTag c.desc es (patchesAt s c.id b.slot y)) (viewAt s c b e) := by
    rw [viewAt, hid, hdesc, hslot, hfold, hentries, tagsOf_folded ht (le_max_right _ _), hpatches]
  rw [hnew, viewAt, viewAt, ← List.foldl_append]
  refine congrArg (List.foldl _ b.entries) ?_
  rcases Nat.le_total b.fold e with h | h
  · rw [max_eq_right h, ← tagsOf_split h he]
  · rw [max_eq_left h, tagsOf_eq_nil h, List.nil_append]

/-- A block as a fold up to `e` stores it. -/
def foldedBlock (s : State) (c : Coll) (b : Block) (e : Nat) : Block :=
  { b with entries := viewAt s c b e, fold := max b.fold e }

/-- A collection with a block stored. -/
def withBlock (x : Block) (c : Coll) : Coll :=
  { c with blocks := c.blocks.filter (·.slot != x.slot) ++ [x] }

/-- Beside the block and its patches, a fold queues a program. -/
theorem foldBlock_index {e : Nat} (hc : findColl s c.id = some c) :
    (foldBlock s c b e).index = { s.index with
      colls := mapIf (·.id == c.id) (withBlock (foldedBlock s c b e)) s.index.colls
      patches := foldedPatches s.index.patches c.id b.slot e } := by
  unfold foldBlock putBlock writeBlock
  rw [hc]
  dsimp only [addProgram]
  rw [written_deviceWrite]
  rfl

/-- A sound block with eight patches or more that is first in its Brick is folded. -/
theorem exec_patchFold {brick : BitVec 6} {n : Nat} {l : List (Coll × Block × Nat)}
    (hchoice : foldChoice (retire s) brick.toNat = (c, b, n) :: l) (hn : 8 ≤ n)
    (hcorrupt : b.corrupt = false) (hlost : b.lost = false) :
    exec (.patchFold brick) s = .next (foldBlock (retire s) c b (release (retire s))) := by
  have h : exec (.patchFold brick) s = .next (foldDue (retire s) brick.toNat) := rfl
  rw [h, foldDue, hchoice]
  simp [hn, tryFold, hcorrupt, hlost]

/-- Settles O12, as the tags of a block up to any epoch split at the release epoch. -/
theorem foldKeepsTheView : Obligations.FoldKeepsTheView := by
  intro s brick c b n l r hchoice hc hn hcorrupt hlost
  have hindex := foldBlock_index (b := b) (e := release r) hc
  have hk : findColl (foldBlock r c b (release r)) c.id =
      some (withBlock (foldedBlock r c b (release r)) c) := by
    unfold findColl
    rw [hindex]
    exact findColl_updColl hc fun _ => rfl
  refine ⟨_, _, foldedBlock r c b (release r), exec_patchFold hchoice hn hcorrupt hlost, hk,
    by simp [withBlock], rfl, rfl, rfl, fun p => ?_, fun e he => ?_⟩
  · rw [hindex]
    simp [foldedPatches, List.mem_filter, imp_iff_not_or, or_assoc]
  · exact viewAt_folded rfl rfl rfl rfl rfl (by rw [hindex]) he

end Sys2Proof.Folding
end

section
/-!
PROOF. Evictions and swaps of key-value pages (R261 to R267).
-/

open Sys2Proof Sys2Proof.Machine Sys2Proof.Steps Sys2Proof.Lists Sys2Proof.Index

namespace Sys2Proof.Evictions

variable {s t : State} {q : QueueId} {c : Cmd} {x y : KvSeq} {d : List Byte} {ps : List KvPage}

/-! ### A command of R261 takes its sequence -/

/-- A command that waits for no KV_ATTEND and takes its whole sequence at once acts on it. -/
theorem evicting_once {act : State → Cmd → KvSeq → List Byte → State} (hborn : c.born = none)
    (hid : x.id = kvSeqId (kvBlock s c 32)) (hx : findSeq s x.id = some x)
    (hatt : attendsOn (begun s c []) x.id = [])
    (hlock : LockAtOnce (begun s c []) (pageLock c x.id 0 allPages)) :
    evicting (begun s c []) (ran c) act = act (evictState s c x.id) (ranNoted c) x (kvBlock s c 32) := by
  have hblock : kvBlock (begun s c []) (ran c) 32 = kvBlock s c 32 := rfl
  have hborn' : (ran c).born.isSome = false := by rw [show (ran c).born = none from hborn]; rfl
  have hnote : noteAfter (begun s c []) (ran c) [] [] = (updCmd (begun s c []) c.id fun x => { x with
      born := some 0, after := [], lens := [] }, ranNoted c) := by
    simp only [noteAfter, hborn', Bool.false_eq_true, if_false]
    rfl
  have hx' : findSeq (evictState s c x.id) x.id = some x := hx
  simp only [evicting, hblock, ← hid, hatt, hnote, onPages]
  rw [locked_once (by rfl) (by exact hlock)]
  have hto : (withLock (updCmd (begun s c []) c.id fun x => { x with
      born := some 0, after := [], lens := [] })
      { cmd := (ranNoted c).id, kv := true, obj := x.id, lo := 0, hi := allPages, held := true }) =
      evictState s c x.id := rfl
  have hafter : (ranNoted c).after = [] := rfl
  simp only [hto, hafter, List.filter_nil, afterLeft, List.any_nil, Bool.false_eq_true, if_false, hx']

theorem exec_evicts {mine : Cmd → Bool} {act : State → Cmd → KvSeq → List Byte → State}
    (h : Evicts s q mine c x) :
    runCommand s q.toNat mine evictPre evictRange evictErr noSlots (fun s c => evicting s c act) =
      act (evictState s c x.id) (ranNoted c) x (kvBlock s c 32) := by
  obtain ⟨ht, hp, hborn, hid, hx, hatt, hlock⟩ := h
  exact (runCommand_passes ht hp).trans (evicting_once hborn hid hx hatt hlock)

/-- The frames of some pages. -/
def frames (d : List Byte) (ps : List KvPage) : List Range :=
  ps.map fun p => { addr := p.loc, len := kvFrame d, kind := 2 }

/-- Pages for which Bulk has room move there, and the command completes once they are in NAND. -/
theorem moveToBulk_ok {more : Nat} {done : State → State} (hw : s.lintel.withheld = false)
    (hroom : bulkInUse s + bulkPages x.desc ps.length + more ≤ bulkShare s)
    (hreach : reachRanges s c.loaded (frames x.desc ps) = none) :
    let t := done (ps.foldl (toBulk (some (.cmd c.id)) c.id x.id x.desc) s)
    moveToBulk s c x ps more done =
      if movesOut t c.id then setPhase t c.id (.writing (completionOf c 0 0 ps.length 0 0))
      else succeed t c 0 0 ps.length 0 0 := by
  simp only [moveToBulk, hw, Bool.false_eq_true, if_false, Nat.not_lt.2 hroom]
  exact touching_clear hreach

/-! ### Pages that move -/

/-- An entry of the page table that is written is bytes at names. -/
theorem kv_writeEntry (s : State) (o : Option Owner) (x : KvSeq) (p : KvPage) :
    (writeEntry s o x p).kv = s.kv :=
  (indexWrites_deviceWrite _ _ _).kv

theorem findSeq_of_kv (h : t.kv = s.kv) (id : Nat) : findSeq t id = findSeq s id := by
  rw [findSeq, findSeq, h]

/-- A sequence with a page replaced. -/
def withPage (p : KvPage) (x : KvSeq) : KvSeq :=
  { x with pages := x.pages.filter (fun z => !(z.head == p.head && z.page == p.page)) ++ [p] }

theorem findPage_withPage_same (p : KvPage) (x : KvSeq) :
    findPage (withPage p x) p.head p.page = some p := by
  have h : (x.pages.filter fun z => !(z.head == p.head && z.page == p.page)).find?
      (fun z => z.head == p.head && z.page == p.page) = none := by
    refine List.find?_eq_none.2 fun z hz => ?_
    simpa [imp_iff_not_or] using (List.mem_filter.1 hz).2
  rw [findPage, withPage, List.find?_append, h]
  simp

theorem findPage_withPage_other (p : KvPage) (x : KvSeq) {i j : Nat} (h : ¬(i = p.head ∧ j = p.page)) :
    findPage (withPage p x) i j = findPage x i j := by
  have hp : (p.head == i && p.page == j) = false := by
    rw [Bool.and_eq_false_iff, beq_eq_false_iff_ne, beq_eq_false_iff_ne]
    exact (not_and_or.1 h).imp Ne.symm Ne.symm
  simp only [findPage, withPage, List.find?_append, List.find?_filter, List.find?_cons, hp, List.find?_nil,
    Option.or_none]
  refine congrArg (List.find? · x.pages) (funext fun z => ?_)
  by_cases hz : (z.head == i && z.page == j) = true
  · have hne : (z.head == p.head && z.page == p.page) = false := by
      simp only [Bool.and_eq_true, beq_iff_eq] at hz
      rw [hz.1, hz.2, Bool.eq_false_iff]
      simpa [and_comm] using h
    simp [hz, hne]
  · simp [Bool.eq_false_iff.2 hz]

/-- What is said of a page that moves: its state is the new one, its sequence keeps its length and its
other pages, and the other sequences are as they were. -/
def PageMoved (s u : State) (x : KvSeq) (p : KvPage) (n : Nat) : Prop :=
  (∀ z, z ≠ x.id → findSeq u z = findSeq s z) ∧
  ∃ x', findSeq u x.id = some x' ∧ pageSt x' p.head p.page = n ∧ x'.len = x.len ∧
    (∀ i j, ¬(i = p.head ∧ j = p.page) → findPage x' i j = findPage x i j)

/-- A page that is put in its sequence is there in its new state. -/
theorem pageMoved_putPage {o : Option Owner} {p p' : KvPage} {u : State} (hx : findSeq s x.id = some x)
    (ht : t.kv = s.kv) (hu : u.kv = (putPage t o x.id p').kv) (hhead : p'.head = p.head)
    (hpage : p'.page = p.page) : PageMoved s u x p p'.st := by
  have hput : u.kv = (updSeq t x.id (withPage p')).kv := by
    rw [hu, putPage, findSeq_of_kv ht, hx]
    exact kv_writeEntry _ _ _ _
  refine ⟨fun z hz => ?_, withPage p' x, ?_, ?_, rfl, fun i j h => ?_⟩
  · rw [← findSeq_of_kv ht, findSeq_of_kv hput]
    refine find?_mapIf_other (fun w hw => ?_) _
    have hw' : w.id = x.id := by simpa using hw
    simp [withPage, hw', Ne.symm hz]
  · rw [findSeq_of_kv hput]
    have h' := find?_mapIf (p := (·.id == x.id)) (f := withPage p') (by simp [withPage]) t.kv.seqs
    rw [← findSeq_of_kv ht] at hx
    unfold findSeq at hx
    rw [hx] at h'
    exact h'
  · rw [← hhead, ← hpage, pageSt, findPage_withPage_same]
    rfl
  · rw [← hhead, ← hpage] at h
    exact findPage_withPage_other p' x h

theorem toBulk_kv (o : Option Owner) (cmd id : Nat) (d : List Byte) (p : KvPage) :
    (toBulk o cmd id d s p).kv = (putPage { s with drawn := s.drawn + 1 } o id
      { p with st := 2, loc := Config.bulkLocation s.drawn, bulk := pageBytes s d p }).kv := by
  unfold toBulk
  dsimp only
  generalize bulkParts d _ = l
  generalize putPage _ _ _ _ = u
  induction l generalizing u with
  | nil => rfl
  | cons r l ih => exact ih _

theorem swapInPage_kv {o : Option Owner} {id : Nat} {p : KvPage} {u : State}
    (h : swapInPage s o id p = some u) : ∃ a bs b, u = putPage (deviceWrite s o a bs) o id
      { p with st := 1, loc := a, bulk := b } := by
  unfold swapInPage at h
  split at h
  · cases h
  · obtain ⟨a, -, rfl⟩ := Option.map_eq_some_iff.1 h
    exact ⟨_, _, _, rfl⟩

/-! ### What each command of R261 does with its pages -/

/-- The pages that KV_EVICT takes (R263). -/
def evicted (x : KvSeq) (d : List Byte) : List KvPage :=
  (if getLE d 8 2 = 0xFFFF then List.range (kvHeads x.desc) else [getLE d 8 2]).flatMap
    (evictHead x (getLE d 12 4))

theorem evictRun_drop (hb : bit (byteAt x.desc 14) 0 = false) : evictRun s c x d =
    succeed ((evicted x d).foldl (dropPage (some (.cmd c.id)) x.id) s) c 0 0 (evicted x d).length 0 0 := by
  simp [evictRun, hb, evicted]

theorem evictRun_bulk (hb : bit (byteAt x.desc 14) 0 = true) :
    evictRun s c x d = moveToBulk s c x (evicted x d) 0 id := by
  simp [evictRun, hb, evicted]

theorem evictAllRun_ok (h : ∀ p ∈ x.pages, p.st ≠ 3) : evictAllRun s c x d =
    moveToBulk s c x (sortBy byHeadPage (x.pages.filter (·.st == 1)))
      (roundUp (72 + (x.units.map (·.2)).sum) 16384) fun s => makeDurable s x.id := by
  have h3 : x.pages.any (·.st == 3) = false := by simpa using h
  simp [evictAllRun, h3]

theorem swapOutRun_ok (hneed : (sortBy byHeadPage (x.pages.filter (·.st == 1))).length * kvFrame x.desc ≤
      getLE d 24 8)
    (hreach : reachRanges s c.loaded (frames x.desc (sortBy byHeadPage (x.pages.filter (·.st == 1))) ++
      [{ addr := getLE d 16 8, kind := 2, write := true,
         len := (sortBy byHeadPage (x.pages.filter (·.st == 1))).length * kvFrame x.desc }]) = none) :
    let ps := sortBy byHeadPage (x.pages.filter (·.st == 1))
    swapOutRun s c x d = succeed (ps.zipIdx.foldl (swapOutPage (some (.cmd c.id)) x.id (getLE d 16 8) x.desc)
      s) c 0 0 ps.length (ps.length * kvFrame x.desc) 0 := by
  simp only [swapOutRun, Nat.not_lt.2 hneed, if_false]
  exact touching_clear hreach

/-- Bulk pages that have been loaded are at hand. -/
theorem readBulk_loaded {act : State → State}
    (h : ∀ r ∈ ps.flatMap (bulkParts d), c.loaded.contains (bulkKey r) = true) :
    readBulk s c d ps act = act s := by
  have hleft : ((ps.flatMap (bulkParts d)).filter fun r => !c.loaded.contains (bulkKey r)) = [] :=
    List.filter_eq_nil_iff.2 fun r hr => by simp only [h r hr, Bool.not_true, Bool.false_eq_true,
      not_false_eq_true]
  simp only [readBulk, hleft, List.isEmpty_nil, if_true]

/-- The pages that KV_SWAP_IN brings back (R265, R267). -/
def swappedIn (x : KvSeq) (d : List Byte) : List KvPage :=
  sortBy byHeadPage (x.pages.filter fun p => p.st == 3 || (bit (byteAt d 10) 0 && p.st == 2))

theorem swapInRun_ok (hw : s.lintel.withheld = false)
    (hreach : reachRanges s c.loaded (frames x.desc ((swappedIn x d).filter (·.st == 3))) = none)
    (hloaded : ∀ r ∈ ((swappedIn x d).filter (·.st == 2)).flatMap (bulkParts x.desc),
      c.loaded.contains (bulkKey r) = true)
    (hswap : swapInPages (some (.cmd c.id)) x.id s (swappedIn x d) = some t) :
    swapInRun s c x d = succeed (updSeq t x.id fun y => { y with
      image := if bit (byteAt d 10) 0 then none else y.image }) c 0 0 (swappedIn x d).length 0 0 := by
  unfold swapInRun
  dsimp only
  rw [hw, Bool.false_and, if_neg Bool.false_ne_true]
  refine (touching_clear hreach).trans ((readBulk_loaded hloaded).trans ?_)
  have hswap' : swapInPages (some (.cmd c.id)) x.id s (sortBy byHeadPage
    (x.pages.filter fun p => p.st == 3 || (bit (byteAt d 10) 0 && p.st == 2))) = some t := hswap
  rw [hswap']
  rfl

/-- Settles O26. -/
theorem evictionsMoveTheirPages : Obligations.EvictionsMoveTheirPages := by
  intro s q c x d h here frames' o bulkDone hw
  have hw' : h.lintel.withheld = false := hw
  refine ⟨?_, ?_, ?_, ?_, ?_⟩
  · intro he heads ps
    have hrun := exec_evicts (act := evictRun) he
    refine ⟨fun hdrop => congrArg Host.Outcome.next (hrun.trans (evictRun_drop hdrop)),
      fun hbulk hroom hreach => congrArg Host.Outcome.next (hrun.trans ((evictRun_bulk hbulk).trans ?_))⟩
    exact moveToBulk_ok (done := id) hw' (by rw [Nat.add_zero]; exact hroom) hreach
  · intro he hgone ps hroom hreach
    refine congrArg Host.Outcome.next ((exec_evicts (act := evictAllRun) he).trans
      ((evictAllRun_ok hgone).trans ?_))
    exact moveToBulk_ok (done := fun s => makeDurable s x.id) hw' hroom hreach
  · intro he ps need hneed hreach
    exact congrArg Host.Outcome.next ((exec_evicts (act := swapOutRun) he).trans
      (swapOutRun_ok hneed hreach))
  · intro s1 he bulk ps hreach hloaded hswap
    exact congrArg Host.Outcome.next ((exec_evicts (act := swapInRun) he).trans
      (swapInRun_ok hw' hreach hloaded hswap))
  · intro o t y p n a cmd u hy hu
    rcases hu with ⟨rfl, rfl⟩ | ⟨rfl, rfl⟩ | ⟨rfl, rfl⟩ | ⟨hu, rfl⟩
    · exact pageMoved_putPage (t := { t with drawn := t.drawn + 1 }) hy rfl (toBulk_kv _ _ _ _ _) rfl rfl
    · exact pageMoved_putPage hy rfl rfl rfl rfl
    · exact pageMoved_putPage hy ((indexWrites_deviceWrite _ _ _).kv) rfl rfl rfl
    · obtain ⟨b, bs, bulk, rfl⟩ := swapInPage_kv hu
      exact pageMoved_putPage hy ((indexWrites_deviceWrite _ _ _).kv) rfl rfl rfl

end Sys2Proof.Evictions
end

section
/-!
PROOF. Homes of units, and what MIGRATE does to the units it names (R271 to R305).
-/

open Sys2Proof Sys2Proof.Machine Sys2Proof.Steps Sys2Proof.Lists Sys2Proof.Index

namespace Sys2Proof.Tiers

variable {s t : State} {q : QueueId} {c : Cmd} {m : Mem}

/-! ### Memory outside a unit that is made free or dropped -/

theorem getCell_filter {a : Nat} {p : Host.Cell → Bool} {l : List Host.Cell} (hr : cellsRise l = true)
    (hp : ∀ c ∈ l, c.1 = a → p c = true) : getCell a (l.filter p) = getCell a l := by
  induction l with
  | nil => rfl
  | cons c l ih =>
    obtain ⟨habove, hrise⟩ := (cellsRise_cons ..).1 hr
    have htail := ih hrise fun c hc => hp c (by simp [hc])
    obtain ⟨x, v⟩ := c
    by_cases hx : a = x
    · have hpx : p (x, v) = true := hp _ (by simp) hx.symm
      simp [hpx, getCell, hx]
    · cases hpx : p (x, v) with
      | true => simp [hpx, getCell, hx, htail]
      | false =>
        rw [List.filter_cons_of_neg (by simp [hpx]), htail]
        simp only [getCell, beq_eq_false_iff_ne.2 hx, Bool.false_eq_true, if_false]
        split
        · next hlt => exact getCell_above fun c hc => lt_trans hlt (habove c hc)
        · rfl

theorem cellsRise_of_memWf (h : memWf m = true) : cellsRise m.cells = true := by
  simp only [memWf, Bool.and_eq_true] at h
  exact h.1

/-- A unit whose contents are dropped takes no byte of another. -/
theorem readByte_dropUnit {u a : Nat} (h : memWf m = true) (ha : unitOf a ≠ u) :
    readByte (dropUnit m u) a = readByte m a := by
  have hcell : getCell a (dropUnit m u).cells = getCell a m.cells :=
    getCell_filter (cellsRise_of_memWf h) fun c _ hc => by simpa [hc] using ha
  rw [readByte, readByte, hcell]
  rfl

/-- A unit that is made free changes no byte of another. -/
theorem readByte_freeUnit {u d a : Nat} (h : memWf m = true) (ha : unitOf a ≠ u) :
    readByte (freeUnit m u d) a = readByte m a := by
  have hfill : fillHas a (.free u d) = false := by simpa [fillHas] using ha
  have hcell : getCell a (freeUnit m u d).cells = getCell a m.cells :=
    getCell_filter (l := m.cells) (cellsRise_of_memWf h) fun c _ hc => by rw [hc, hfill]; rfl
  have hplain : plainByte (freeUnit m u d) a = plainByte m a := by
    have hof : fillOf (freeUnit m u d) a = fillOf m a :=
      (fillOf_refill _ _ _ hfill).trans (find_filter_unit a u m.fills (by simpa using ha))
    rw [plainByte, plainByte, hof]
  rw [readByte, readByte, hcell, hplain]

/-! ### Homes that are recorded (R276) -/

theorem tierEntry_setHome (u v : Nat) (h : Home) (b mv : Bool) : tierEntry (setHome s u h b mv) v =
    if v = u then
      if h != plainHome s u || b || mv then some { unit := u, home := h, faultOn := b, moving := mv } else none
    else tierEntry s v := by
  have hnone : (s.tiers.entries.filter fun e => e.unit != u).find? (fun e => e.unit == u) = none :=
    List.find?_eq_none.2 fun e he => by simpa using (List.mem_filter.1 he).2
  unfold tierEntry setHome
  dsimp only
  rw [List.find?_append]
  by_cases hv : v = u
  · subst hv
    rw [hnone, if_pos rfl]
    split <;> simp
  · have hfilter : (s.tiers.entries.filter fun e => e.unit != u).find? (fun e => e.unit == v) =
        s.tiers.entries.find? fun e => e.unit == v := by
      rw [List.find?_filter]
      refine congrArg (List.find? · _) (funext fun e => ?_)
      by_cases he : e.unit = v
      · simp [he, hv]
      · simp [he]
    rw [hfilter, if_neg hv]
    split <;> simp [Ne.symm hv]

theorem homeOf_setHome (u v : Nat) (h : Home) (b mv : Bool) :
    homeOf (setHome s u h b mv) v = if v = u then h else homeOf s v := by
  have hplain : plainHome (setHome s u h b mv) v = plainHome s v := rfl
  unfold homeOf
  rw [tierEntry_setHome, hplain]
  by_cases hv : v = u
  · subst hv
    by_cases hk : (h != plainHome s v || b || mv) = true
    · simp [hk]
    · have hh : h = plainHome s v := by
        simp only [Bool.or_eq_true, not_or] at hk
        simpa using hk.1.1
      rw [if_pos rfl, if_neg hk, if_pos rfl]
      exact hh.symm
  · simp [hv]

theorem faultOn_setHome (u v : Nat) (h : Home) (b mv : Bool) :
    faultOn (setHome s u h b mv) v = if v = u then b else faultOn s v := by
  unfold faultOn
  rw [tierEntry_setHome]
  by_cases hv : v = u
  · by_cases hk : (h != plainHome s u || b || mv) = true
    · simp [hv, hk]
    · have hb : b = false := by
        simp only [Bool.or_eq_true, not_or] at hk
        simpa using hk.1.2
      rw [if_pos hv, if_neg hk, if_pos hv]
      exact hb.symm
  · simp [hv]

theorem movingUnit_setHome (u v : Nat) (h : Home) (b mv : Bool) :
    movingUnit (setHome s u h b mv) v = if v = u then mv else movingUnit s v := by
  unfold movingUnit
  rw [tierEntry_setHome]
  by_cases hv : v = u
  · by_cases hk : (h != plainHome s u || b || mv) = true
    · simp [hv, hk]
    · have hm : mv = false := by
        simp only [Bool.or_eq_true, not_or] at hk
        simpa using hk.2
      rw [if_pos hv, if_neg hk, if_pos hv]
      exact hm.symm
  · simp [hv]

/-- Homes and faults depend on the objects and extents, the translator and the partition alone. -/
theorem homeOf_congr (ht : t.tiers = s.tiers) (hq : t.quoin = s.quoin) (hi : t.index = s.index)
    (hkv : t.kv = s.kv) (hb : ∀ u, inExtent t u = inExtent s u) (u : Nat) : homeOf t u = homeOf s u := by
  have hobj : inObject t u = inObject s u := by rw [inObject, inObject, hi, hkv]
  have hplain : plainHome t u = plainHome s u := by
    rw [plainHome, plainHome, CommandInterface.regionOf_congr hq, hobj, hb, ht]
  rw [homeOf, homeOf, tierEntry, tierEntry, ht, hplain]

/-! ### MIGRATE without a copy (R291, R293) -/

/-- What an action leaves of memory outside its unit. -/
def SparesOthers (f : State → Nat → State) : Prop :=
  ∀ s u, memWf s.mem = true → memWf (f s u).mem = true ∧
    ∀ a, unitOf a ≠ u → readByte (f s u).mem a = readByte s.mem a

theorem foldl_sparesOthers {f : State → Nat → State} (hf : SparesOthers f) (us : List Nat)
    (hm : memWf s.mem = true) {a : Nat} (ha : unitOf a ∉ us) :
    readByte (us.foldl f s).mem a = readByte s.mem a := by
  induction us generalizing s with
  | nil => rfl
  | cons u us ih =>
    rw [List.mem_cons, not_or] at ha
    obtain ⟨hm', hu⟩ := hf s u hm
    exact (ih hm' ha.2).trans (hu a ha.1)

/-- What an action gives each unit alone, its fold gives the units that it names. -/
theorem foldl_each {α : Type} {f : State → Nat → State} {g : State → Nat → α} {x : Nat → α}
    (h : ∀ s u v, g (f s u) v = if v = u then x v else g s v) (us : List Nat) (s : State) (v : Nat) :
    g (us.foldl f s) v = if v ∈ us then x v else g s v := by
  induction us generalizing s with
  | nil => simp
  | cons u us ih =>
    rw [List.foldl_cons, ih, h]
    by_cases hv : v = u <;> simp [hv]

theorem foldl_keeps {α : Type} {f : State → Nat → State} {g : State → α} (h : ∀ s u, g (f s u) = g s)
    (us : List Nat) (s : State) : g (us.foldl f s) = g s := by
  induction us generalizing s with
  | nil => rfl
  | cons u us ih => exact (ih _).trans (h s u)

theorem homeOf_placeUnit (s : State) (u v : Nat) :
    homeOf (placeUnit s u) v = if v = u then .stack v else homeOf s v := by
  have h : homeOf (placeUnit s u) v = homeOf (setHome s u (.stack u) false false) v := rfl
  rw [h, homeOf_setHome]
  by_cases hv : v = u <;> simp [hv]

theorem faultOn_placeUnit (s : State) (u v : Nat) :
    faultOn (placeUnit s u) v = if v = u then false else faultOn s v :=
  faultOn_setHome _ _ _ _ _

theorem placeUnit_sparesOthers : SparesOthers placeUnit := fun _ _ hm =>
  ⟨memWf_freeUnit _ _ _ hm, fun _ ha => readByte_freeUnit hm ha⟩

theorem inExtent_moveTile (s : State) (u v : Nat) (old new : Home) :
    inExtent { s with bricks := moveTile s.bricks u old new } v = inExtent s v := by
  unfold inExtent moveTile
  refine any_modAt (fun _ => ?_) _ _
  rfl

theorem homeOf_vacateUnit (s : State) (u v : Nat) :
    homeOf (vacateUnit s u) v = if v = u then .vacant else homeOf s v := by
  have h : homeOf (vacateUnit s u) v = homeOf (setHome s u .vacant false false) v := by
    refine homeOf_congr (s := setHome s u .vacant false false) (t := vacateUnit s u) rfl rfl rfl rfl (fun w => ?_) v
    unfold vacateUnit
    dsimp only
    split
    · exact inExtent_moveTile s u w _ _
    · rfl
  rw [h, homeOf_setHome]

theorem faultOn_vacateUnit (s : State) (u v : Nat) :
    faultOn (vacateUnit s u) v = if v = u then false else faultOn s v :=
  faultOn_setHome _ _ _ _ _

theorem vacateUnit_sparesOthers : SparesOthers vacateUnit := fun _ _ hm =>
  ⟨memWf_dropUnit _ _ hm, fun _ ha => readByte_dropUnit hm ha⟩

/-- The fault setting of a unit changed. -/
def setFault (b : Bool) (s : State) (u : Nat) : State := setHome s u (homeOf s u) b (movingUnit s u)

theorem homeOf_setFault (b : Bool) (s : State) (u : Nat) : homeOf (setFault b s u) = homeOf s := by
  funext v
  rw [setFault, homeOf_setHome]
  by_cases hv : v = u <;> simp [hv]

/-- A MIGRATE that waits for no other and whose units allow its action acts on each of them. -/
theorem exec_migrateEach {mine : Cmd → Bool} {f : State → Nat → State} (ht : Taken s q mine c)
    (hp : Passes s migPre migRange migCheck noSlots c)
    (hmove : movingElsewhere (begun s c []) (migUnits (readBytes s.mem (entDesc c) 32)) = false)
    (hunits : migUnitErr (begun s c []) (readBytes s.mem (entDesc c) 32) = none) :
    let us := migUnits (readBytes s.mem (entDesc c) 32)
    runCommand s q.toNat mine migPre migRange migCheck noSlots (fun s c => migrateEach s c f) =
      succeed (us.foldl f (begun s c [])) (ran c) 0 0 us.length 0 0 := by
  refine (runCommand_passes ht hp).trans ?_
  have hd : readBytes (begun s c []).mem (entDesc (ran c)) 32 = readBytes s.mem (entDesc c) 32 := rfl
  have hb : begun s c (noSlots s c) = begun s c [] := rfl
  simp only [migrateEach, migrate, hb, hd, hmove, hunits, Bool.false_eq_true, if_false]

theorem placeUnits_spec (us : List Nat) (hm : memWf s.mem = true) :
    let p := us.foldl placeUnit s
    (∀ u ∈ us, homeOf p u = .stack u ∧ faultOn p u = false) ∧
    (∀ u, u ∉ us → homeOf p u = homeOf s u ∧ faultOn p u = faultOn s u) ∧
    (∀ a, unitOf a ∉ us → readByte p.mem a = readByte s.mem a) := by
  have hhome := foldl_each homeOf_placeUnit us s
  have hfault := foldl_each faultOn_placeUnit us s
  exact ⟨fun u hu => ⟨(hhome u).trans (if_pos hu), (hfault u).trans (if_pos hu)⟩,
    fun u hu => ⟨(hhome u).trans (if_neg hu), (hfault u).trans (if_neg hu)⟩,
    fun a ha => foldl_sparesOthers placeUnit_sparesOthers us hm ha⟩

theorem vacateUnits_spec (us : List Nat) (hm : memWf s.mem = true) :
    let p := us.foldl vacateUnit s
    (∀ u ∈ us, homeOf p u = .vacant) ∧
    (∀ u, u ∉ us → homeOf p u = homeOf s u ∧ faultOn p u = faultOn s u) ∧
    (∀ a, unitOf a ∉ us → readByte p.mem a = readByte s.mem a) := by
  have hhome := foldl_each homeOf_vacateUnit us s
  have hfault := foldl_each faultOn_vacateUnit us s
  exact ⟨fun u hu => (hhome u).trans (if_pos hu),
    fun u hu => ⟨(hhome u).trans (if_neg hu), (hfault u).trans (if_neg hu)⟩,
    fun a ha => foldl_sparesOthers vacateUnit_sparesOthers us hm ha⟩

theorem setFaults_spec (b : Bool) (us : List Nat) (s : State) :
    let p := us.foldl (setFault b) s
    (∀ u ∈ us, faultOn p u = b) ∧ (∀ u, homeOf p u = homeOf s u) ∧
    (∀ u, u ∉ us → faultOn p u = faultOn s u) ∧ p.mem = s.mem := by
  have hfault := foldl_each (f := setFault b) (fun _ _ _ => faultOn_setHome _ _ _ _ _) us s
  exact ⟨fun u hu => (hfault u).trans (if_pos hu), fun u => congrFun (foldl_keeps (homeOf_setFault b) us s) u,
    fun u hu => (hfault u).trans (if_neg hu), foldl_keeps (f := setFault b) (g := State.mem) (fun _ _ => rfl) us s⟩

/-- Settles O30. Each action is a fold over the units named. -/
theorem migrateActsOnItsUnitsAlone : Obligations.MigrateActsOnItsUnitsAlone := by
  intro s q c d us b hm hmove hunits hp
  have hrun := fun {mine : Cmd → Bool} (f : State → Nat → State) (ht : Taken s q mine c) =>
    congrArg (Host.Outcome.next (φ := Fault) (ρ := Refusal)) (exec_migrateEach (f := f) ht hp hmove hunits)
  exact ⟨fun ht => ⟨_, hrun placeUnit ht, placeUnits_spec us hm⟩,
    fun ht => ⟨_, hrun vacateUnit ht, vacateUnits_spec us hm⟩,
    fun ht => ⟨_, hrun (setFault true) ht, setFaults_spec true us b⟩,
    fun ht => ⟨_, hrun (setFault false) ht, setFaults_spec false us b⟩⟩

end Sys2Proof.Tiers
end

section
/-!
PROOF. What a write at a name leaves in memory, and where it goes when its units have their homes in the stacks
(R271, R276).
-/

open Sys2Proof Sys2Proof.Machine Sys2Proof.Steps Sys2Proof.Lists Sys2Proof.Index

namespace Sys2Proof.Writes

variable {s t : State}

/-! ### The units of a range -/

theorem mem_spanUnits {a n u : Nat} (h : u ∈ spanUnits a n) :
    unitOf u = u ∧ u < a + n ∧ a < u + unitBytes := by
  unfold spanUnits unitsOf at h
  dsimp only at h
  split at h
  · cases h
  · next hn =>
    have hn' : n ≠ 0 := by simpa using hn
    obtain ⟨i, hi, rfl⟩ := List.mem_map.1 h
    have hi' := List.mem_range.1 hi
    simp only [unitBytes, unitOf] at hi' ⊢
    omega

/-- The addresses from the start of a unit on, up to its length, are those of the unit. -/
theorem unitOf_eq_of_mem {u x : Nat} (hu : unitOf u = u) (hle : u ≤ x) (hlt : x < u + unitBytes) :
    unitOf x = u := by
  have hlt' : x < (u / 2097152 + 1) * 2097152 := by
    rw [Nat.add_mul, show u / 2097152 * 2097152 = u from hu, Nat.one_mul]
    exact hlt
  have hle' : u / 2097152 * 2097152 ≤ x := le_of_eq_of_le hu hle
  rw [unitOf, Nat.div_eq_of_lt_le hle' hlt']
  exact hu

/-- The part of a range in one of its units lies there. -/
theorem unitOf_rangePart {a n u : Nat} (h : u ∈ spanUnits a n) :
    unitOf (rangePart { addr := a, len := n } u).1 = u := by
  obtain ⟨hu, hlt, hle⟩ := mem_spanUnits h
  exact unitOf_eq_of_mem hu (le_max_right a u) (max_lt hle (by simp [unitBytes]))

/-! ### Bytes in memory -/

theorem homeWrite_mem (o : Option Owner) (s : State) (h : Home) (a : Nat) (bs : List Byte) :
    (homeWrite o s h a bs).mem = s.mem := by
  have hfold : ∀ (l : List (List Byte × Nat)) (g : List Byte × Nat → Nat) (d n : Nat) (s : State),
      (l.foldl (fun s c => mortarRequest s 2 d o n (g c) c.1) s).mem = s.mem := by
    intro l g d n
    induction l with
    | nil => exact fun _ => rfl
    | cons c l ih => exact fun s => ih _
  cases h with
  | neighbour p => exact hfold _ _ _ _ s
  | _ => rfl

/-- The part of a write in one unit. -/
theorem readByte_unitWrite {o : Option Owner} {a u x : Nat} {bs : List Byte} (hm : memWf s.mem = true)
    (hu : u ∈ spanUnits a bs.length) :
    let p := rangePart { addr := a, len := bs.length } u
    let t := unitWrite o s p.1 ((bs.drop (p.1 - a)).take p.2)
    memWf t.mem = true ∧ readByte t.mem x =
      if a ≤ x ∧ x < a + bs.length ∧ unitOf x = u then bs.getD (x - a) 0 else readByte s.mem x := by
  intro p t
  have hmem : t.mem = writeBytes s.mem p.1 ((bs.drop (p.1 - a)).take p.2) := homeWrite_mem _ _ _ _ _
  obtain ⟨hunit, hlt, hle⟩ := mem_spanUnits hu
  have hp1 : p.1 = max a u := rfl
  have hp2 : p.2 = min (a + bs.length) (u + unitBytes) - max a u := rfl
  have hlen : ((bs.drop (p.1 - a)).take p.2).length = p.2 := by
    rw [List.length_take, List.length_drop, hp1, hp2]
    omega
  refine ⟨by rw [hmem]; exact memWf_writeBytes _ _ _ hm, ?_⟩
  rw [hmem]
  split
  · next hx =>
    obtain ⟨hax, hxn, hxu⟩ := hx
    have hin : p.1 ≤ x ∧ x < p.1 + p.2 := by
      simp only [unitOf, unitBytes, hp1, hp2] at hxu hunit ⊢
      omega
    have hi : x - p.1 < ((bs.drop (p.1 - a)).take p.2).length := by omega
    have hread := readByte_writeBytes_same s.mem p.1 (x - p.1) _ hm hi
    rw [show p.1 + (x - p.1) = x by omega] at hread
    rw [hread, List.getElem_take, List.getElem_drop, List.getD_eq_getElem _ _ (by omega)]
    have hidx : p.1 - a + (x - p.1) = x - a := by omega
    simp only [hidx]
  · next hx =>
    refine readByte_writeBytes_other _ _ _ _ hm ?_
    rw [hlen]
    by_contra hin
    refine hx ?_
    simp only [unitOf, unitBytes, hp1, hp2] at hin hunit ⊢
    omega

/-- A write lays its bytes down in memory from its name on, and changes no other. -/
theorem readByte_deviceWrite {o : Option Owner} {a x : Nat} {bs : List Byte} (hm : memWf s.mem = true) :
    readByte (deviceWrite s o a bs).mem x =
      if a ≤ x ∧ x < a + bs.length then bs.getD (x - a) 0 else readByte s.mem x := by
  have hfold : ∀ (l : List Nat) (t : State), (∀ u ∈ l, u ∈ spanUnits a bs.length) → memWf t.mem = true →
      readByte (l.foldl (fun s u =>
        let p := rangePart { addr := a, len := bs.length } u
        unitWrite o s p.1 ((bs.drop (p.1 - a)).take p.2)) t).mem x =
      if a ≤ x ∧ x < a + bs.length ∧ unitOf x ∈ l then bs.getD (x - a) 0 else readByte t.mem x := by
    intro l
    induction l with
    | nil => intro t _ _; simp
    | cons u l ih =>
      intro t hl ht
      obtain ⟨hwf, hread⟩ := readByte_unitWrite (o := o) (x := x) ht (hl u (by simp))
      rw [List.foldl_cons, ih _ (fun v hv => hl v (by simp [hv])) hwf, hread]
      by_cases hx : a ≤ x ∧ x < a + bs.length
      · simp only [hx.1, hx.2, true_and, List.mem_cons]
        by_cases hl : unitOf x ∈ l <;> simp [hl]
      · rw [if_neg fun h => hx ⟨h.1, h.2.1⟩, if_neg fun h => hx ⟨h.1, h.2.1⟩,
          if_neg fun h => hx ⟨h.1, h.2.1⟩]
  refine (hfold _ (clearPoison s a bs.length) (fun _ h => h) hm).trans ?_
  by_cases hx : a ≤ x ∧ x < a + bs.length
  · rw [if_pos hx, if_pos ⟨hx.1, hx.2, unitOf_mem_unitsOf hx.1 hx.2⟩]
  · rw [if_neg hx, if_neg fun h => hx ⟨h.1, h.2.1⟩]
    rfl

theorem length_readBytes (m : Mem) (a n : Nat) : (readBytes m a n).length = n := by
  unfold readBytes
  induction n generalizing a with
  | zero => rfl
  | succ n ih => exact congrArg (· + 1) (ih _)

theorem readBytes_eq_map (m : Mem) (a n : Nat) :
    readBytes m a n = (List.range n).map fun i => readByte m (a + i) := by
  unfold readBytes
  induction n generalizing a with
  | zero => rfl
  | succ n ih =>
    rw [readFrom, ih, List.range_succ_eq_map]
    simp [Function.comp_def, Nat.add_assoc, Nat.add_comm 1]

/-- What was written reads back. -/
theorem readBytes_deviceWrite {o : Option Owner} {a : Nat} {bs : List Byte} (hm : memWf s.mem = true) :
    readBytes (deviceWrite s o a bs).mem a bs.length = bs := by
  rw [readBytes_eq_map]
  refine List.ext_getElem (by simp) fun i hi hi' => ?_
  have hin : a ≤ a + i ∧ a + i < a + bs.length := by omega
  simp only [List.getElem_map, List.getElem_range, readByte_deviceWrite hm, if_pos hin,
    Nat.add_sub_cancel_left]
  exact List.getD_eq_getElem _ _ hi'

/-! ### Writes to the stacks -/

/-- A write to units whose homes are stacks leaves the module's links as they were. -/
theorem deviceWrite_stack {o : Option Owner} {a : Nat} {bs : List Byte}
    (h : ∀ u ∈ spanUnits a bs.length, ∃ x, homeOf s u = .stack x) :
    (deviceWrite s o a bs).uzone = s.uzone ∧ (deviceWrite s o a bs).mortar = s.mortar := by
  have hfold : ∀ (l : List Nat) (t : State), (∀ u ∈ l, u ∈ spanUnits a bs.length) →
      (∀ u, homeOf t u = homeOf s u) → t.uzone = s.uzone → t.mortar = s.mortar →
      let r := l.foldl (fun s u =>
        let p := rangePart { addr := a, len := bs.length } u
        unitWrite o s p.1 ((bs.drop (p.1 - a)).take p.2)) t
      r.uzone = s.uzone ∧ r.mortar = s.mortar := by
    intro l
    induction l with
    | nil => exact fun t _ _ hu hm => ⟨hu, hm⟩
    | cons u l ih =>
      intro t hl hhome hu hm
      obtain ⟨x, hx⟩ := h u (hl u (by simp))
      have hx' : homeOf t (unitOf (rangePart { addr := a, len := bs.length } u).1) = .stack x := by
        rw [unitOf_rangePart (hl u (by simp)), hhome, hx]
      refine ih _ (fun v hv => hl v (by simp [hv])) (fun v => ?_) ?_ ?_
      · simp only [unitWrite, hx', homeWrite]
        exact hhome v
      · simp only [unitWrite, hx', homeWrite]
        exact hu
      · simp only [unitWrite, hx', homeWrite]
        exact hm
  exact hfold _ (clearPoison s a bs.length) (fun _ h => h) (fun _ => rfl) rfl rfl

end Sys2Proof.Writes
end

section
/-!
PROOF. Hod tiles that are issued and delivered (R307 to R316, R322).
-/

open Sys2Proof Sys2Proof.Machine Sys2Proof.Steps Sys2Proof.Lists Sys2Proof.Index Sys2Proof.Writes

namespace Sys2Proof.HodTiles

variable {s : State} {t : Machine.Stream} {c : Cmd}

/-! ### Issue (R307, R310, R316) -/

/-- A stream whose tile is of the size in front, and which nothing stands in the way of, issues it. -/
theorem tryIssue_clear (hsize : headSize s t = none) (hblock : issueBlock s t = none) :
    tryIssue s c t = issueTile s t := by
  simp [tryIssue, hsize, hblock]

theorem tileLen_of_no_plumb (hp : t.plumb = none) (hb : t.plumbBytes = none) (i : Nat) :
    tileLen s t i = t.tileBytes := by
  simp [tileLen, hp, hb]

theorem exec_hodTileIssue {e : BitVec 4} (hon : engineOn s e.toNat = true) (hown : t.own = none)
    (hroom : tilesInFlight s e.toNat < 8) (hnext : nextToIssue s e.toNat = some t)
    (hc : findCmd s t.cmd = some c) (hsize : headSize s t = none) (hblock : issueBlock s t = none) :
    exec (.hodTileIssue e) s = .next (issueTile s t) := by
  have h : exec (.hodTileIssue e) s = execHodTileIssue e s := rfl
  rw [h, execHodTileIssue]
  simp only [hon, hnext, hown, hc, Bool.not_true, Bool.false_eq_true, if_false, Nat.not_le.2 hroom,
    tryIssue_clear hsize hblock]

theorem issueTile_streams (hp : t.plumb = none) : (issueTile s t).hod.streams =
    mapIf (·.id == t.id) (fun x => { x with
      nextIssue := t.nextIssue + 1, taken := max x.taken (t.nextIssue + 1)
      tileBytes := t.tileBytes, got := [], inFlight := x.inFlight ++ [t.nextIssue] }) s.hod.streams := by
  have hn : (if t.plumbBytes.isSome then t.tileBytes else tileLen s t t.nextIssue) = t.tileBytes := by
    cases hb : t.plumbBytes with
    | some _ => rfl
    | none => exact tileLen_of_no_plumb hp hb _
  unfold issueTile
  dsimp only
  rw [hn]

/-! ### Delivery (R312, R316) -/

/-- A copy of one run is written as one. -/
theorem writeTile_run {i a b n : Nat} (hd : t.dstLink = none) (hd2 : t.dstLink2 = none)
    (hsrc : srcRuns s t i = [(a, n)]) (hdst : dstRuns t i = [(b, n)]) :
    writeTile s t i = deviceWrite s (some (.stream t.id)) b (readBytes s.mem a n) := by
  have hdata : tileData s t i = readBytes s.mem a n := by simp [tileData, hsrc]
  have hout : outputs s t i = [] := by simp [outputs, hd, hd2]
  have htake : (readBytes s.mem a n).take n = readBytes s.mem a n :=
    List.take_of_length_le (length_readBytes _ _ _).le
  simp [writeTile, hdata, hout, hdst, writeRuns, htake]

/-- The tile of a stream in service that lands, and whose writes need no answer, is delivered. -/
theorem exec_hodTileDelivered {i : Nat} {rest : List Nat} (ht : findStream s t.id = some t)
    (hon : engineOn s t.engine = true) (hown : t.own = none) (hst : t.st = 0) (hsent : t.sent = false)
    (hfly : t.inFlight = i :: rest) (hc : findCmd s t.cmd = some c)
    (hreach : reachRanges s (tileUnits s t i) (tileRanges s t i) = none)
    (hout : writesOut (writeTile (updStream s t.id fun t => { t with sent := true }) t i) (.stream t.id) = false) :
    exec (.hodTileDelivered t.id) s =
      .next (deliver (writeTile (updStream s t.id fun t => { t with sent := true }) t i) c t i) := by
  have h : exec (.hodTileDelivered t.id) s = execHodTileDelivered t.id s := rfl
  rw [h, execHodTileDelivered, ht]
  simp [hon, hown, hfly, hc, hst, tryDeliver, hreach, landTile, hsent, hout]

/-- A tile that is delivered and is not the last: its stage goes on behind it. -/
theorem deliver_next {i : Nat} (hp : t.plumb = none) (hlast : i + 1 < t.count) :
    deliver s c t i = { s with hod := { s.hod with
      links := (s.hod.links.map (signal t i (tileData s t i).length)).filter fun l => !bothEnded l
      delivered := modAt s.hod.delivered t.engine fun n => (n + 1) % 2 ^ 64
      streams := mapIf (·.id == t.id) (fun x => { x with
        inFlight := x.inFlight.drop 1, nextDeliver := i + 1, sent := false, lastTime := now s })
        s.hod.streams } } := by
  have hne : (i + 1 == t.count) = false := beq_false_of_ne (Nat.ne_of_lt hlast)
  simp [deliver, hne, hp]

theorem mapIf_mapIf {α : Type} {p : α → Bool} {f g : α → α} (h : ∀ x, p x = true → p (f x) = true)
    (l : List α) : mapIf p g (mapIf p f l) = mapIf p (fun x => g (f x)) l := by
  simp only [mapIf, List.map_map]
  refine List.map_congr_left fun x _ => ?_
  by_cases hx : p x = true <;> simp [hx, h]

/-- Settles O28. -/
theorem hodTilesAreIssuedAndDelivered : Obligations.HodTilesAreIssuedAndDelivered := by
  refine ⟨fun s e t c hon hown hroom hnext hc hp hsize hblock => ?_,
    fun s t c i a b n rest hm hon hown hst hsent ht hfly hc hsl hd hd2 hp hpb hsrc hdst hstack hout hlast
      hreach => ?_⟩
  · exact ⟨issueTile s t, exec_hodTileIssue hon hown hroom hnext hc hsize hblock, rfl, issueTile_streams hp,
      rfl, rfl⟩
  · let s0 := updStream s t.id fun t => { t with sent := true }
    have hsrc0 : srcRuns s0 t i = [(a, n)] := hsrc
    have hwrite : writeTile s0 t i = deviceWrite s0 (some (.stream t.id)) b (readBytes s.mem a n) :=
      writeTile_run hd hd2 hsrc0 hdst
    have hlen := length_readBytes s.mem a n
    have hm0 : memWf s0.mem = true := hm
    have hw := written_deviceWrite s0 (some (.stream t.id)) b (readBytes s.mem a n)
    have hread := readBytes_deviceWrite (o := some (.stream t.id)) (a := b) (bs := readBytes s.mem a n) hm0
    rw [hlen] at hread
    obtain ⟨huz, hmo⟩ := deviceWrite_stack (s := s0) (o := some (.stream t.id)) (a := b)
      (bs := readBytes s.mem a n) (by rw [hlen]; exact hstack)
    have hout0 : writesOut (writeTile s0 t i) (.stream t.id) = false := by
      rw [hwrite, writesOut, huz, hmo]
      exact hout
    refine ⟨_, exec_hodTileDelivered ht hon hown hst hsent hfly hc hreach hout0, ?_⟩
    rw [deliver_next hp hlast]
    dsimp only
    rw [hwrite]
    refine ⟨hread, fun x hx => ?_, ?_, ?_, ?_, ?_, ?_⟩
    · rw [readByte_deviceWrite hm0, if_neg (by rw [hlen]; omega)]
      rfl
    · rw [hw]
      exact mapIf_mapIf (p := fun x => x.id == t.id) (f := fun x : Machine.Stream => { x with sent := true })
        (fun _ h => h) _
    all_goals
      rw [hw]
      rfl

end Sys2Proof.HodTiles
end

section
/-!
PROOF. MIGRATE MOVE, unit by unit (R293 to R295).
-/

open Sys2Proof Sys2Proof.Machine Sys2Proof.Steps Sys2Proof.Lists Sys2Proof.Index Sys2Proof.Writes Sys2Proof.Tiers

namespace Sys2Proof.Moves

variable {s t u : State} {q : QueueId} {c : Cmd} {m : Migration}

/-! ### Messages of a copy -/

/-- Beside messages that travel, `t` is as `s` is; no access of the companion that waits is served. -/
structure Sends (s t : State) : Prop where
  same : t = { s with uzone := t.uzone, mortar := t.mortar }
  held : t.uzone.heldDev = s.uzone.heldDev

theorem Sends.refl (s : State) : Sends s s := ⟨rfl, rfl⟩

theorem Sends.trans (h1 : Sends s t) (h2 : Sends t u) : Sends s u :=
  ⟨by rw [h2.same, h1.same], h2.held.trans h1.held⟩

theorem Sends.homeOf (h : Sends s t) (v : Nat) : Machine.homeOf t v = Machine.homeOf s v := by
  rw [h.same]
  rfl

theorem Sends.movingUnit (h : Sends s t) (v : Nat) : Machine.movingUnit t v = Machine.movingUnit s v := by
  rw [h.same]
  rfl

theorem Sends.mem (h : Sends s t) : t.mem = s.mem := by rw [h.same]

theorem sends_mortarRequest (s : State) (op d : Nat) (o : Option Owner) (n a : Nat) (p : List Byte) :
    Sends s (mortarRequest s op d o n a p) := ⟨rfl, rfl⟩

theorem uzSend_heldDev (x : Uzone) (ms : List Msg) : (uzSend x ms).heldDev = x.heldDev :=
  TimeKeeper.pumpUzone_heldDev _

theorem sends_uzSend (s : State) (ms : List Msg) : Sends s { s with uzone := uzSend s.uzone ms } :=
  ⟨rfl, uzSend_heldDev _ _⟩

theorem sends_peerReads (n : Nat) (o : Owner) (x a f len : Nat) (s : State) :
    Sends s (peerReads s n o x a f len) := by
  induction f generalizing s a len with
  | zero => exact .refl s
  | succ f ih =>
    unfold peerReads
    split
    · exact .refl s
    · exact (sends_mortarRequest s _ _ _ _ _ _).trans (ih _ _ _)

theorem sends_askPart (o : Owner) (r : Range) (x : Nat) (y : Reach) : Sends s (askPart s o r x y) := by
  unfold askPart
  split
  · exact sends_uzSend _ _
  · exact sends_peerReads _ _ _ _ _ _ _
  · exact .refl s

theorem sends_homeWrite (o : Option Owner) (s : State) (h : Home) (a : Nat) (bs : List Byte) :
    Sends s (homeWrite o s h a bs) := by
  have hfold : ∀ (l : List (List Byte × Nat)) (g : List Byte × Nat → Nat) (d n : Nat) (s : State),
      Sends s (l.foldl (fun s c => mortarRequest s 2 d o n (g c) c.1) s) := by
    intro l g d n
    induction l with
    | nil => exact .refl
    | cons c l ih => exact fun s => (sends_mortarRequest s _ _ _ _ _ _).trans (ih _)
  cases h with
  | companion p => exact sends_uzSend _ _
  | neighbour p => exact hfold _ _ _ _ s
  | _ => exact .refl s

/-! ### A copy begins (R294) -/

theorem findMove_updMove {cmd : Nat} {f : Migration → Migration} (h : findMove s cmd = some m)
    (hf : ∀ m, (f m).cmd = m.cmd) : findMove (updMove s cmd f) cmd = some (f m) := by
  have h' := find?_mapIf (p := (·.cmd == cmd)) (f := f) (by simp [hf]) s.tiers.migrations
  unfold findMove at *
  rw [h] at h'
  exact h'

/-- What the copy of a unit leaves as it goes on: its move may have sent its contents. -/
theorem copyOn_spec {cmd : Nat} (h : findMove s cmd = some m) : ∃ b,
    Sends { s with tiers := (updMove s cmd fun x => { x with sent := b || x.sent }).tiers } (copyOn s cmd) := by
  unfold copyOn
  rw [h]
  dsimp only
  split
  · refine ⟨false, ?_⟩
    have hsame : mapIf (·.cmd == cmd) (fun x : Migration => { x with sent := false || x.sent })
        s.tiers.migrations = s.tiers.migrations := by
      simp [mapIf]
    simp only [updMove]
    rw [hsame]
    exact .refl s
  · refine ⟨true, ?_⟩
    simp only [Bool.true_or]
    exact sends_homeWrite _ (updMove s cmd fun m => { m with sent := true }) _ _ _

/-- A copy that begins: its unit moves, its home stays, and no byte of the module's memory changes. -/
theorem startCopy_spec {cmd : Nat} (h : findMove s cmd = some m) :
    let t := startCopy s cmd
    (∀ v, homeOf t v = homeOf s v) ∧
    (∀ v, movingUnit t v = if v = moveUnit m then true else movingUnit s v) ∧
    t.mem = s.mem ∧ t.uzone.heldDev = s.uzone.heldDev ∧
    ∃ b, findMove t cmd = some { m with sent := b || m.sent } := by
  let s1 := markMoving s (moveUnit m)
  let s2 := askPart s1 (.cmd cmd) { addr := moveUnit m, len := unitBytes } (moveUnit m)
    (backing s (homeOf s (moveUnit m)))
  have ht : startCopy s cmd = copyOn s2 cmd := by
    unfold startCopy
    rw [h]
  have h2 : Sends s1 s2 := sends_askPart _ _ _ _
  have hfind : findMove s2 cmd = some m := by
    rw [h2.same]
    exact h
  obtain ⟨b, hcopy⟩ := copyOn_spec hfind
  rw [← ht] at hcopy
  refine ⟨fun v => ?_, fun v => ?_, ?_, ?_, b, ?_⟩
  · refine (hcopy.homeOf v).trans ((h2.homeOf v).trans ((homeOf_setHome _ _ _ _ _).trans ?_))
    by_cases hv : v = moveUnit m <;> simp [hv]
  · exact (hcopy.movingUnit v).trans ((h2.movingUnit v).trans (movingUnit_setHome _ _ _ _ _))
  · exact hcopy.mem.trans h2.mem
  · exact hcopy.held.trans h2.held
  · rw [hcopy.same]
    exact findMove_updMove hfind fun _ => rfl

/-! ### MIGRATE MOVE -/

/-- The state in which a move is listed. -/
def listed (s : State) (m : Migration) : State :=
  { s with tiers := { s.tiers with migrations := s.tiers.migrations ++ [m] } }

theorem findMove_listed (h : findMove s m.cmd = none) : findMove (listed s m) m.cmd = some m := by
  unfold findMove at *
  simp [listed, List.find?_append, h]

/-- A move as its descriptor asks for it. -/
def asked (c : Cmd) (d : List Byte) : Migration :=
  { cmd := c.id, tier := byteAt d 5, source := getLE d 16 8, dest := getLE d 24 8, units := getLE d 8 4 }

theorem actMove_ok (hmove : movingElsewhere s (migUnits (readBytes s.mem (entDesc c) 32)) = false)
    (hunits : migUnitErr s (readBytes s.mem (entDesc c) 32) = none) (hw : s.lintel.withheld = false) :
    actMove s c = startCopy (listed s (asked c (readBytes s.mem (entDesc c) 32))) c.id := by
  simp only [actMove, migrate, hmove, hunits, hw, Bool.false_and, Bool.false_eq_true, if_false]
  rfl

/-- A unit of a move that is done has its new home, and no access waits. -/
theorem serveHeld_of_none (h : s.uzone.heldDev = []) : serveHeld s = s := by
  simp [serveHeld, h, serveWith]

/-- The state in which the unit of a move has its new home (R294). -/
def moved (s : State) (m : Migration) : State :=
  { setHome s (moveUnit m) (moveHome m m.done) false false with
    bricks := if windowOf (moveUnit m) == some 3 then
        moveTile s.bricks (moveUnit m) (homeOf s (moveUnit m)) (moveHome m m.done)
      else s.bricks }

theorem homeOf_moved (s : State) (m : Migration) (v : Nat) :
    homeOf (moved s m) v = if v = moveUnit m then moveHome m m.done else homeOf s v := by
  have h : homeOf (moved s m) v =
      homeOf (setHome s (moveUnit m) (moveHome m m.done) false false) v := by
    refine homeOf_congr (s := setHome s (moveUnit m) (moveHome m m.done) false false)
      (t := moved s m) rfl rfl rfl rfl (fun w => ?_) v
    unfold moved
    dsimp only
    split
    · exact inExtent_moveTile s (moveUnit m) w _ _
    · rfl
  rw [h, homeOf_setHome]

theorem moved_tiers (s : State) (m : Migration) :
    (moved s m).tiers = (setHome s (moveUnit m) (moveHome m m.done) false false).tiers := rfl

theorem moved_mem (s : State) (m : Migration) : (moved s m).mem = s.mem := by simp [moved]

theorem moved_uzone (s : State) (m : Migration) : (moved s m).uzone = s.uzone := by simp [moved]

theorem movingUnit_moved (s : State) (m : Migration) (v : Nat) :
    movingUnit (moved s m) v = if v = moveUnit m then false else movingUnit s v := by
  rw [← movingUnit_setHome (s := s) (moveUnit m) v (moveHome m m.done) false false]
  rw [movingUnit, movingUnit, tierEntry, tierEntry, moved_tiers]

theorem findMove_moved (s : State) (m : Migration) (cmd : Nat) :
    findMove (moved s m) cmd = findMove s cmd := by
  rw [findMove, findMove, moved_tiers, setHome_tiers]

theorem dropMove_mem (s : State) (cmd : Nat) : (dropMove s cmd).mem = s.mem := rfl

theorem homeOf_updMove (s : State) (cmd : Nat) (f : Migration → Migration) (v : Nat) :
    homeOf (updMove s cmd f) v = homeOf s v := rfl

theorem movingUnit_updMove (s : State) (cmd : Nat) (f : Migration → Migration) (v : Nat) :
    movingUnit (updMove s cmd f) v = movingUnit s v := rfl

theorem homeOf_dropMove (s : State) (cmd v : Nat) : homeOf (dropMove s cmd) v = homeOf s v := rfl

theorem movingUnit_dropMove (s : State) (cmd v : Nat) : movingUnit (dropMove s cmd) v = movingUnit s v := rfl

theorem unitDone_ok (hm : findMove s m.cmd = some m) (hc : findCmd s m.cmd = some c)
    (hop : opIs 0x24 c = false) (hsent : m.sent = true)
    (hacc : accessOut s (.cmd m.cmd) true = false) (hbusy : oldHomeBusy s (moveUnit m) = false) :
    unitDone s m.cmd .ok = if m.done + 1 < m.units then
      startCopy (updMove (moved s m) m.cmd fun x => { x with done := x.done + 1, sent := false }) m.cmd
    else succeed (dropMove (moved s m) m.cmd) c 0 0 m.units 0 0 := by
  simp only [unitDone, hm, hc, Option.elim_some, hop, hsent, hacc, hbusy, Bool.false_eq_true, if_false,
    Bool.not_false, Bool.and_self, if_true, migrateDone]
  rfl

/-- The unit after the one that a move is at. -/
theorem moveUnit_next (m : Migration) :
    moveUnit { m with done := m.done + 1, sent := false } = moveUnit m + unitBytes := by
  unfold moveUnit
  rw [Nat.add_mul, Nat.one_mul, Nat.add_assoc]

/-- Settles O31. -/
theorem migrateMovesUnitByUnit : Obligations.MigrateMovesUnitByUnit := by
  constructor
  · intro s q c d b hmove hunits hw hnone hp ht
    have hfind : findMove (listed b (asked (ran c) d)) c.id = some (asked (ran c) d) :=
      findMove_listed (m := asked (ran c) d) hnone
    obtain ⟨hhome, hmoving, hmem, -, f, hmig⟩ := startCopy_spec hfind
    have hunit : moveUnit (asked (ran c) d) = getLE d 16 8 := by simp [moveUnit, asked]
    rw [hunit] at hmoving
    refine ⟨_, congrArg Host.Outcome.next ((runCommand_passes ht hp).trans (actMove_ok hmove hunits hw)),
      (hmoving _).trans (if_pos rfl), hhome, fun u hu => (hmoving u).trans (if_neg hu), ⟨_, hmig, rfl, rfl, rfl,
      rfl, rfl⟩, hmem⟩
  · intro s m c u hm hc hop hheld hsent hacc hbusy
    have hdone := unitDone_ok hm hc hop hsent hacc hbusy
    refine ⟨fun hlt => ?_, fun hlast => ?_⟩
    · rw [if_pos hlt] at hdone
      have hfind := findMove_updMove (s := moved s m)
        (f := fun x => { x with done := x.done + 1, sent := false }) ((findMove_moved s m m.cmd).trans hm) fun _ => rfl
      obtain ⟨hhome, hmoving, hmem, huz, -⟩ := startCopy_spec hfind
      rw [moveUnit_next] at hmoving
      have hne : u ≠ u + unitBytes := by simp [unitBytes]
      rw [← hdone] at hhome hmoving hmem huz
      refine ⟨unitDone s m.cmd .ok, ?_, ?_, ?_, ?_, fun v hv => ?_, ?_⟩
      · have h : exec (.migrateUnitDone m.cmd .ok) s = .next (serveHeld (unitDone s m.cmd .ok)) := rfl
        rw [h, serveHeld_of_none]
        rw [huz, updMove_uzone, moved_uzone, hheld]
      · rw [hhome, homeOf_updMove]
        exact (homeOf_moved s m u).trans (if_pos rfl)
      · rw [hmoving, if_neg hne, movingUnit_updMove]
        exact (movingUnit_moved s m u).trans (if_pos rfl)
      · rw [hmoving]
        exact if_pos rfl
      · rw [hhome, homeOf_updMove]
        exact (homeOf_moved s m v).trans (if_neg hv)
      · rw [hmem, updMove_mem, moved_mem]
    · rw [if_neg (by omega)] at hdone
      refine ⟨dropMove (moved s m) m.cmd, ?_, ?_, ?_, fun v hv => ?_, fun x hx => ?_, ?_⟩
      · have h : exec (.migrateUnitDone m.cmd .ok) s = .next (serveHeld (unitDone s m.cmd .ok)) := rfl
        rw [h, hdone]
      · rw [homeOf_dropMove]
        exact (homeOf_moved s m u).trans (if_pos rfl)
      · rw [movingUnit_dropMove]
        exact (movingUnit_moved s m u).trans (if_pos rfl)
      · rw [homeOf_dropMove]
        exact (homeOf_moved s m v).trans (if_neg hv)
      · simpa using (List.mem_filter.1 hx).2
      · rw [dropMove_mem, moved_mem]

end Sys2Proof.Moves
end

section
/-!
PROOF. The Slab: what its commands queue, how its scoreboard admits and loads, and how compute and epilogues
end (R186 to R226).
-/

open Sys2Proof Sys2Proof.Machine Sys2Proof.Steps Sys2Proof.Lists Sys2Proof.Walks Sys2Proof.Selection

namespace Sys2Proof.SlabRuns

variable {s t u : State} {op : SlabOp} {c : Cmd}

/-! ### BUSY slots (R346, R364) -/

theorem sameBeside_trans (h1 : SameBeside s t) (h2 : SameBeside t u) : SameBeside s u := by
  unfold SameBeside at *
  rw [← h1, ← h2]

theorem sameBeside_outStep (s : State) (o : Out) : SameBeside s (outStep s o).1 := by
  unfold outStep
  split
  · rfl
  · split
    · rfl
    · split <;> rfl
    · dsimp only
      split
      · rfl
      · split <;> rfl

theorem sameBeside_drainItems (os : List Out) (stuck : List (Bool × Nat)) (s : State) :
    SameBeside s (drainItems s os stuck) := by
  induction os generalizing s stuck with
  | nil => rfl
  | cons o os ih =>
    have h : ∀ x : State × Bool, SameBeside s x.1 → SameBeside s
        (if x.2 then drainItems x.1 os stuck
          else drainItems { x.1 with uzone := { x.1.uzone with out := x.1.uzone.out ++ [o] } } os
            (o.key :: stuck)) := by
      intro x hx
      split
      · exact sameBeside_trans hx (ih _ _)
      · exact sameBeside_trans hx (sameBeside_trans (by exact rfl) (ih _ _))
    refine h _ ?_
    split
    · rfl
    · exact sameBeside_outStep s o

theorem sameBeside_emit (s : State) (os : List Out) : SameBeside s (emit s os) :=
  sameBeside_trans (t := { s with uzone := { s.uzone with out := [] } }) (by exact rfl)
    (sameBeside_drainItems _ _ _)

theorem sameBeside_busySlots (s : State) (c : Cmd) (l : List (Nat × Nat)) :
    SameBeside s (busySlots s c l) := by
  unfold busySlots
  induction l generalizing s with
  | nil => rfl
  | cons p l ih =>
    have h : SameBeside s (slotBusy s c.id p.1) :=
      sameBeside_trans (sameBeside_emit _ _) (by exact rfl)
    exact sameBeside_trans h (ih _)

/-- The slots that a command marks BUSY are written; beside memory and the scheduler nothing changes. -/
theorem sameBeside_begun (s : State) (c : Cmd) (l : List (Nat × Nat)) : SameBeside s (begun s c l) :=
  sameBeside_trans (t := updCmd s c.id fun c => { c with phase := .running, checked := true }) (by exact rfl)
    (sameBeside_busySlots _ _ _)

/-! ### Commands (R189, R191, R214, R221) -/

/-- An operation that finds room changes the Slab alone, and it alone changes it. -/
theorem sameBeside_slabEnqueue (h : SameBeside s t) (op : SlabOp) :
    SameBeside { s with slab := (slabEnqueue t op).slab } (slabEnqueue t op) := by
  unfold SameBeside at *
  rw [← h]
  rfl

theorem slab_begun (s : State) (c : Cmd) (l : List (Nat × Nat)) : (begun s c l).slab = s.slab := by
  rw [(completes_begun s c l).same]

theorem slab_slabEnqueue (hslab : t.slab = s.slab) (hheld : s.slab.heldWork = [])
    (hroom : s.slab.queue.length < 4096) (op : SlabOp) : (slabEnqueue t op).slab = { s.slab with
      nextOp := s.slab.nextOp + 1, queue := s.slab.queue ++ [{ op with id := s.slab.nextOp }] } := by
  rw [slabEnqueue_room op (hslab ▸ hheld) (hslab ▸ hroom), hslab]

/-- Settles O14. -/
theorem slabCommandsQueueTheirOperations : Obligations.SlabCommandsQueueTheirOperations := by
  intro s q c hcount
  have hcount' : (ran c).count = 0 := hcount
  refine ⟨fun ht hp => ?_, fun ht hp hheld hroom => ?_, fun k ht hp hk hheld hroom => ?_⟩
  · refine congrArg Host.Outcome.next ((runCommand_passes ht hp).trans ?_)
    simp only [actMatmul, hcount', bne_self_eq_false, Bool.false_eq_true, if_false]
    rfl
  · let t := updCmd (begun s c []) c.id fun c => { c with count := 1 }
    let op : SlabOp := {
      id := 0, urgent := c.urgent, work := .rescale c.id (getLE (readBytes s.mem (entDesc c) 32) 4 4) []
      M := 0, N := 0, K := 0, arith := 7, mayPack := false }
    have hsame : SameBeside s t := rfl
    refine ⟨slabEnqueue t op, { op with id := s.slab.nextOp }, ?_, rfl, rfl,
      slab_slabEnqueue rfl hheld hroom op, rfl, sameBeside_slabEnqueue hsame op⟩
    refine congrArg Host.Outcome.next ((runCommand_passes ht hp).trans ?_)
    simp only [actRescale, hcount', bne_self_eq_false, Bool.false_eq_true, if_false]
    rfl
  · let t := begun s c (projectSlot s c)
    let op : SlabOp := {
      id := 0, urgent := c.urgent, work := .project c.id k.id [], M := entCount c, N := dSketch k.desc
      K := dDim k.desc, arith := (k.proj.rows.head?.map (·.fmt)).getD 7, mayPack := false
      outBytes := entCount c * dSketch k.desc / 8 }
    refine ⟨slabEnqueue t op, { op with id := s.slab.nextOp }, ?_, rfl, rfl, rfl, rfl,
      slab_slabEnqueue (slab_begun _ _ _) hheld hroom op,
      sameBeside_slabEnqueue (sameBeside_begun _ _ _) op⟩
    refine congrArg Host.Outcome.next ((runCommand_passes ht hp).trans ?_)
    have hk' : findColl (begun s c (projectSlot s c)) (entColl (ran c)) = some k :=
      (findColl_begun _ _ _ _).trans hk
    simp only [actProject, hk']
    rfl

/-! ### Routes (R449, R450) -/

theorem fabric_congr (h : t.mortar = s.mortar) : fabNum t = fabNum s ∧ meshMode t = meshMode s ∧
    fabricSize t = fabricSize s ∧ coordOf t = coordOf s ∧ withCoord t = withCoord s ∧ dimSize t = dimSize s := by
  have htopo : topo t = topo s := by rw [topo, topo, h]
  have hx : sizeX t = sizeX s := by rw [sizeX, sizeX, htopo]
  have hy : sizeY t = sizeY s := by rw [sizeY, sizeY, htopo]
  have hz : sizeZ t = sizeZ s := by rw [sizeZ, sizeZ, htopo]
  have hmesh : meshMode t = meshMode s := by rw [meshMode, meshMode, htopo]
  have hcoord : coordOf t = coordOf s := by funext n d; rw [coordOf, coordOf, hx, hy]
  refine ⟨by rw [fabNum, fabNum, htopo], hmesh, by rw [fabricSize, fabricSize, hmesh, hx, hy, hz], hcoord, ?_, ?_⟩
  · funext n d v
    simp only [withCoord, hcoord, hx, hy]
  · funext d
    rw [dimSize, dimSize, hx, hy, hz]

theorem port_congr (h : t.mortar = s.mortar) : portInService t = portInService s ∧ portRole t = portRole s ∧
    portDirect t = portDirect s := by
  have htopo : topo t = topo s := by rw [topo, topo, h]
  have hport : portAt t = portAt s := by funext p; rw [portAt, portAt, h]
  refine ⟨?_, ?_, ?_⟩
  · funext p
    rw [portInService, portInService, hport]
  · funext p
    rw [portRole, portRole, htopo]
  · funext p
    rw [portDirect, portDirect, htopo]

theorem linkIsUp_congr (h : t.mortar = s.mortar) : linkIsUp t = linkIsUp s := by
  obtain ⟨hme, hmesh, -, hcoord, hwith, hdim⟩ := fabric_congr h
  obtain ⟨hserv, hrole, hdirect⟩ := port_congr h
  have hfar : farEnd t = farEnd s := by
    funext n p
    simp only [farEnd, hmesh, hdim, hwith, hcoord, hrole, hdirect]
  have hback : backPort t = backPort s := by funext p; rw [backPort, backPort, hmesh]
  funext m p
  simp only [linkIsUp, hme, hserv, h, hfar, hback]

/-- The routes of a module depend on its Mortar state alone. -/
theorem route_congr (h : t.mortar = s.mortar) : route t = route s := by
  obtain ⟨hme, hmesh, hsize, hcoord, hwith, hdim⟩ := fabric_congr h
  obtain ⟨hserv, hrole, hdirect⟩ := port_congr h
  have hup := linkIsUp_congr h
  have hway : wayUp t = wayUp s := by
    funext n d z a k neg
    rw [wayUp, wayUp, hwith, hup]
  have hdir : dimDir t = dimDir s := by
    funext n d b
    rw [dimDir, dimDir, hdim, hcoord, hway]
  funext d
  simp only [route, hme, hmesh, hrole, hdirect, hserv, hsize, hup, hcoord, hwith, hdir]

/-! ### The scoreboard (R190 to R192, R314) -/

theorem reachPart_of_clear {l : List Nat} {rs : List Range} (h : reachRanges s l rs = none) :
    ∀ r ∈ rs, ∀ u ∈ unitsOf r, reachPart s l r u = .ok := by
  induction rs with
  | nil => exact fun r hr => nomatch hr
  | cons x rs ih =>
    unfold reachRanges at h
    split at h
    · cases h
    case h_2 hfind =>
      split at h
      · cases h
      · refine List.forall_mem_cons.2 ⟨fun u hu => ?_, ih h⟩
        simpa using List.find?_eq_none.1 hfind u hu

/-- What the Slab and the Hod engines do does not bear on what can be reached. -/
theorem reachRanges_beside (b : Slab) (h : Hod) (l : List Nat) (rs : List Range) :
    reachRanges { s with slab := b, hod := h } l rs = reachRanges s l rs := by
  have hroute : ∀ d, reachable { s with slab := b, hod := h } d = reachable s d := fun d =>
    congrArg (fun f : Nat → Option (Nat × Nat) => (f d).isSome) (route_congr rfl)
  have hback : ∀ x, backing { s with slab := b, hod := h } x = backing s x := fun x => by
    cases x with
    | neighbour a =>
      simp only [backing, hroute]
      rfl
    | _ => rfl
  have hpart : ∀ r u, reachPart { s with slab := b, hod := h } l r u = reachPart s l r u := fun r u => by
    simp only [reachPart, reachUnit, hback]
    rfl
  have hpoison : ∀ r, poisonedIn { s with slab := b, hod := h } r = poisonedIn s r := fun _ => rfl
  induction rs with
  | nil => rfl
  | cons r rs ih => simp only [reachRanges, hpart, hpoison, ih]

theorem opBlocked_beside {b : Slab} (h : Hod) (hb : b.gathers = s.slab.gathers) (op : SlabOp) :
    opBlocked { s with slab := b, hod := h } op = opBlocked s op := by
  have hranges : opRanges { s with slab := b, hod := h } op = opRanges s op := rfl
  have hgot : opGot { s with slab := b, hod := h } op = opGot s op := by
    unfold opGot
    split
    · rfl
    · exact congrArg (fun l : List RerankReq => ((l.find? _).map (·.got)).getD []) hb
    · rw [hranges]
  unfold opBlocked
  rw [hgot]
  exact reachRanges_beside _ _ _ _

theorem askOp_clear (h : opBlocked s op = none) : askOp s op = s := by
  have hpart : ∀ r ∈ opRanges s op, ∀ u ∈ unitsOf r, askOpPart op r s u = s := fun r hr u hu => by
    simp only [askOpPart, reachPart_of_clear h r hr u hu]
  have hfix : ∀ {α : Type} {f : State → α → State} (l : List α), (∀ x ∈ l, f s x = s) → l.foldl f s = s :=
    fun l hf => List.foldlRecOn (motive := (· = s)) l _ rfl fun t ht x hx => ht.symm ▸ hf x hx
  exact hfix _ fun r hr => hfix _ (hpart r hr)

theorem findOwn_mapIf {o : Own} {id : Nat} {f : Machine.Stream → Machine.Stream} {l : List Machine.Stream}
    (hf : ∀ t, (f t).own = t.own) (h : (l.find? fun t => t.own == some o).isSome = true) :
    ((mapIf (·.id == id) f l).find? fun t => t.own == some o).isSome = true := by
  rw [List.find?_isSome] at h ⊢
  obtain ⟨t, ht, ho⟩ := h
  refine ⟨_, List.mem_map_of_mem (f := fun t => if t.id == id then f t else t) ht, ?_⟩
  split
  · rwa [hf]
  · exact ho

/-- Starting a stream of the module's own changes the Hod engines alone, and the stream stays bound. -/
theorem startOwn_spec (s : State) (o : Own) :
    startOwn s o = { s with hod := (startOwn s o).hod } ∧
      ((findOwn s o).isSome = true → (findOwn (startOwn s o) o).isSome = true) := by
  unfold startOwn
  split
  · exact ⟨rfl, id⟩
  · dsimp only
    split
    · exact ⟨rfl, fun h => findOwn_mapIf (fun _ => rfl) (findOwn_mapIf (fun _ => rfl) h)⟩
    · exact ⟨rfl, findOwn_mapIf fun _ => rfl⟩

theorem bindLoad_spec (s : State) (op : SlabOp) :
    bindLoad s op = { s with hod := (bindLoad s op).hod } ∧
      (findOwn (bindLoad s op) (.load op.id)).isSome = true := by
  obtain ⟨hsame, hfind⟩ := startOwn_spec
    (bindOwn s (.load op.id) ((opCmd op).getD 0) op.urgent ((opRanges s op).head?.map (·.addr))) (.load op.id)
  exact ⟨hsame, hfind (by simp [findOwn, bindOwn, Machine.bind])⟩

/-- The array takes a pair that is loaded where the other pair is free. -/
theorem startCompute_loaded {b : Slab} {ops : List SlabOp} (h0 : b.pair0 = .loaded ops) (h1 : b.pair1 = .free) :
    startCompute b = { b with
      rescale := (takeRescale b.rescale ops).1, pair0 := .compute (takeRescale b.rescale ops).2 } := by
  have h2 : isCompute b.pair0 = false := by rw [h0]; rfl
  have h3 : isCompute b.pair1 = false := by rw [h1]; rfl
  have h4 : olderIs0 b = true := by simp [olderIs0, h0, h1]
  rw [startCompute, h2, h3]
  simp [computePair, h0, h4]

theorem endOwn_same (s : State) (o : Own) : endOwn s o = { s with hod := (endOwn s o).hod } := by
  unfold endOwn
  split <;> rfl

theorem endOwns_same (ops : List SlabOp) (s : State) :
    ops.foldl (fun s op => endOwn s (.load op.id)) s =
      { s with hod := (ops.foldl (fun s op => endOwn s (.load op.id)) s).hod } := by
  induction ops generalizing s with
  | nil => rfl
  | cons op ops ih => 
    rw [List.foldl_cons, ih (endOwn s (.load op.id)), endOwn_same s (.load op.id)]

/-- Settles O15. -/
theorem slabAdmitsAndLoads : Obligations.SlabAdmitsAndLoads := by
  refine ⟨fun s op rest h0 hq hpack hon hblock => ?_, ?_, fun s => rfl, fun q op rest hq hurgent x hx => ?_⟩
  · let s1 := { s with slab := { s.slab with
      queue := s.slab.queue.filter (fun x => !([op.id].contains x.id))
      pair0 := .prologue [op]
      pair0First := s.slab.pair1 == PairState.free
      rescaleLoading := s.slab.rescaleLoading || isLoad op } }
    obtain ⟨hsame, hfind⟩ := bindLoad_spec s1 op
    have hclear : opBlocked (bindLoad s1 op) op = none := by
      rw [hsame]
      exact (opBlocked_beside (s := s) (b := s1.slab) (bindLoad s1 op).hod rfl op).trans hblock
    have hask : askOp (bindLoad s1 op) op = bindLoad s1 op := askOp_clear hclear
    refine ⟨bindLoad s1 op, ?_, by rw [hsame], hfind, by rw [hsame]⟩
    have h : exec .slabPairAdmit s = execSlabPairAdmit s := rfl
    rw [h, execSlabPairAdmit]
    have hops : admitOps s true [op] = bindLoad s1 op := by
      rw [← hask]
      simp [admitOps, s1]
    simp [h0, hq, hon, hblock, packMates, hpack, hops]
  · intro s ops h0 h1 hon hops x
    have hall : ops.all (fun op => ownInFlight s (.load op.id) && !opAwaits s op) = true :=
      List.all_eq_true.2 fun op hop => by simp [(hops op hop).1, (hops op hop).2.1]
    have hblock : ops.findSome? (fun op => (opBlocked s op).map fun x => (op, x)) = none :=
      List.findSome?_eq_none_iff.2 fun op hop => by simp [(hops op hop).2.2]
    have h : exec (.slabPrologueEnd 0) s = execSlabPrologueEnd 0 s := rfl
    refine ⟨pairLoaded s true ops, ?_, ?_, ?_⟩
    · rw [h, execSlabPrologueEnd]
      simp [h0, hon, hall, endPrologue, hblock]
    · rw [pairLoaded, endOwns_same]
      exact startCompute_loaded rfl h1
    · rw [pairLoaded, endOwns_same]
  · have hnone : q.filter (·.urgent) = [] := by
      rcases hl : q.filter (·.urgent) with _ | ⟨y, l⟩
      · exact hl
      · have hy : y ∈ q.filter (·.urgent) := by simp [hl]
        have hop : y = op := by
          rw [admitOrder, hl] at hq
          exact (List.cons.inj hq).1
        rw [← hop, (List.mem_filter.1 hy).2] at hurgent
        cases hurgent
    simpa using List.filter_eq_nil_iff.1 hnone x hx

/-! ### Compute and epilogues (R190, R194, R222 to R226) -/

/-- No pair is taken into compute where none is loaded. -/
theorem startCompute_free {b : Slab} (h0 : b.pair0 = .free) (h1 : b.pair1 = .free) : startCompute b = b := by
  simp [startCompute, computePair, olderIs0, isCompute, h0, h1]

theorem exec_slabEpilogueEnd {rest : List (List SlabOp)} (hep : s.slab.epilogue = [op] :: rest)
    (hon : slabOn s = true) (hclear : epilogueBlock s [op] = none) :
    exec .slabEpilogueEnd s =
      .next (finishGroup { s with slab := { s.slab with epilogue := rest } } [op]) := by
  have h : exec .slabEpilogueEnd s = execSlabEpilogueEnd s := rfl
  rw [h, execSlabEpilogueEnd]
  simp [hep, hon, hclear]

/-! ### Rescale entries (R213) -/

theorem find?_insertBy {α : Type} {p : α → Bool} {key : α → Nat} {lt : α → α → Bool}
    (hlt : ∀ a b, lt a b = true ↔ key a < key b) (hp : ∀ a b, p a = true → p b = true → key a = key b) (x : α)
    {l : List α} (hl : l.Pairwise (key · ≤ key ·)) :
    (insertBy lt x l).find? p = (l ++ [x]).find? p := by
  induction l with
  | nil => rfl
  | cons y ys ih =>
    obtain ⟨hy, hys⟩ := List.pairwise_cons.1 hl
    unfold insertBy
    split
    case isFalse => 
      rw [List.cons_append, List.find?_cons, List.find?_cons, ih hys]
    case isTrue hxy =>
      have hxy := (hlt x y).1 hxy
      cases hx : p x with
      | false => simp [List.find?_cons, List.find?_append, hx]
      | true =>
        have hnone : (y :: ys).find? p = none := List.find?_eq_none.2 fun z hz hpz => by
          have hz' : key y ≤ key z := by
            rcases List.mem_cons.1 hz with rfl | hz
            · exact le_rfl
            · exact hy z hz
          have := hp x z hx hpz
          omega
        rw [List.find?_append, hnone]
        simp [hx]

/-- A sort is stable: it finds the first of a key where the list does. -/
theorem find?_sortBy {α : Type} {p : α → Bool} {key : α → Nat} {lt : α → α → Bool}
    (hlt : ∀ a b, lt a b = true ↔ key a < key b) (hp : ∀ a b, p a = true → p b = true → key a = key b)
    (l : List α) : (sortBy lt l).find? p = l.find? p := by
  induction l using List.reverseRecOn with
  | nil => rfl
  | append_singleton l x ih =>
    rw [sortBy_concat, find?_insertBy hlt hp x (sortBy_ordered hlt l), List.find?_append, ih,
      List.find?_append]

theorem channel_sorted (l : List (Nat × F32 × BitVec 32)) (i : Nat) :
    channel (sortBy (fun a b => decide (a.1 < b.1)) l) i = channel l i := by
  have h : (sortBy (fun a b => decide (a.1 < b.1)) l).find? (·.1 == i) = l.find? (·.1 == i) :=
    find?_sortBy (key := (·.1)) (fun a b => decide_eq_true_iff) (fun a b ha hb => by
      rw [beq_iff_eq.1 ha, beq_iff_eq.1 hb]) l
  rw [channel, channel, h]

/-- A channel reads the value that all its entries have; one without an entry reads scale 1.0, offset 0. -/
theorem channel_of_entries {l : List (Nat × F32 × BitVec 32)} {i : Nat} {v : F32 × BitVec 32}
    (hall : ∀ e ∈ l, e.1 = i → e.2 = v) (hmem : v ≠ (one32, 0) → (i, v) ∈ l) : channel l i = v := by
  unfold channel
  split
  case h_1 e he => exact hall e (List.mem_of_find?_eq_some he) (by simpa using List.find?_some he)
  case h_2 he =>
    by_contra hv
    simpa using List.find?_eq_none.1 he _ (hmem (Ne.symm hv))

theorem channel_loadRescale_other {m : List (Nat × F32 × BitVec 32)} {base i : Nat}
    {es : List (F32 × BitVec 32)} (hi : i < base ∨ base + es.length ≤ i) :
    channel (loadRescale m base es) i = channel m i := by
  unfold loadRescale
  dsimp only
  have hnew : ((es.zipIdx.map fun e => (base + e.2, e.1.1, e.1.2)).filter fun e =>
      !(e.2.1 == one32 && e.2.2 == 0)).find? (·.1 == i) = none := List.find?_eq_none.2 fun x hx hxi => by
    obtain ⟨⟨e, j⟩, he, rfl⟩ := List.mem_map.1 (List.mem_filter.1 hx).1
    have hj := (List.mem_zipIdx he).2.1
    have hij : base + j = i := beq_iff_eq.1 hxi
    omega
  have hold : (m.filter fun e => e.1 < base || base + es.length ≤ e.1).find? (·.1 == i) =
      m.find? (·.1 == i) := by
    rw [List.find?_filter]
    congr 1
    funext e
    by_cases he : e.1 = i
    · simp [he, hi]
    · simp [he]
  rw [channel_sorted, channel, channel, List.find?_append, hnew, hold, Option.or_none]

theorem channel_loadRescale_at {m : List (Nat × F32 × BitVec 32)} {base j : Nat}
    {es : List (F32 × BitVec 32)} {e : F32 × BitVec 32} (he : es[j]? = some e) :
    channel (loadRescale m base es) (base + j) = e := by
  unfold loadRescale
  dsimp only
  rw [channel_sorted]
  refine channel_of_entries (fun x hx hxi => ?_) (fun hne => ?_)
  · rcases List.mem_append.1 hx with hx | hx
    · have hlen : j < es.length := (List.getElem?_eq_some_iff.1 he).1
      have hout := (List.mem_filter.1 hx).2
      simp only [Bool.or_eq_true, decide_eq_true_eq] at hout
      omega
    · obtain ⟨⟨y, n⟩, hy, rfl⟩ := List.mem_map.1 (List.mem_filter.1 hx).1
      have hn : n = j := by simpa using hxi
      rw [List.mem_zipIdx_iff_getElem?, hn, he] at hy
      exact (Option.some.inj hy).symm
  · refine List.mem_append_right _ (List.mem_filter.2 ⟨List.mem_map.2
      ⟨(e, j), List.mem_zipIdx_iff_getElem?.2 he, rfl⟩, ?_⟩)
    simpa [Prod.ext_iff, imp_iff_not_or] using hne

/-- Settles O16. -/
theorem slabComputesAndFinishes : Obligations.SlabComputesAndFinishes := by
  refine ⟨⟨fun s ops h0 h1 hon => ?_, fun s op rest hep hon hclear => ?_⟩, fun m base es i =>
    ⟨channel_loadRescale_other, fun j e => channel_loadRescale_at, rfl⟩⟩
  · have h : exec .slabComputeEnd s = execSlabComputeEnd s := rfl
    rw [h, execSlabComputeEnd]
    simp only [hon, h0, h1, endCompute, Bool.not_true, Bool.false_eq_true, if_false, if_true]
    rw [startCompute_free rfl (by exact rfl)]
  · intro s1
    rw [exec_slabEpilogueEnd hep hon hclear]
    have hgroup : finishGroup { s with slab := { s.slab with epilogue := rest } } [op] = finishOp s1 op := rfl
    rw [hgroup, finishOp]
    refine ⟨fun r part n hw => ?_, fun r hw => ?_, fun id coll v hw => ?_, fun c base es hw hc hcount => ?_⟩
    · simp [opWanted, opCmd, hw]
    · simp [opWanted, opCmd, hw]
    · simp [opWanted, opCmd, hw]
    · have hc' : findCmd s1 c.id = some c := hc
      simp [opWanted, opCmd, hw, hc', opDone, hcount]

end Sys2Proof.SlabRuns
end

section
/-!
PROOF. The waits of the live index, and NAND programs, dies and refreshes (R148, R174, R353, R554 to R559).
-/

open Sys2Proof Sys2Proof.Machine Sys2Proof.Steps Sys2Proof.Lists Sys2Proof.Index

namespace Sys2Proof.Nand

variable {s : State} {c : Cmd}

/-! ### Waits (R148, R160, R169, R174, R353) -/

theorem wakeFrom_waiting {w : Wait} {ok : Wait → Bool} (hc : findCmd s c.id = some c)
    (hph : c.phase = .waiting w) (hok : ok w = true) : wakeFrom s c.id ok = setPhase s c.id .ready := by
  simp [wakeFrom, hc, hph, hok]

/-- Settles O21. Each wait ends for the phase it stands for. -/
theorem liveIndexWaitsEnd : Obligations.LiveIndexWaitsEnd := by
  intro s c hc woken
  have hretire : findCmd (retire s) c.id = some c := by
    rw [findCmd, (indexWrites_retire s).sched]
    exact hc
  refine ⟨fun hph => ?_, fun hph => ?_, fun hph => ?_, fun hph => ?_, fun w hw hph => ?_,
    fun l hl hheld hfree hph => ?_, fun x hph => ?_⟩
  · exact congrArg Host.Outcome.next (wakeFrom_waiting hretire hph rfl)
  · exact congrArg Host.Outcome.next (wakeFrom_waiting hc hph rfl)
  · exact congrArg Host.Outcome.next (wakeFrom_waiting hc hph rfl)
  · exact congrArg Host.Outcome.next (wakeFrom_waiting hc hph rfl)
  · refine congrArg Host.Outcome.next (wakeFrom_waiting hc hph ?_)
    revert w
    simp [dispatchWait]
  · have h : exec (.rangeLockGrant c.id) s = .next (grantLock s c.id) := rfl
    rw [h, grantLock, hl]
    simp only [hheld, hfree, Bool.not_false, Bool.and_self, if_true]
    exact congrArg Host.Outcome.next (wakeFrom_waiting hc hph rfl)
  · have h : exec (.sealDurable c.id) s = execSealDurable c.id s := rfl
    refine ⟨freePrograms s fun p => p.cmd == some c.id, ?_, rfl, rfl, rfl, rfl⟩
    rw [h, execSealDurable, hc]
    simp only [hph]

/-! ### Programs, dies and refreshes (R52, R90, R554, R555, R559) -/

theorem modAt_congr_at {α : Type} {l : List α} {i : Nat} {f g : α → α} {d : α}
    (h : f (l.getD i d) = g (l.getD i d)) : modAt l i f = modAt l i g := by
  induction l generalizing i with
  | nil => rfl
  | cons x l ih =>
    cases i with
    | zero => exact congrArg (· :: l) h
    | succ i => exact congrArg (x :: ·) (ih h)

/-- The record of an error. -/
def hwRecord (s : State) (cls source unit location status action : Nat) : HwRec := {
  number := s.hw.next, cls := cls, source := source, unit := unit, time := now s, location := location
  status := status, action := action, count := sat 0xFFFFFFFF (corrections s source unit + b2n (cls == 0)) }

/-- An error that is recorded is the log's last record. -/
theorem hwError_getLast (s : State) {cls action : Nat} (source unit location status : Nat)
    (h : cls ≠ 0 ∨ action ≠ 0) : (hwError s cls source unit location status action).hw.log.getLast? =
      some (hwRecord s cls source unit location status action) := by
  have hrec : (cls == 0 && action == 0) = false := by
    rcases h with h | h <;> simp [h]
  have hlog : (hwError s cls source unit location status action).hw.log =
      (s.hw.log ++ [hwRecord s cls source unit location status action]).drop
        ((s.hw.log ++ [hwRecord s cls source unit location status action]).length - 16384) := by
    rw [hwError]
    simp only [hrec, Bool.false_eq_true, if_false]
    rfl
  rw [hlog, List.getLast?_drop]
  simp

theorem hwError_log (s : State) {cls action : Nat} (source unit location status : Nat)
    (h : cls ≠ 0 ∨ action ≠ 0) :
    ∃ r, (hwError s cls source unit location status action).hw.log.getLast? = some r ∧ r.cls = cls ∧
      r.source = source ∧ r.unit = unit ∧ r.status = status :=
  ⟨_, hwError_getLast s source unit location status h, rfl, rfl, rfl, rfl⟩

/-- An error changes the log with its counters, the alert pin and Uzone alone. -/
theorem hwError_same (s : State) (cls source unit location status action : Nat) :
    hwError s cls source unit location status action =
      { s with
        hw := (hwError s cls source unit location status action).hw
        pins := (hwError s cls source unit location status action).pins
        uzone := (hwError s cls source unit location status action).uzone } := by
  unfold hwError
  dsimp only
  split <;> rfl

theorem startPrograms_refresh (k : Brick) (l : List (Nat × Nat)) (ps : List Program) :
    startPrograms { { k with refresh := l } with programs := ps } =
      { startPrograms { k with programs := ps } with refresh := l } := rfl

theorem bricks_writeBlock (s : State) (c : Coll) (x : Block) :
    writeBlock s c x = { s with
      mem := (writeBlock s c x).mem, uzone := (writeBlock s c x).uzone, mortar := (writeBlock s c x).mortar
      hw := { s.hw with poisoned := (writeBlock s c x).hw.poisoned } } :=
  written_deviceWrite _ _ _ _

/-- Settles O22. -/
theorem nandProgramsDiesAndRefreshes : Obligations.NandProgramsDiesAndRefreshes := by
  intro s b hlen k
  have hb : b.toNat < s.bricks.length := hlen ▸ b.isLt
  refine ⟨fun p hp => ⟨?_, ?_⟩, fun d hd => ?_, fun coll slot rest c x href hc hx hbrick => ?_⟩
  · intro s1
    have hp' : (s.bricks.getD b.toNat {}).programs.find? (·.started) = some p := hp
    let s2 : State := { s with
      bricks := modAt s.bricks b.toNat fun y => startPrograms { y with programs := k.programs.erase p }
      index := { s.index with staging := modAt s.index.staging p.course (· - p.bytes) } }
    have hs : s2 = s1 := congrArg (fun l : List Brick => ({ s1 with bricks := l } : State))
      (modAt_congr_at (d := {}) rfl)
    have h : exec (.nandProgramComplete b false true) s = .next (programEnd s b.toNat true) := rfl
    rw [h, programEnd, hp', ← hs]
    rfl
  · have hp' : (s.bricks.getD b.toNat {}).programs.find? (·.started) = some p := hp
    let s2 : State := { s with
      bricks := modAt s.bricks b.toNat fun y => startPrograms { y with
        programs := k.programs.erase p ++ [{ p with started := false }] } }
    have h : exec (.nandProgramComplete b false false) s = .next (retireBlock s2 b.toNat) := by
      have h : exec (.nandProgramComplete b false false) s = .next (programEnd s b.toNat false) := rfl
      rw [h, programEnd, hp']
      rfl
    refine ⟨_, h, ?_, ?_, ?_, ?_, ?_⟩
    · rw [retireBlock, hwError_same]
      dsimp only [s2]
      rw [modAt_modAt, getD_modAt_self hb]
    · rw [retireBlock, hwError_same]
      dsimp only [s2]
      rw [modAt_modAt, getD_modAt_self hb]
      rfl
    · let page := Config.freePage s2.drawn % 8 * 2 ^ 61 + Config.freePage (s2.drawn + 1) % 2 ^ 36
      obtain ⟨r, hr, hcls, hsrc, hunit, -⟩ := hwError_log { s2 with
        bricks := modAt s2.bricks b.toNat fun k => { k with retired := k.retired + 1 }
        drawn := s2.drawn + 2 } (cls := 0) (action := 2) 0x11 b.toNat page 0 (.inr (by decide))
      exact ⟨r, hr, hcls, hsrc, hunit⟩
    · rw [retireBlock, hwError_same]
    · rw [retireBlock, hwError_same]
  · let s1 : State := { s with
      bricks := modAt s.bricks b.toNat fun k => { k with deadDies := k.deadDies ++ [d.toNat] } }
    have hd' : (s.bricks.getD b.toNat {}).deadDies.contains d.toNat = false := hd
    have h : exec (.nandDieFailure b d) s = .next (hwError s1 1 0x12 b.toNat (d.toNat * 2 ^ 61) 0x32 3) := by
      have h : exec (.nandDieFailure b d) s = execNandDieFailure b d s := rfl
      rw [h, execNandDieFailure]
      simp only [hd', Bool.false_eq_true, if_false]
      rfl
    refine ⟨_, h, ?_, hwError_log s1 0x12 b.toNat (d.toNat * 2 ^ 61) 0x32 (.inl (by decide)), ?_, ?_, ?_⟩
    · rw [hwError_same]
      exact congrArg Brick.deadDies (getD_modAt_self hb)
    · rw [hwError_same]
    · rw [hwError_same]
    · rw [hwError_same]
  · let s1 : State := { s with bricks := modAt s.bricks b.toNat fun k => { k with refresh := rest } }
    let p : Program := { cmd := none, course := b.toNat / 8, bytes := 0, plane := planeOf slot }
    have href' : (s.bricks.getD b.toNat {}).refresh = (coll, slot) :: rest := href
    have h : exec (.blockRefresh b) s = .next (addProgram (writeBlock s1 c x) b.toNat p) := by
      have h : exec (.blockRefresh b) s = execBlockRefresh b s := rfl
      have hc' : findColl s1 coll = some c := hc
      rw [h, execBlockRefresh, href']
      dsimp only
      rw [refreshBlock, hc']
      dsimp only
      rw [hx]
      dsimp only
      rw [hbrick]
    have hbr : ((addProgram (writeBlock s1 c x) b.toNat p).bricks.getD b.toNat {}) =
        { startPrograms { k with programs := k.programs ++ [p] } with refresh := rest } := by
      rw [addProgram, bricks_writeBlock]
      dsimp only [s1]
      rw [modAt_modAt, getD_modAt_self hb]
      rfl
    refine ⟨_, h, ?_, ?_, ?_, ?_⟩
    · rw [hbr]
    · rw [hbr]
    · rw [addProgram, bricks_writeBlock]
    · rw [addProgram, bricks_writeBlock]

end Sys2Proof.Nand
end

section
/-!
PROOF. INSERT and UPDATE (R151 to R162), REPAIR and COMPACT (R61, R163 to R165, R177).
-/

open Sys2Proof Sys2Proof.Machine Sys2Proof.Steps Sys2Proof.Lists Sys2Proof.Index

namespace Sys2Proof.Commits

variable {s : State} {q : QueueId} {c : Cmd} {k k1 : Coll} {recs : List InsRec} {places : List Place}

/-! ### INSERT and UPDATE -/

/-- An INSERT needs its IDs not LIVE; an UPDATE may name them. -/
def Admits (c : Cmd) (k : Coll) (recs : List InsRec) : Prop := opIs 0x22 c = true ∨ liveErr k recs = none

/-- A command whose sketches are still to come asks the Slab for them. -/
theorem insRun_asks (h : Admits c k recs) (hw : s.lintel.withheld = false)
    (hroom : stagingRoom s k.desc recs.length = true) (hproj : c.projected = false)
    (hkv5 : k.proj.kv5 = false) : insRun s c k recs = slabEnqueue s (sketchOp k c recs.length) := by
  have herr : (if opIs 0x22 c then none else liveErr k recs) = none := by
    rcases h with h | h <;> simp [h]
  rw [insRun, herr]
  simp [withheldErr, must, hw, hroom, hproj, hkv5]

/-- The places of the nodes of an INSERT or UPDATE, behind the boundaries that are due. -/
def placesOf (s : State) (k : Coll) (recs : List InsRec) : State × Option (List Place) :=
  assignSlots k.id (closeDue (retire s)) (recs.map fun r => !(recCopy k.desc r).side.isEmpty) []

/-- A command that has its sketches and finds its slots builds its nodes. -/
theorem insRun_builds (h : Admits c k recs) (hw : s.lintel.withheld = false)
    (hroom : stagingRoom s k.desc recs.length = true) (hproj : c.projected = true ∨ k.proj.kv5 = true)
    (hplaces : (placesOf s k recs).2 = some places) (hk1 : findColl (placesOf s k recs).1 k.id = some k1)
    (hcomp : (places.map (·.slot) ++ replaced k1 recs).any (compactingSlot k1) = false) :
    insRun s c k recs = insBuild (placesOf s k recs).1 c k1 recs places := by
  have herr : (if opIs 0x22 c then none else liveErr k recs) = none := by
    rcases h with h | h <;> simp [h]
  have hask : (!c.projected && !k.proj.kv5) = false := by
    rcases hproj with h | h <;> simp [h]
  have hcomp' : (places.map (·.slot) ++ (if opIs 0x22 c then replaced k1 recs else [])).any
      (compactingSlot k1) = false := by
    rw [List.any_append, Bool.or_eq_false_iff] at hcomp ⊢
    refine ⟨hcomp.1, ?_⟩
    split
    · exact hcomp.2
    · rfl
  unfold placesOf at hplaces hk1 ⊢
  rw [insRun, herr]
  simp only [withheldErr, must, hw, hroom, hask, Bool.not_true, Bool.not_false, if_true, Bool.false_eq_true,
    if_false, hplaces, hk1, hcomp']

/-- Nodes that are built, and whose structures are at hand and have room, are committed. -/
theorem insBuild_commits
    (hroom : changeRoom s (((replaced k1 recs).filter fun x => (changeOf s k1.id x).isNone) ++
      (pruned s k1 (buildNodes s c.loaded k1 (recs.zip places))).map (·.place.slot)) = true)
    (herr : (buildNodes s c.loaded k1 (recs.zip places)).findSome? (·.err) = none)
    (hstop : (buildNodes s c.loaded k1 (recs.zip places)).findSome? (·.stop) = none)
    (hcopies : ∀ n ∈ buildNodes s c.loaded k1 (recs.zip places), ∀ y ∈ n.cands,
      ∀ r ∈ copyRanges k1 y.num, bulkHomed s r = false)
    (hpatch : patchRoom s k1.desc ((pruned s k1 (buildNodes s c.loaded k1 (recs.zip places))).flatMap
      (nodePatches k1 s.epochs.opened)) = true)
    (hreach : reachRanges s c.loaded
      (nodeRanges s.mem k1 (pruned s k1 (buildNodes s c.loaded k1 (recs.zip places)))) = none)
    (hreads : ∀ r ∈ nodeRanges s.mem k1 (pruned s k1 (buildNodes s c.loaded k1 (recs.zip places))),
      r.write = false → bulkHomed s r = false) :
    insBuild s c k1 recs places =
      commitInsert s c k1 recs (pruned s k1 (buildNodes s c.loaded k1 (recs.zip places))) := by
  have hflat : ∀ r ∈ (buildNodes s c.loaded k1 (recs.zip places)).flatMap fun n =>
      n.cands.flatMap fun y => copyRanges k1 y.num, bulkHomed s r = false := fun r hr => by
    obtain ⟨n, hn, hr⟩ := List.mem_flatMap.1 hr
    obtain ⟨y, hy, hr⟩ := List.mem_flatMap.1 hr
    exact hcopies n hn y hy r hr
  have hleft : ∀ r ∈ (nodeRanges s.mem k1 (pruned s k1 (buildNodes s c.loaded k1 (recs.zip places)))).filter
      fun r => !r.write, bulkHomed s r = false := fun r hr => by
    obtain ⟨hr, hw⟩ := List.mem_filter.1 hr
    exact hreads r hr (by simpa using hw)
  simp only [insBuild, herr, hstop]
  rw [readPages_of_none_bulk hflat]
  simp only [insCommit, hroom, hpatch, Bool.not_true, Bool.false_eq_true, if_false]
  rw [touching_clear hreach, readPages_of_none_bulk hleft]

/-- A command over vector IDs that holds its range acts on its collection. -/
theorem onIds_held {l : Lock} {ids : List Nat} {act : State → Cmd → Coll → State}
    (hborn : c.born = some k.born) (hk : findColl s (entColl c) = some k) (hl : lockOf s c.id = some l)
    (hheld : l.held = true) :
    onIds s c ids act = act (updCmd s c.id fun x => { x with born := some k.born }) c k := by
  have hc : ({ c with born := some k.born } : Cmd) = c := by rw [← hborn]
  have hk' : findColl (updCmd s c.id fun x => { x with born := some k.born }) (entColl c) = some k := hk
  have hl' : lockOf (updCmd s c.id fun x => { x with born := some k.born }) c.id = some l := hl
  simp only [onIds, hk, hborn, Option.getD_some, hc]
  rw [locked_held hl' hheld]
  simp [hk']

theorem actInsert_dispatched {s2 : State} (hborn : c.born = none)
    (hd : insDispatch s c (insRecs s c) = (s2, none)) (hk : findColl s2 (entColl c) = some k)
    (hl : LockAtOnce s2 (idLock c ((insRecs s c).map (·.vid)))) :
    actInsert s c = insRun (holding s2 c k (idLock c ((insRecs s c).map (·.vid))))
      { c with born := some k.born } k (insRecs s c) := by
  have hid : k.id = entColl c := id_of_findColl hk
  simp only [actInsert, hborn, Option.isSome_none, Bool.false_eq_true, if_false, hd]
  exact onIds_once hborn hid (hid ▸ hk) hl

theorem actInsert_held {l : Lock} (hborn : c.born = some k.born) (hk : findColl s (entColl c) = some k)
    (hl : lockOf s c.id = some l) (hheld : l.held = true) :
    actInsert s c = insRun (updCmd s c.id fun x => { x with born := some k.born }) c k (insRecs s c) := by
  simp only [actInsert, hborn, Option.isSome_some, if_true]
  exact onIds_held hborn hk hl hheld

/-- Settles O17. INSERT and UPDATE are dispatched alike and end alike. -/
theorem insertAndUpdateCommitAtTheOpenEpoch : Obligations.InsertAndUpdateCommitAtTheOpenEpoch := by
  intro s q c k recs
  constructor
  · intro b2 hborn hd hk hl hw hroom hproj hkv5 hp h cmd
    have hrun : Admits (ran c) k recs → actInsert (begun s c []) (ran c) =
        slabEnqueue h (sketchOp k cmd recs.length) := fun ha =>
      (actInsert_dispatched (s := begun s c []) (c := ran c) hborn hd hk hl).trans
        (insRun_asks (s := h) (c := cmd) ha hw hroom hproj hkv5)
    refine ⟨fun ht hlive => ?_, fun ht => ?_⟩
    · exact congrArg Host.Outcome.next ((runCommand_passes ht hp).trans (hrun (.inr hlive)))
    · have hop : opIs 0x22 c = true := mine_of_pick ht.1
      exact congrArg Host.Outcome.next ((runCommand_passes ht hp).trans (hrun (.inl hop)))
  · intro k1 places l run g a built ns old fresh e reads done hchk hborn hk hl hheld hw hroom hproj hplaces hk1
      hcomp herr hstop hcopies hchange hpatch hreach hreads
    have hrunc : ({ c with phase := .running } : Cmd) = run :=
      congrArg (fun b => ({ c with phase := .running, born := b } : Cmd)) hborn
    have hrun : Admits run k recs → actInsert (setPhase s c.id .running) { c with phase := .running } =
        commitInsert a.1 run k1 recs ns := fun ha => by
      have hact : actInsert (setPhase s c.id .running) run = insRun g run k recs :=
        actInsert_held rfl hk hl hheld
      have hbuild : insRun g run k recs = insBuild a.1 run k1 recs places :=
        insRun_builds ha hw hroom hproj hplaces hk1 hcomp
      rw [hrunc, hact, hbuild]
      exact insBuild_commits hchange herr hstop hcopies hpatch hreach hreads
    refine ⟨fun ht hlive => ?_, fun ht => ?_⟩
    · refine congrArg Host.Outcome.next ((runCommand_again ht hchk).trans ((hrun (.inr hlive)).trans ?_))
      have hop : opIs 0x22 run = false := by
        have h20 : opIs 0x20 c = true := mine_of_pick ht.1
        have hcode : entOpcode run = 0x20 := beq_iff_eq.1 h20
        rw [opIs, hcode]
        rfl
      simp only [commitInsert, hop, Bool.false_eq_true, if_false]
      rfl
    · have h22 : opIs 0x22 c = true := mine_of_pick ht.1
      have hop : opIs 0x22 run = true := h22
      refine congrArg Host.Outcome.next ((runCommand_again ht hchk).trans ((hrun (.inl hop)).trans ?_))
      simp only [commitInsert, hop, if_true]
      rfl

/-! ### REPAIR (R163 to R165) -/

/-- The repair epoch is set in the entries of the slots that a REPAIR frees. -/
def setRepaired (coll e : Nat) (s : State) (x : Slot) : State :=
  setEpochs s coll x.num x.vid fun y => { y with rep := some e }

/-- Beside the change table `t` is as `s` is. -/
def ChangesOnly (s t : State) : Prop := t = { s with index := { s.index with changes := t.index.changes } }

theorem ChangesOnly.trans {s t u : State} (h1 : ChangesOnly s t) (h2 : ChangesOnly t u) : ChangesOnly s u := by
  unfold ChangesOnly at *
  rw [h2, h1]

theorem changesOnly_setRepaired (coll e : Nat) (s : State) (x : Slot) :
    ChangesOnly s (setRepaired coll e s x) := rfl

theorem setRepaired_spec (coll e : Nat) (dead : List Slot) (s : State) :
    let p := dead.foldl (setRepaired coll e) s
    ChangesOnly s p ∧
      (∀ x ∈ dead, ∃ y, changeOf p coll x.num = some y ∧ y.rep = some e) ∧
      ∀ slot, (∀ x ∈ dead, x.num ≠ slot) → changeOf p coll slot = changeOf s coll slot := by
  induction dead using List.reverseRecOn with
  | nil => exact ⟨rfl, fun _ h => (nomatch h), fun _ _ => rfl⟩
  | append_singleton l z ih =>
    obtain ⟨hsame, hset, hother⟩ := ih
    simp only [List.foldl_append, List.foldl_cons, List.foldl_nil]
    have hz : ∃ y, changeOf (setRepaired coll e (l.foldl (setRepaired coll e) s) z) coll z.num = some y ∧
        y.rep = some e := by
      obtain ⟨y, hy⟩ := changeOf_setEpochs_same (s := l.foldl (setRepaired coll e) s) (coll := coll)
        (slot := z.num) (vid := z.vid) (f := fun y => { y with rep := some e }) fun _ => ⟨rfl, rfl⟩
      exact ⟨_, hy, rfl⟩
    have hkeep : ∀ slot, slot ≠ z.num →
        changeOf (setRepaired coll e (l.foldl (setRepaired coll e) s) z) coll slot =
          changeOf (l.foldl (setRepaired coll e) s) coll slot := fun slot hne =>
      changeOf_setEpochs_other (fun _ => ⟨rfl, rfl⟩) hne
    refine ⟨hsame.trans (changesOnly_setRepaired _ _ _ _), fun x hx => ?_, fun slot hslot => ?_⟩
    · by_cases hxz : x.num = z.num
      · rwa [hxz]
      · rw [hkeep _ hxz]
        rcases List.mem_append.1 hx with hx | hx
        · exact hset x hx
        · exact absurd (congrArg Slot.num (List.mem_singleton.1 hx)) hxz
    · rw [hkeep _ (Ne.symm (hslot z (by simp)))]
      exact hother _ fun x hx => hslot x (List.mem_append_left _ hx)

/-- The patches of a REPAIR. -/
def repairPatches (s : State) (k : Coll) (pr : Nat) : List Patch :=
  (repairReads s k pr).flatMap fun x => match x.2 with
    | some b => repairBlock s k pr s.epochs.opened b x.1
    | none => []

/-- What a REPAIR leaves before it ends: the repair epochs, and its patches in the log. -/
def repaired (s : State) (k : Coll) (pr : Nat) : State :=
  let s1 := (repairDead s k pr).foldl (setRepaired k.id s.epochs.opened) s
  { s1 with index := { s1.index with patches := s1.index.patches ++ repairPatches s k pr } }

theorem closeDue_same (s : State) : closeDue s = { s with epochs := (closeDue s).epochs } :=
  closeDue_epochs rfl rfl

theorem release_updCmd (id : Nat) {f : Cmd → Cmd} (hf : ∀ c, (f c).pin = c.pin) :
    release (updCmd s id f) = release s := by
  have h : (updCmd s id f).sched.cmds.filterMap (·.pin) = s.sched.cmds.filterMap (·.pin) := by
    simp only [updCmd, mapIf, List.filterMap_map]
    refine List.filterMap_congr fun c _ => ?_
    simp only [Function.comp]
    split
    · exact hf c
    · rfl
  unfold release
  rw [h]
  rfl

/-- A REPAIR that no other holds up becomes its collection's, at the published epoch. -/
theorem actRepair_starts {e : Nat} (hk : findColl s (byteAt (maintBlock s c) 4) = some k)
    (hpin : c.pin = none) (hborn : c.born = none) (hrep : k.repairing = none)
    (hpub : s.epochs.published = e + 1) (hcommit : k.repairCommit ≤ release s) :
    actRepair s c = updCmd (updColl s k.id fun k => { k with repairing := some c.id }) c.id fun x => { x with
      phase := .ready, born := some k.born, pin := some (e + 1) } := by
  simp only [actRepair, hk, hpin, repairStart, hborn, hrep, hpub]
  simp [Nat.not_lt.2 hcommit]

theorem actRepair_pinned {pr : Nat} (hk : findColl s (byteAt (maintBlock s c) 4) = some k)
    (hpin : c.pin = some pr) : actRepair s c = repairRun s c k pr := by
  simp only [actRepair, hk, hpin]

/-- A REPAIR that nothing holds up, and whose blocks are sound, sets its epochs and its patches. -/
theorem repairRun_ok {pr : Nat} :
    let g := closeDue (retire s)
    s.lintel.withheld = false →
    reachRanges g c.loaded ((repairSlots g k pr).map (blockRange k)) = none →
    repairBad g k pr = none →
    changeRoom g (((repairDead g k pr).filter fun x => (changeOf g k.id x.num).isNone).map (·.num)) = true →
    patchRoom g k.desc (repairPatches g k pr) = true →
    repairRun s c k pr = sealed (endRepair (repaired g k pr) k.id g.epochs.opened) c 0 g.epochs.opened
      (repairDead g k pr).length := by
  intro g hw hreach hbad hroom hpatch
  have hw' : ¬(withheldErr g).isSome = true := by
    have h : g.lintel = s.lintel := by
      rw [show g = closeDue (retire s) from rfl, closeDue_same, (indexWrites_retire s).same]
    simp [withheldErr, must, h, hw]
  have hroom' : ¬(!changeRoom g (((repairDead g k pr).filter fun x =>
      (changeOf g k.id x.num).isNone).map (·.num))) = true := by simp [hroom]
  have hpatch' : ¬(!patchRoom g k.desc (repairPatches g k pr)) = true := by simp [hpatch]
  unfold repairRun
  dsimp only
  refine (if_neg hw').trans ?_
  rw [hreach]
  dsimp only
  rw [hbad]
  dsimp only
  exact (if_neg hroom').trans (if_neg hpatch')

/-- What a REPAIR leaves is the epochs and the patches that it sets. -/
theorem repaired_spec (s : State) (k : Coll) (pr : Nat) :
    (repaired s k pr).index.patches = s.index.patches ++ repairPatches s k pr ∧
      (repaired s k pr).index.colls = s.index.colls ∧
      (∀ x ∈ repairDead s k pr, ∃ y, changeOf (repaired s k pr) k.id x.num = some y ∧
        y.rep = some s.epochs.opened) ∧
      (∀ slot, (∀ x ∈ repairDead s k pr, x.num ≠ slot) →
        changeOf (repaired s k pr) k.id slot = changeOf s k.id slot) ∧
      (repaired s k pr).mem = s.mem ∧ (repaired s k pr).epochs = s.epochs := by
  obtain ⟨hsame, hset, hother⟩ := setRepaired_spec k.id s.epochs.opened (repairDead s k pr) s
  refine ⟨?_, ?_, hset, hother, ?_, ?_⟩
  · unfold repaired
    dsimp only
    rw [hsame]
  · unfold repaired
    dsimp only
    rw [hsame]
  · unfold repaired
    dsimp only
    rw [hsame]
  · unfold repaired
    dsimp only
    rw [hsame]

/-! ### COMPACT (R61, R177, R293) -/

/-- A COMPACT that no other holds up claims its segment and its destination. -/
def compacting (s : State) (c : Cmd) (k : Coll) (g : Segment) : State :=
  let a := getLE (maintBlock s c) 16 8
  let s1 := updCmd (updColl s k.id fun k => { k with
    segments := mapIf (·.num == g.num) (fun g => { g with compacting := some c.id }) k.segments }) c.id
    fun y => { y with phase := .ready, born := some k.born }
  { s1 with tiers := { s1.tiers with migrations := s1.tiers.migrations ++ [{
      cmd := c.id, tier := 0, source := a, dest := a, units := compactBytes k.desc / unitBytes }] } }

theorem actCompact_claims {g : Segment} (hg : compactSeg s c = some (k, g)) (hborn : c.born = none)
    (hfree : g.compacting = none) (hw : s.lintel.withheld = false) (herr : compactErr s c = none) :
    actCompact s c = compacting s c k g := by
  have hchecks : firstErr [withheldErr s, compactErr s c] = none := by
    simp [firstErr, withheldErr, must, hw, herr]
  simp only [actCompact, hg, hfree, hborn, hchecks]
  simp [compacting]

theorem compactEnd_at_hand {g : Segment} (hreach : reachRanges s c.loaded
      (compactReads k g ++ compactWrites s k.desc (getLE (maintBlock s c) 16 8)) = none)
    (hbulk : ∀ x ∈ compactReads k g, bulkHomed s x = false) :
    (headerFails s.mem g = true → compactEnd s c k g =
      fail (hwError s 1 0x13 (dHome k.desc) g.num 0x30 0) c { status := 0x30 }) ∧
    (headerFails s.mem g = false → ∀ k1, findColl (foldSegment s k g.num) k.id = some k1 →
      compactEnd s c k g = sealed (compactSwitch (foldSegment s k g.num) c.id k1 g
        (getLE (maintBlock s c) 16 8)) c 0 0 0) := by
  unfold compactEnd
  dsimp only
  rw [touching_clear hreach, readPages_of_none_bulk hbulk]
  refine ⟨fun h => if_pos h, fun h k1 hk1 => ?_⟩
  rw [hk1, h]
  rfl

theorem actCompact_ends {g : Segment} (hg : compactSeg s c = some (k, g)) (hmine : g.compacting = some c.id) :
    actCompact s c = compactEnd s c k g := by
  simp [actCompact, hg, hmine]

/-- Settles O20. -/
theorem repairAndCompactRunInTwoVisits : Obligations.RepairAndCompactRunInTwoVisits := by
  intro s q c k
  refine ⟨fun e ht hp hborn hpin hk hrep hpub hcommit => ?_, fun pr => ?_, fun g hg ht => ⟨?_, ?_⟩⟩
  · have hrel : release (begun s c []) = release s := release_updCmd _ fun _ => rfl
    exact congrArg Host.Outcome.next ((runCommand_passes ht hp).trans
      (actRepair_starts (s := begun s c []) (c := ran c) hk hpin hborn hrep hpub (hrel ▸ hcommit)))
  · intro g e dead ps ht hchk hpin hk hw hreach hbad hroom hpatch
    have hact : actRepair (setPhase s c.id .running) { c with phase := .running } =
        repairRun (setPhase s c.id .running) { c with phase := .running } k pr := actRepair_pinned hk hpin
    refine ⟨repaired g k pr, ?_, repaired_spec g k pr⟩
    exact congrArg Host.Outcome.next ((runCommand_again ht hchk).trans
      (hact.trans (repairRun_ok hw hreach hbad hroom hpatch)))
  · intro hp hborn hfree hw herr
    exact ⟨compacting (begun s c []) (ran c) k g, congrArg Host.Outcome.next ((runCommand_passes ht hp).trans
      (actCompact_claims (s := begun s c []) (c := ran c) hg hborn hfree hw herr)), rfl,
      ⟨_, List.mem_append_right _ (List.mem_singleton.2 rfl), rfl, rfl⟩, rfl, rfl, rfl⟩
  · intro hchk hmine r a f hreach hbulk
    have hact : actCompact r { c with phase := .running } = compactEnd r { c with phase := .running } k g :=
      actCompact_ends hg hmine
    obtain ⟨hfail, hswitch⟩ := compactEnd_at_hand (s := r) (c := { c with phase := .running }) hreach hbulk
    exact ⟨fun h => congrArg Host.Outcome.next ((runCommand_again ht hchk).trans (hact.trans (hfail h))),
      fun h k1 hk1 => congrArg Host.Outcome.next ((runCommand_again ht hchk).trans
        (hact.trans (hswitch h k1 hk1)))⟩

end Sys2Proof.Commits
end

section
/-!
PROOF. Hod commands that start, the waits that end in their start, and the stall watchdog (R306 to R329).
-/

open Sys2Proof Sys2Proof.Machine Sys2Proof.Steps Sys2Proof.Lists Sys2Proof.SlabRuns

namespace Sys2Proof.HodStarts

variable {s : State} {c : Cmd} {d : List Byte}

/-! ### Descriptors kept at dispatch -/

theorem hodDesc_inOrder (h : ∀ x ∈ s.hod.descs, x.1 ≠ c.id) : hodDesc (inOrder s c d) c.id = d := by
  have hnone : s.hod.descs.find? (·.1 == c.id) = none := List.find?_eq_none.2 fun x hx => by
    simpa using h x hx
  simp [hodDesc, inOrder, List.find?_append, hnone]

/-- A command of the chapter that is dispatched starts on the descriptor that it then has. -/
theorem actHod_starts {desc : State → Cmd → List Byte} {start : State → Cmd → List Byte → State}
    (horder : c.id ∉ s.hod.order) (hstreams : streamsOf s c.id = []) (hdescs : ∀ x ∈ s.hod.descs, x.1 ≠ c.id) :
    actHod desc (fun s c => start s c (hodDesc s c.id)) s c =
      start (inOrder s c (desc s c)) c (desc s c) := by
  have h : hodDesc { s with hod := { s.hod with
      order := s.hod.order ++ [c.id], descs := s.hod.descs ++ [(c.id, desc s c)] } } c.id = desc s c :=
    hodDesc_inOrder hdescs
  simp [actHod, hstreams, horder, inOrder, h]

/-! ### Chains (R316, R317, R326) -/

theorem startUnits_free {units : List Nat} {cont : Bool} {go : State → State}
    (hbusy : busyUnit s c.id units = none) (hwidth : ∀ u ∈ units, widthOk (unitAt s u) = true) :
    startUnits s c units cont go = go (setPhase (units.foldl (fun s u =>
      if (unitAt s u).busy then s else updUnit s u (latchUnit cont)) s) c.id .running) := by
  have h : units.all (fun u => widthOk (unitAt s u)) = true := List.all_eq_true.2 hwidth
  simp only [startUnits, hbusy, h, if_true]

/-- A chain that needs no link more, or holds its links, starts with its units. -/
theorem startChain_linked (h : (s.hod.links.any fun l => (l.producer.map (·.1)) == some c.id ||
      (l.consumer.map (·.1)) == some c.id) = true ∨ chLinks d = 0)
    (hbusy : busyUnit s c.id (chainUnits d) = none)
    (hwidth : ∀ u ∈ chainUnits d, widthOk (unitAt s u) = true) :
    startChain s c d = unitsBound s c d := by
  have hgo : ((s.hod.links.any fun l => (l.producer.map (·.1)) == some c.id ||
      (l.consumer.map (·.1)) == some c.id) || chLinks d == 0) = true := by
    rcases h with h | h <;> simp [h]
  unfold startChain
  dsimp only
  rw [hgo]
  exact (if_pos rfl).trans (startUnits_free hbusy hwidth)

/-- A chain that finds its links and units takes them and binds its stages. -/
theorem startChain_starts (h : ChainStarts s c d) : startChain s c d = chainBound s c d := by
  obtain ⟨hfree, hwaits, hroom, hshare, hbusy, hwidth⟩ := h
  by_cases hlinks : chLinks d = 0
  · have hnone : (List.range (chLinks d)).foldl (takeLink d c) s = s := by simp [hlinks]
    rw [hnone] at hbusy hwidth
    rw [startChain_linked (.inr hlinks) hbusy hwidth, chainBound, hnone]
  · have hheld : (s.hod.links.any fun l => (l.producer.map (·.1)) == some c.id ||
        (l.consumer.map (·.1)) == some c.id) = false := List.any_eq_false.2 fun l hl => by
      simp [hfree l hl]
    have hgo : ((s.hod.links.any fun l => (l.producer.map (·.1)) == some c.id ||
        (l.consumer.map (·.1)) == some c.id) || chLinks d == 0) = false := by
      rw [hheld, Bool.false_or]
      exact beq_false_of_ne hlinks
    have hpool : ((earlier s c.id).any (fun x => x.phase == .waiting .linkPool) ||
        decide (1024 < s.hod.links.length + newLinks s d)) = false := by
      rw [Bool.or_eq_false_iff]
      exact ⟨List.any_eq_false.2 fun x hx => by simp [hwaits x hx], decide_eq_false (Nat.not_lt.2 hroom)⟩
    unfold startChain
    dsimp only
    rw [hgo, hpool, hshare, Bool.and_false, if_neg Bool.false_ne_true, if_neg Bool.false_ne_true]
    exact startUnits_free hbusy hwidth

/-! ### A stream alone (R306, R310) -/

section asChain

theorem chStage_asChain (hd : d.length = 128) : chStage (asChain d) 0 = d := by
  have h : asChain d = (header 192 ++ [1, 0] ++ zeros 58) ++ d := by simp [asChain]
  have hlen : (header 192 ++ [1, 0] ++ zeros 58).length = 64 := rfl
  rw [chStage, h, List.drop_left' (by rw [hlen]), List.take_of_length_le hd.le]

theorem links_asChain : chStages (asChain d) = 1 ∧ chLinks (asChain d) = 0 := ⟨rfl, rfl⟩

theorem chainUnits_asChain (hd : d.length = 128) (htap : hTap d = false) : chainUnits (asChain d) = [] := by
  have h : (List.range 1).map (chStage (asChain d)) = [d] := congrArg (· :: []) (chStage_asChain hd)
  rw [chainUnits, links_asChain.1, h]
  simp [htap]

/-- The stream that a descriptor without a tap and without links binds. -/
def streamFor (c : Cmd) (d : List Byte) : Machine.Stream :=
  { id := 0, cmd := c.id, stage := 0, engine := 0, urgent := c.urgent, desc := d, plumb := none
    nextIssue := hStart d, nextDeliver := hStart d, taken := hStart d, count := hTn d, tileBytes := hTb d }

theorem bindStage_asChain (hd : d.length = 128) (htap : hTap d = false) (hlinks : byteAt d 7 % 8 = 0) :
    bindStage (asChain d) c s 0 =
      Machine.bind s (courseOf d (some (hBase d false)) (some (hBase d true))) (streamFor c d) := by
  have hflag : ∀ i < 3, hFlag d i = false := fun i hi => by
    have h : (byteAt d 7 % 2 ^ 3).testBit i = false := by simp [hlinks]
    rw [Nat.testBit_mod_two_pow, decide_eq_true hi, Bool.true_and] at h
    exact h
  have hin : inLink d = none := by simp [inLink, hflag 0]
  have hout : outLinks d = [] := by simp [outLinks, hflag 1, hflag 2]
  have htiles : stageTiles (asChain d) 0 = (hTb d, hTn d) := by
    simp [stageTiles, chStage_asChain hd, htap]
  simp only [bindStage, chStage_asChain hd, hin, hout, htap, htiles]
  rfl

end asChain

/-- A descriptor alone, without a tap and without links, binds its one stream. -/
theorem startChain_asChain (hd : d.length = 128) (htap : hTap d = false) (hlinks : byteAt d 7 % 8 = 0) :
    startChain s c (asChain d) = Machine.bind (setPhase s c.id .running)
      (courseOf d (some (hBase d false)) (some (hBase d true))) (streamFor c d) := by
  have hunits : chainUnits (asChain d) = [] := chainUnits_asChain hd htap
  have h : startChain s c (asChain d) = unitsBound s c (asChain d) :=
    startChain_linked (.inr rfl) (by rw [hunits]; rfl) (by rw [hunits]; exact fun _ h => nomatch h)
  rw [h, unitsBound, hunits]
  exact bindStage_asChain hd htap hlinks

/-- What is bound goes to the end of the streams, on an engine of its course. -/
theorem bind_spec (s : State) (course : Nat) (t : Machine.Stream) :
    ∃ e, e / 2 = course ∧ Machine.bind s course t = { s with hod := { s.hod with
      streams := s.hod.streams ++ [{ t with id := s.hod.nextStream, engine := e, lastTime := now s }]
      nextStream := s.hod.nextStream + 1 } } := by
  refine ⟨_, ?_, rfl⟩
  split <;> omega

theorem hod_begun (s : State) (c : Cmd) (l : List (Nat × Nat)) : (begun s c l).hod = s.hod := by
  rw [(completes_begun s c l).same]

theorem plumb_begun (s : State) (c : Cmd) (l : List (Nat × Nat)) : (begun s c l).plumb = s.plumb := by
  rw [(completes_begun s c l).same]

/-- The stream of 4 KiB tiles that a scan binds (R329). -/
def scanStream (c : Cmd) (d : List Byte) : Machine.Stream :=
  { id := 0, cmd := c.id, stage := 0, engine := 0, urgent := c.urgent, desc := d, plumb := some (byteAt d 4)
    plumbBytes := some (getLE d 16 8, getLE d 24 8), nextIssue := 0, nextDeliver := 0, taken := 0
    count := ceilDiv (getLE d 24 8) 4096, tileBytes := 4096 }

/-- A scan whose unit is free latches it and binds its stream. -/
theorem startScanUnit_free (hfree : busyUnit s c.id [byteAt d 4] = none)
    (hwidth : widthOk (unitAt s (byteAt d 4)) = true) (hbusy : (unitAt s (byteAt d 4)).busy = false) :
    startScanUnit s c d = Machine.bind
      (setPhase (updUnit s (byteAt d 4) (latchUnit (bit (byteAt d 5) 0))) c.id .running)
      (courseOf (zeros 6 ++ [0xFF]) (some (getLE d 16 8)) none) (scanStream c d) := by
  unfold startScanUnit
  dsimp only
  rw [startUnits_free hfree (by simpa using hwidth)]
  simp only [List.foldl_cons, List.foldl_nil, hbusy, Bool.false_eq_true, if_false]
  rfl

theorem hod_streamsOf {t : State} (h : t.hod = s.hod) (id : Nat) : streamsOf s id = streamsOf t id := by
  rw [streamsOf, streamsOf, h]

theorem sameBeside_hod {t : State} (h : SameBeside s t) (x : Hod) (y : Sched) :
    SameBeside { s with hod := x } { t with hod := x, sched := y } := by
  unfold SameBeside at *
  rw [← h]

/-- Settles O27. -/
theorem hodCommandsBindTheirStages : Obligations.HodCommandsBindTheirStages := by
  intro s q c horder hstreams hdescs hlinks
  refine ⟨fun ht hp => ?_, fun ht hp => ?_, fun ht hp => ?_⟩
  · intro b d htap hflags
    have hd : d.length = 128 := Writes.length_readBytes _ _ _
    have hhod : b.hod = s.hod := hod_begun _ _ _
    let h := inOrder b (ran c) d
    have hact : actHod streamDesc startStreamCmd b (ran c) = startChain h (ran c) (asChain d) :=
      actHod_starts (c := ran c) (start := fun s c d => startChain s c (asChain d)) (hhod ▸ horder)
        ((hod_streamsOf hhod c.id).symm.trans hstreams) (hhod ▸ hdescs)
    obtain ⟨e, hcourse, hbind⟩ := bind_spec (setPhase h c.id .running)
      (courseOf d (some (hBase d false)) (some (hBase d true))) (streamFor (ran c) d)
    have hstart : exec (.hodStream q) s = .next (startChain h (ran c) (asChain d)) :=
      congrArg Host.Outcome.next ((runCommand_passes ht hp).trans hact)
    rw [startChain_asChain hd htap hflags, show (ran c).id = c.id from rfl, hbind] at hstart
    let x := { streamFor (ran c) d with id := b.hod.nextStream, engine := e, lastTime := now b }
    have hstreams' : b.hod.streams ++ [x] = s.hod.streams ++ [x] := by rw [hhod]
    have hnext : b.hod.nextStream = s.hod.nextStream := by rw [hhod]
    have hlinks' : b.hod.links = s.hod.links := by rw [hhod]
    have hplumb : b.plumb = s.plumb := plumb_begun _ _ _
    exact ⟨_, x, hstart, hstreams', hnext, rfl, rfl, rfl, rfl, rfl, rfl, rfl, rfl, hcourse, hlinks', rfl, hplumb,
      sameBeside_hod (sameBeside_begun _ _ _) _ _⟩
  · intro b0 d b hstarts
    have hhod : b0.hod = s.hod := hod_begun _ _ _
    have hact : actHod chainDesc startChainCmd b0 (ran c) = startChain b (ran c) d :=
      actHod_starts (c := ran c) (start := startChain) (hhod ▸ horder)
        ((hod_streamsOf hhod c.id).symm.trans hstreams) (hhod ▸ hdescs)
    exact congrArg Host.Outcome.next ((runCommand_passes ht hp).trans (hact.trans (startChain_starts hstarts)))
  · intro d u hbusy hnone hwidth hlen
    let h := inOrder (begun s c []) (ran c) d
    have hact : actHod scanDesc startScanCmd (begun s c []) (ran c) = startScanUnit h (ran c) d :=
      actHod_starts (s := begun s c []) (c := ran c) (start := startScanUnit) horder hstreams hdescs
    have hfirst : earlier h c.id = [] := by
      have ho : h.hod.order = [c.id] := congrArg (· ++ [c.id]) hnone
      simp [earlier, ho]
    have hfree : busyUnit h c.id [u] = none := by
      have hu : (unitAt h u).busy = false := hbusy
      simp [busyUnit, hu, hfirst]
    obtain ⟨e, -, hbind⟩ := bind_spec (setPhase (updUnit h u (latchUnit (bit (byteAt d 5) 0))) c.id .running)
      (courseOf (zeros 6 ++ [0xFF]) (some (getLE d 16 8)) none) (scanStream (ran c) d)
    have hexec := congrArg (Host.Outcome.next (φ := Fault) (ρ := Refusal)) ((runCommand_passes ht hp).trans
      (hact.trans ((startScanUnit_free (c := ran c) hfree hwidth hbusy).trans hbind)))
    exact ⟨_, _, hexec, rfl, rfl, rfl, rfl, rfl, rfl, rfl, rfl, rfl, rfl⟩

/-! ### Waits and the watchdog (R317, R320, R321, R326) -/

theorem startAgain_chain (h : opIs 0x51 c = true) : startAgain s c = startChain s c (hodDesc s c.id) := by
  have h50 : opIs 0x50 c = false := by
    have hcode : entOpcode c = 0x51 := beq_iff_eq.1 h
    rw [opIs, hcode]
    rfl
  simp [startAgain, h50, h, startChainCmd]

/-- A wait on one end that is over is a path that ends there. -/
theorem waitPaths_dead {t : Machine.Stream} {l : HodLink} {prod : Bool} {home n : Nat} {seen : List Nat}
    (hwaits : waitsOn s t = [(l, prod)]) (hend : (if prod then l.prodEnded else l.consEnded) = true) :
    waitPaths s home (n + 1) seen t = [.dead] := by
  simp only [waitPaths, hwaits, List.flatMap_cons, List.flatMap_nil, endOf, hend, Bool.true_or, if_true,
    List.append_nil]

/-- A stage whose one wait is on an end that is over is a deadlock of its own. -/
theorem examine_dead {t : Machine.Stream} {l : HodLink} {prod : Bool} (hwaits : waitsOn s t = [(l, prod)])
    (hend : (if prod then l.prodEnded else l.consEnded) = true) : examine s t = deadlock s t.cmd t.stage := by
  unfold examine
  rw [waitPaths_dead hwaits hend]
  rfl

/-- Settles O29. -/
theorem hodWaitsAndWatchdog : Obligations.HodWaitsAndWatchdog := by
  intro s c hc
  refine ⟨fun hop hstarts => ?_, fun u hop hph hheld hbusy hwidth => ?_,
    fun t l prod ht hcmd hw hwaits hend htime => ?_⟩
  · have hstart : startAgain s c = chainBound s c (hodDesc s c.id) :=
      (startAgain_chain hop).trans (startChain_starts hstarts)
    refine ⟨fun hph => ?_, fun u hph => ?_⟩
    · have h : exec (.hodLinkPoolWaitEnd c.id) s = execHodLinkPoolWaitEnd c.id s := rfl
      rw [h, execHodLinkPoolWaitEnd, hc]
      simp [hph, hstart]
    · have h : exec (.plumbUnitWaitEnd c.id) s = execPlumbUnitWaitEnd c.id s := rfl
      rw [h, execPlumbUnitWaitEnd, hc]
      simp [hph, hstart]
  · have hany : (s.hod.links.any fun l => (l.producer.map (·.1)) == some c.id ||
        (l.consumer.map (·.1)) == some c.id) = true := by
      obtain ⟨l, hl, hmine⟩ := hheld
      exact List.any_eq_true.2 ⟨l, hl, by simpa using hmine⟩
    have h : exec (.plumbUnitWaitEnd c.id) s = execPlumbUnitWaitEnd c.id s := rfl
    rw [h, execPlumbUnitWaitEnd, hc]
    simp only [hph, startAgain_chain hop]
    rw [startChain_linked (.inl hany) hbusy hwidth]
  · have h : exec (.hodWatchdogExpiry t.id) s = execHodWatchdogExpiry t.id s := rfl
    rw [h, execHodWatchdogExpiry, ht]
    simp only [hwaits, htime, examine_dead hwaits hend, deadlock, hcmd, hc]
    simp [hw]

end Sys2Proof.HodStarts
end

section
/-!
PROOF. Writes of registers that arrive over Uzone (R421, R587 to R590).
-/

open Sys2Proof Sys2Proof.Machine Sys2Proof.Steps Sys2Proof.TimeKeeper

namespace Sys2Proof.Registers

variable {s : State} {b : RegBlock} {a o v x : Nat} {eight : Bool} {w : Source}

/-! ### Messages that leave over Uzone (R402, R403) -/

theorem pumpMsgs_same (u : Uzone) (ms : List Msg) (blocked : List Nat) : pumpMsgs u ms blocked =
    { u with
      link := (pumpMsgs u ms blocked).link
      nextTag := (pumpMsgs u ms blocked).nextTag
      reqs := (pumpMsgs u ms blocked).reqs } := by
  induction ms generalizing u blocked with
  | nil => rfl
  | cons m ms ih =>
    unfold pumpMsgs
    split
    · exact ih _ _
    · exact ih _ _

/-- What is sent changes the link, the requests in flight and their tags alone. -/
theorem uzSend_same (u : Uzone) (ms : List Msg) : uzSend u ms =
    { u with link := (uzSend u ms).link, nextTag := (uzSend u ms).nextTag, reqs := (uzSend u ms).reqs } :=
  pumpMsgs_same _ _ _

/-- A link that wakes changes as it does by what it sends. -/
theorem awoken_same (s : State) : awoken s = { s with uzone := { s.uzone with
    link := (awoken s).uzone.link, nextTag := (awoken s).uzone.nextTag, reqs := (awoken s).uzone.reqs } } :=
  congrArg (fun u => ({ s with uzone := u } : State))
    (pumpMsgs_same { s.uzone with link := { linkWake s.uzone.link with waiting := [] } } _ _)

/-! ### Register writes -/

/-- The source of a write that the companion makes (R384). -/
def companionSource (a : Nat) (eight : Bool) (v : Nat) : Source :=
  { origin := 4, detail := 0, digest := leBytes 4 a ++ leBytes (accessBytes eight) v }

/-- A write that reaches a register of a block in service, with a value that the register takes. -/
theorem writeReg_of_value (ha : a % accessBytes eight = 0) (hb : blockAt a = some (b, o))
    (hup : blockUp s b = true) (hbuf : (b == .quoin && decide (0x1000 ≤ o) && decide (o < 0x2000)) = false)
    (hv : writeValue eight o v (regAt s b (o / 8 * 8)) = some x) :
    writeReg s w a eight v = writeRegOf s w b a o x := by
  have hreach : reaches s a eight = true := by simp [reaches, ha, hb, hup]
  simp only [writeReg, hreach, hb, hbuf, hv, Bool.not_true, Bool.false_eq_true, if_false]

theorem mmioWrite_served (hin : mmioIn s = true) (hready : s.quoin.stage = 7) :
    mmioWrite s a eight v = writeReg s (companionSource a eight v) a eight v := by
  have hserved : mmioServed s a = true := by simp [mmioServed, hready]
  simp only [mmioWrite, hin, hserved, Bool.and_self, if_true]
  rfl

/-- A register write that arrives over Uzone while the module serves is made and answered. -/
theorem companionRequest_write {i : Instr} {tag : Nat} (h : RequestArrives s) (hready : s.quoin.stage = 7)
    (hi : mmioOf i = some ⟨a, eight, some (v, tag)⟩) :
    companionRequest s i =
      answer (writeReg (awoken s) (companionSource a eight v) a eight v) (.cmpResp tag 0) := by
  rw [companionRequest_of_arrives h hi]
  simp only [mmioOne]
  rw [mmioWrite_served (s := awoken s) h.1 hready]

end Sys2Proof.Registers
end

section
/-!
PROOF. Tier faults that end, the fault queue's registers and far memory (R282 to R303, R421).
-/

open Sys2Proof Sys2Proof.Machine Sys2Proof.Steps Sys2Proof.Lists Sys2Proof.Index Sys2Proof.TimeKeeper
  Sys2Proof.Registers

namespace Sys2Proof.TierFaults

variable {s t : State} {c : Cmd} {f : TierFault}

/-! ### Completions add no fault

A command that completes leaves the waiters of the faults; the faults stay. -/

/-- `t` has as many tier faults as `s`. -/
def SameFaults (s t : State) : Prop := t.tiers.faults.length = s.tiers.faults.length

theorem SameFaults.refl (s : State) : SameFaults s s := rfl

theorem SameFaults.trans {s t u : State} (h1 : SameFaults s t) (h2 : SameFaults t u) : SameFaults s u :=
  Eq.trans h2 h1

theorem SameFaults.foldl {α : Type} {f : State → α → State} (h : ∀ s x, SameFaults s (f s x)) (l : List α)
    (s : State) : SameFaults s (l.foldl f s) := by
  induction l generalizing s with
  | nil => exact .refl s
  | cons x l ih => exact (h s x).trans (ih _)

theorem sameFaults_of_tiers (h : t.tiers = s.tiers) : SameFaults s t := by rw [SameFaults, h]

theorem sameFaults_emit (s : State) (os : List Out) : SameFaults s (emit s os) :=
  sameFaults_of_tiers (by rw [written_emit s os])

theorem sameFaults_slotPut (s : State) (id a st : Nat) (p : List Byte) (h : Nat) :
    SameFaults s (slotPut s id a st p h) :=
  (sameFaults_emit _ _).trans (sameFaults_emit _ _)

theorem sameFaults_unpinned (s : State) (pin : Option Nat) : SameFaults s (unpinned s pin) := by
  unfold unpinned
  split
  · exact sameFaults_of_tiers (by rw [(indexWrites_retire s).same])
  · exact .refl s

theorem sameFaults_writeCompletion (s : State) (q : ComplQ) (x : Completion) :
    SameFaults s (writeCompletion s q x) := by
  unfold writeCompletion
  dsimp only
  refine SameFaults.trans ?_ (sameFaults_emit _ _)
  refine SameFaults.trans ?_ (sameFaults_unpinned _ _)
  exact List.length_map _

theorem sameFaults_post1 (s : State) (x : Completion) : SameFaults s (post1 s x) := by
  unfold post1
  split
  · exact .refl s
  · split
    · exact .refl s
    · split
      · exact .refl s
      · split
        · exact sameFaults_writeCompletion _ _ _
        · exact .refl s

theorem sameFaults_settleDelete (s : State) (q : SubQ) : SameFaults s (settleDelete s q) := by
  unfold settleDelete
  split
  · exact .refl s
  · split
    · exact .refl s
    · dsimp only
      split
      · exact .refl s
      · exact sameFaults_post1 _ _

theorem sameFaults_post (s : State) (x : Completion) : SameFaults s (post s x) :=
  (sameFaults_post1 s x).trans (.foldl sameFaults_settleDelete _ _)

theorem sameFaults_fail (s : State) (c : Cmd) (e : Err) : SameFaults s (fail s c e) := by
  unfold fail
  split
  · exact .refl s
  · have hslots : SameFaults s (failSlots s ((findCmd s c.id).getD c) e.status) :=
      .foldl (fun _ _ => sameFaults_slotPut _ _ _ _ _ _) _ s
    have hrec : SameFaults (failSlots s ((findCmd s c.id).getD c) e.status)
      (recordError (failSlots s ((findCmd s c.id).getD c) e.status) c e) := rfl
    dsimp only
    split
    · exact (hslots.trans hrec).trans (sameFaults_post _ _)
    · exact ((hslots.trans hrec).trans (sameFaults_post _ _)).trans (.foldl (fun _ _ => sameFaults_post _ _) _ _)

/-- Where no fault waits to be posted, the fault queue stays as it is. -/
theorem postFaults_of_posted (h : ∀ f ∈ s.tiers.faults, f.posted = true) : postFaults s = s :=
  List.foldlRecOn (motive := (· = s)) _ _ rfl fun t ht f hf => by simp [h f hf, ht]

theorem postFaults_of_no_fault (h : s.tiers.faults = []) : postFaults s = s :=
  postFaults_of_posted (by rw [h]; exact fun _ h => nomatch h)

/-! ### Faults that end (R284, R285, R288) -/

/-- What a fault's waiting commands become: those that still wait for its unit go on. -/
def retried (f : TierFault) (ws : List Waiter) (c : Cmd) : Cmd :=
  if ws.any (·.who == .cmd c.id) && c.phase == .waiting (.tier f.unit) then { c with phase := .ready } else c

theorem retried_cons (w : Waiter) (ws : List Waiter) {id : Nat} (hw : w.who = .cmd id) (c : Cmd) :
    retried f ws (if c.id == id then
        (if c.phase == .waiting (.tier f.unit) then { c with phase := .ready } else c) else c) =
      retried f (w :: ws) c := by
  by_cases hph : c.phase = .waiting (.tier f.unit)
  · by_cases hid : c.id = id
    · simp [retried, hph, hid, hw]
    · simp [retried, hph, hid, hw, Ne.symm hid]
  · simp [retried, hph]

theorem retry_cmds (ws : List Waiter) (h : ∀ w ∈ ws, ∃ id, w.who = .cmd id) (s : State) :
    ws.foldl (retryWaiter f.unit) s =
      { s with sched := { s.sched with cmds := s.sched.cmds.map (retried f ws) } } := by
  induction ws generalizing s with
  | nil =>
    have hid : retried f [] = id := by
      funext c
      simp [retried]
    simp [hid]
  | cons w ws ih =>
    obtain ⟨⟨id, hid⟩, hws⟩ := List.forall_mem_cons.1 h
    have hstep : retryWaiter f.unit s w = updCmd s id fun c =>
        if c.phase == .waiting (.tier f.unit) then { c with phase := .ready } else c := by
      simp [retryWaiter, hid]
    rw [List.foldl_cons, hstep, ih hws]
    simp only [updCmd, mapIf, List.map_map]
    congr 3
    funext c
    exact retried_cons w ws hid c

/-- Settles O32. -/
theorem tierFaultEnds : Obligations.TierFaultEnds := by
  intro s u f hf hu s0
  have hfind : s.tiers.faults.find? (·.unit == u.toNat) = some f := by simp [hf, hu]
  have hrest : { s with tiers := { s.tiers with faults := s.tiers.faults.filter (·.unit != f.unit) } } = s0 := by
    simp [hf, s0]
  have hres : exec (.tierFaultResolved u) s =
      .next (if resolvable s f then postFaults (f.waiters.foldl (retryWaiter f.unit) s0) else s) := by
    have h : exec (.tierFaultResolved u) s = execTierFaultResolved u s := rfl
    rw [h, execTierFaultResolved, hfind, ← hrest]
    rfl
  have htimeout : exec (.tierFaultTimeout u) s =
      .next (if s.tiers.timeout != 0 && decide (f.opened + s.tiers.timeout * 1000 ≤ now s) then
        postFaults (expireFault s f) else s) := by
    have h : exec (.tierFaultTimeout u) s = execTierFaultTimeout u s := rfl
    rw [h, execTierFaultTimeout, hfind]
  refine ⟨fun hr => ?_, fun hr hw => ?_, fun id acc hr hw => ?_, fun c acc hw hc hph h0 hdue hord => ?_,
    fun hnot => ?_⟩
  · rw [hres, hr]
    rfl
  · rw [hres, hr, retry_cmds f.waiters hw]
    rw [if_pos rfl, postFaults_of_no_fault (by exact rfl)]
    rfl
  · rw [hres, hr, hw]
    exact congrArg Host.Outcome.next (postFaults_of_no_fault (by exact rfl))
  · have hdue' : (s.tiers.timeout != 0 && decide (f.opened + s.tiers.timeout * 1000 ≤ now s)) = true := by
      simp [h0, hdue]
    have hend : f.waiters.foldl (expireWaiter f.unit) s0 = fail s0 c {
        status := 0x20, info32 := if opIs 0x11 c then c.batch.ready else 0, a := u.toNat } := by
      have hc' : findCmd s0 c.id = some c := hc
      have hord' : s0.hod.order.contains c.id = false := hord
      rw [hw, List.foldl_cons, List.foldl_nil, expireWaiter]
      simp only [hc', hph, beq_self_eq_true, if_true, endCmd, hord', Bool.false_eq_true, if_false]
      rw [hu]
      rfl
    have hexp : expireFault s f = dropOrphans (fail s0 c {
        status := 0x20, info32 := if opIs 0x11 c then c.batch.ready else 0, a := u.toNat }) := by
      rw [expireFault, hrest, hend]
    have hnone : (fail s0 c { status := 0x20, info32 := if opIs 0x11 c then c.batch.ready else 0
                              a := u.toNat }).tiers.faults = [] :=
      List.eq_nil_of_length_eq_zero (sameFaults_fail s0 c _)
    rw [htimeout, hdue', if_pos rfl, hexp]
    exact congrArg Host.Outcome.next (postFaults_of_no_fault hnone)
  · have hdue : (s.tiers.timeout != 0 && decide (f.opened + s.tiers.timeout * 1000 ≤ now s)) = false := by
      rcases hnot with h | h
      · simp [h]
      · simp [Nat.not_le.2 h]
    rw [htimeout, hdue]
    rfl

/-! ### The fault queue's registers (R282, R421) -/

theorem writeTierControl_of_posted (hposted : ∀ f ∈ s.tiers.faults, f.posted = true) (v : BitVec 32) :
    writeTierControl s v = { s with tiers := { s.tiers with
      enable := v.getLsbD 31
      head := v.extractLsb' 12 12
      tail := if v.getLsbD 31 && !s.tiers.enable then 0 else s.tiers.tail
      phase := if v.getLsbD 31 && !s.tiers.enable then true else s.tiers.phase } } :=
  postFaults_of_posted (by exact hposted)

/-- A write of TIER_FAULT_QUEUE_CONTROL that arrives. -/
theorem companionRequest_tierControl {i : Instr} {v : BitVec 32} {tag : Nat} (h : RequestArrives s)
    (hready : s.quoin.stage = 7) (hup : blockUp s .tier = true)
    (hi : mmioOf i = some ⟨0x40008, false, some (v.toNat, tag)⟩) :
    companionRequest s i = answer (writeTierControl (awoken s) v) (.cmpResp tag 0) := by
  rw [companionRequest_write h hready hi]
  have hv : writeValue false 8 v.toNat (regAt (awoken s) .tier (8 / 8 * 8)) = some (v.toNat % 2 ^ 32) := rfl
  rw [writeReg_of_value (s := awoken s) (b := .tier) rfl rfl hup rfl hv, Nat.mod_eq_of_lt v.isLt]
  have hw : writeRegOf (awoken s) (companionSource 0x40008 false v.toNat) .tier 0x40008 8 v.toNat =
      writeTierControl (awoken s) (BitVec.ofNat 32 v.toNat) := rfl
  rw [hw, BitVec.ofNat_toNat, BitVec.setWidth_eq]

/-! ### Far memory (R297, R302, R303, R559) -/

/-- A far link that nobody waits for is lost alone. -/
theorem farLost_alone {l : Nat} (h : farOwners s l = []) : farLost s l = { s with
    tiers := { s.tiers with xfUp := modAt s.tiers.xfUp l fun _ => false }
    slab := { s.slab with fars := s.slab.fars.filter (·.2 != l) }
    uzone := { s.uzone with devFar := if s.uzone.devFar == some l then none else s.uzone.devFar } } := by
  rw [farLost, h]
  rfl

theorem getD_modAt_false (l : List Bool) (i : Nat) : (modAt l i fun _ => false).getD i false = false := by
  by_cases h : i < l.length
  · exact getD_modAt_self h
  · induction l generalizing i with
    | nil => rfl
    | cons x l ih =>
      cases i with
      | zero => rfl
      | succ i => exact ih i fun hi => h (Nat.succ_lt_succ hi)

/-- Settles O33. -/
theorem tierFaultQueueAndFarMemory : Obligations.TierFaultQueueAndFarMemory := by
  refine ⟨fun s v tag harrives hready hup hposted => ?_, fun s c l hc hph hheld => ?_,
    fun s l hl howners hheld => ?_, fun _ _ _ => rfl⟩
  · intro r
    have hon : (v ||| 0x80000000).getLsbD 31 = true := by simp
    have hhead : (v ||| 0x80000000).extractLsb' 12 12 = v.extractLsb' 12 12 := by
      rw [BitVec.extractLsb'_or]
      exact BitVec.or_zero
    have hwrite : ∀ x : BitVec 32, writeTierControl r x = _ := writeTierControl_of_posted (s := r) hposted
    refine ⟨?_, fun hsame => ?_⟩
    · refine congrArg Host.Outcome.next ((companionRequest_tierControl (v := v ||| 0x80000000) harrives hready hup
        rfl).trans ?_)
      rw [hwrite, hon, hhead]
      cases hen : s.tiers.enable <;> simp [r, awoken, hen]
    · refine congrArg Host.Outcome.next ((companionRequest_tierControl harrives hready hup rfl).trans ?_)
      rw [hwrite, hsame]
      have hstart : (s.tiers.enable && !r.tiers.enable) = false := Bool.and_not_self _
      rw [hstart]
      rfl
  · have h : exec (.xfReadResponse (.cmd c.id) false) s = execXfReadResponse (.cmd c.id) false s := rfl
    have hwait : farAnswer s (.cmd c.id) false = setPhase s c.id .ready := by
      simp [farAnswer, hc, hph, farWait]
    rw [h, execXfReadResponse, hwait, Moves.serveHeld_of_none (by exact hheld)]
    rfl
  · let e := hwError s 1 0x32 l.toNat 0 0x40 0
    have huz : e.uzone = uzSend s.uzone [.intr 4033] := rfl
    have hfar : e.uzone.devFar = s.uzone.devFar := by rw [huz, uzSend_same]
    have hnone : farOwners e l.toNat = [] := by
      rw [← howners]
      unfold farOwners
      rw [hfar]
      rfl
    have hlost := farLost_alone (s := e) hnone
    have hexec : exec (.xfLinkDown l) s = .next (farLost e l.toNat) := by
      have h : exec (.xfLinkDown l) s = execXfLinkDown l s := rfl
      have hheld' : (farLost e l.toNat).uzone.heldDev = [] := by
        rw [hlost]
        exact (Moves.uzSend_heldDev _ _).trans hheld
      rw [h, execXfLinkDown, hl]
      exact congrArg Host.Outcome.next (Moves.serveHeld_of_none hheld')
    refine ⟨farLost e l.toNat, hexec, ?_, fun i hi => ?_, ?_, ?_, ?_⟩
    · rw [hlost]
      exact getD_modAt_false _ _
    · rw [hlost]
      exact getD_modAt_other hi
    · rw [hlost]
      exact Nand.hwError_log s 0x32 l.toNat 0 0x40 (.inl (by decide))
    · rw [hlost]
      rfl
    · rw [hlost]
      rfl

end Sys2Proof.TierFaults
end

section
/-!
PROOF. The commands of the queues, logs and power states, and the registers of the queues (R342 to R383).
-/

open Sys2Proof Sys2Proof.Machine Sys2Proof.Steps Sys2Proof.Lists Sys2Proof.Index Sys2Proof.SlabRuns

namespace Sys2Proof.Queues

variable {s : State} {c : Cmd} {k : Coll}

/-! ### QUEUE_CREATE and QUEUE_DELETE (R343 to R346, R373) -/

theorem actQueueCreate_ok (h : auditOk s = true) : actQueueCreate s c =
    succeed (addQueue (audit s 0 0x43 [byteAt (readBytes s.mem (entDesc c) 64) 4,
        getLE (readBytes s.mem (entDesc c) 64) 6 2] (c.sq + entTag c * 65536)
      (c.entry ++ readBytes s.mem (entDesc c) 64)) (readBytes s.mem (entDesc c) 64)) c 0 0 0 0 0 := by
  unfold actQueueCreate
  exact audited_ok h

/-- Settles O34. -/
theorem queueCreateAddsWhatItsDescriptorSays : Obligations.QueueCreateAddsWhatItsDescriptorSays := by
  intro s q c d a ht hp haudit
  have hexec : exec (.queueCreate q) s = .next (succeed (addQueue a d) (ran c) 0 0 0 0 0) :=
    congrArg Host.Outcome.next ((runCommand_passes ht hp).trans (actQueueCreate_ok (c := ran c) haudit))
  refine ⟨fun hk => ?_, fun hk => ?_, fun hk => ?_⟩
  · rw [hexec, addQueue, hk]
    rfl
  · rw [hexec, addQueue, hk]
    simp only [beq_iff_eq]
    rfl
  · rw [hexec, addQueue, hk]
    rfl

theorem mapIf_id {α : Type} {p : α → Bool} {f : α → α} {l : List α} (h : ∀ x ∈ l, p x = true → f x = x) :
    mapIf p f l = l := by
  rw [mapIf]
  refine (List.map_congr_left fun x hx => ?_).trans (List.map_id _)
  split
  · exact h x hx ‹_›
  · rfl

/-- A queue whose restart is not under way drops none. -/
theorem dropRestart_of_no_restart {q : Nat} (h : ∀ x ∈ s.sched.sqs, x.restart = none) : dropRestart s q = s := by
  have hfind : (findSq s q).bind (·.restart) = none := by
    cases hx : findSq s q with
    | none => rfl
    | some x => exact h x (List.mem_of_find?_eq_some hx)
  have hmap : mapIf (·.id == q) (fun x : SubQ => { x with restart := none }) s.sched.sqs = s.sched.sqs :=
    mapIf_id fun x hx _ => by rw [← h x hx]
  rw [dropRestart, hfind]
  simp only [Option.bind_none, updSq, hmap]

theorem audit_sched (s : State) (o e : Nat) (l : List Nat) (x : Nat) (bs : List Byte) :
    (audit s o e l x bs).sched = s.sched := by
  rw [audit]

/-- What a deletion does after its record. -/
def deleted (s : State) (c : Cmd) : State :=
  if entField c 64 1 == 0 then
    settleDeletes (endFetched (dropRestart (updSq s (entQueue c) fun q => { q with
      deletedBy := some c.id, kept := none }) (entQueue c)) (entQueue c) 0x61)
  else succeed { s with sched := { s.sched with
    cqs := if entField c 64 1 == 1 then s.sched.cqs.filter (·.id != entQueue c) else s.sched.cqs
    areas := if entField c 64 1 == 2 then s.sched.areas.filter (·.id != entQueue c) else s.sched.areas } }
    c 0 0 0 0 0

theorem actQueueDelete_ok (h : auditOk s = true) : actQueueDelete s c =
    deleted (audit s 0 0x44 [entField c 64 1, entQueue c] (c.sq + entTag c * 65536) (c.entry ++ [])) c := by
  unfold actQueueDelete
  exact audited_ok h

theorem deleted_queue (h : entField c 64 1 = 0) : deleted s c =
    settleDeletes (endFetched (dropRestart (updSq s (entQueue c) fun q => { q with
      deletedBy := some c.id, kept := none }) (entQueue c)) (entQueue c) 0x61) := by
  simp [deleted, h]

theorem deleted_completions (h : entField c 64 1 = 1) : deleted s c = succeed { s with
    sched := { s.sched with cqs := s.sched.cqs.filter (·.id != entQueue c) } } c 0 0 0 0 0 := by
  simp [deleted, h]

theorem deleted_area (h : entField c 64 1 = 2) : deleted s c = succeed { s with
    sched := { s.sched with areas := s.sched.areas.filter (·.id != entQueue c) } } c 0 0 0 0 0 := by
  simp [deleted, h]

/-- Settles O35. -/
theorem queueDeleteRemovesOrStops : Obligations.QueueDeleteRemovesOrStops := by
  intro s q c a ht hp haudit
  have hrec : audit (begun s c []) 0 0x44 [entField c 64 1, entQueue c] (c.sq + entTag c * 65536)
      (c.entry ++ []) = a := by rw [List.append_nil]
  have hact : exec (.queueDelete q) s = .next (deleted a (ran c)) := by
    rw [← hrec]
    exact congrArg Host.Outcome.next ((runCommand_passes ht hp).trans
      (actQueueDelete_ok (s := begun s c []) (c := ran c) haudit))
  have hsched : a.sched = (begun s c []).sched := audit_sched (begun s c []) _ _ _ _ _
  refine ⟨fun hk => ⟨hact.trans (congrArg Host.Outcome.next (deleted_queue (c := ran c) hk)),
      fun hrest => dropRestart_of_no_restart fun x hx => ?_⟩,
    fun hk => hact.trans (congrArg Host.Outcome.next (deleted_completions (c := ran c) hk)),
    fun hk => hact.trans (congrArg Host.Outcome.next (deleted_area (c := ran c) hk))⟩
  have hx' : x ∈ mapIf (·.id == entQueue c) (fun x : SubQ => { x with deletedBy := some c.id, kept := none })
    a.sched.sqs := hx
  rw [hsched] at hx'
  have hsqs : (begun s c []).sched.sqs = s.sched.sqs := rfl
  rw [hsqs] at hx'
  obtain ⟨y, hy, rfl⟩ := List.mem_map.1 hx'
  split
  · exact hrest y hy
  · exact hrest y hy

/-! ### QUEUE_RESTART (R372) -/

theorem updSq_updSq (q : Nat) (f g : SubQ → SubQ) (hf : ∀ x, (f x).id = x.id) :
    updSq (updSq s q f) q g = updSq s q fun x => g (f x) := by
  have h : mapIf (·.id == q) g (mapIf (·.id == q) f s.sched.sqs) =
      mapIf (·.id == q) (fun x => g (f x)) s.sched.sqs :=
    HodTiles.mapIf_mapIf (fun x hx => by simpa [hf x] using hx) _
  unfold updSq
  rw [h]

/-- A queue with no restart under way puts no copy up for dispatch. -/
theorem raise_of_no_restart {l : List SubQ} (h : ∀ x ∈ l, x.restart = none) : l.foldl raiseCopy s = s :=
  List.foldlRecOn (motive := (· = s)) l _ rfl fun t ht x hx => by rw [raiseCopy, h x hx]; exact ht

/-- Where the restart of one queue alone is under way, its copy alone is put up. -/
theorem raiseCopies_one {q : Nat} {x : SubQ} {f : SubQ → SubQ} (hone : s.sched.sqs.filter (·.id == q) = [x])
    (hrest : ∀ y ∈ s.sched.sqs, y.restart = none) :
    raiseCopies (updSq s q f) = raiseCopy (updSq s q f) (f x) := by
  obtain ⟨l1, l2, hl, h1, hx, h2⟩ := List.filter_eq_cons_iff.1 hone
  have hl1 : mapIf (·.id == q) f l1 = l1 := mapIf_id fun y hy hq => absurd hq (h1 y hy)
  have hl2 : mapIf (·.id == q) f l2 = l2 := mapIf_id fun y hy hq =>
    absurd hq (List.filter_eq_nil_iff.1 h2 y hy)
  have hlist : (updSq s q f).sched.sqs = l1 ++ f x :: l2 := by
    have h : mapIf (·.id == q) f (l1 ++ x :: l2) = mapIf (·.id == q) f l1 ++ f x :: mapIf (·.id == q) f l2 := by
      simp only [mapIf, List.map_append, List.map_cons, hx, if_true]
    rw [show (updSq s q f).sched.sqs = mapIf (·.id == q) f s.sched.sqs from rfl, hl, h, hl1, hl2]
  rw [hl] at hrest
  have hr1 : ∀ y ∈ l1, y.restart = none := fun y hy => hrest y (List.mem_append_left _ hy)
  have hr2 : ∀ y ∈ l2, y.restart = none := fun y hy =>
    hrest y (List.mem_append_right _ (List.mem_cons_of_mem _ hy))
  rw [raiseCopies, hlist, List.foldl_append, List.foldl_cons, raise_of_no_restart hr1, raise_of_no_restart hr2]

theorem inFlight_updCmd (id q : Nat) {f : Cmd → Cmd} (hf : ∀ c, (f c).sq = c.sq) :
    inFlight (updCmd s id f) q = inFlight s q := by
  have h : (updCmd s id f).sched.cmds.filter (·.sq == q) = (s.sched.cmds.filter (·.sq == q)).map
      fun c => if c.id == id then f c else c := by
    simp only [updCmd, mapIf, List.filter_map]
    congr 2
    funext c
    simp only [Function.comp]
    split
    · rw [hf]
    · rfl
  rw [inFlight, inFlight, h, List.length_map]

/-- Settles O36. -/
theorem restartResumesFrozenQueue : Obligations.RestartResumesFrozenQueue := by
  constructor
  · intro s q c x e b w hone hkept
    refine ⟨fun ht hp hrest => ?_, fun ht hp => congrArg Host.Outcome.next (runCommand_passes ht hp)⟩
    have hid : x.id = entQueue c := by
      have hx : x ∈ s.sched.sqs.filter (·.id == entQueue c) := by simp [hone]
      exact beq_iff_eq.1 (List.mem_filter.1 hx).2
    let f : SubQ → SubQ := fun x => { x with restart := some (some c.id) }
    let t := updSq w (entQueue c) f
    have hraise : raiseCopies t = raiseCopy t (f x) := raiseCopies_one (s := w) hone hrest
    have hact : exec (.queueRestartRetry q) s = .next (raiseCopy t (f x)) := by
      rw [← hraise]
      exact congrArg Host.Outcome.next (runCommand_passes ht hp)
    have hfly : inFlight t (entQueue c) = inFlight s (entQueue c) :=
      (inFlight_updCmd (s := b) c.id _ (f := fun c => { c with phase := .waiting .restart }) fun _ => rfl).trans
        (inFlight_updCmd c.id _ (f := fun c => { c with phase := .running, checked := true }) fun _ => rfl)
    have hlen : t.sched.cmds.length = s.sched.cmds.length := by
      simp [t, w, b, begun, busySlots, updSq, setPhase, updCmd, mapIf]
    have hkept' : (f x).kept = some e := hkept
    rw [hact, raiseCopy, hkept']
    simp only [f, hid, hfly, hlen, Bool.and_eq_true, decide_eq_true_eq]
    congr 1
    split
    · have hq := updSq_updSq (s := w) (entQueue c) f (fun x => { x with kept := none }) fun _ => rfl
      exact congrArg (fun t : State => ({ t with sched := { t.sched with
        cmds := w.sched.cmds ++ [{ id := s.sched.nextCmd, sq := entQueue c, urgent := x.cls == 4, entry := e
                                   retry := true, phase := .ready }]
        nextCmd := s.sched.nextCmd + 1 } } : State)) hq
    · rfl
  · intro s q x r hx hr hfind
    have hfind' : findCmd (updSq s q fun x => { x with frozen := false, kept := none, restart := none }) r.id =
      some r := hfind
    simp only [resumeFetch, hx, hr, Option.bind_some, hfind']
    rfl

/-! ### LOG_READ, IDENTIFY and POWER_STATE (R368, R369, R374, R599, R600) -/

theorem sched_busySlots (s : State) (c : Cmd) (l : List (Nat × Nat)) :
    (busySlots s c l).sched = { s.sched with cmds := (busySlots s c l).sched.cmds } := by
  unfold busySlots
  induction l generalizing s with
  | nil => rfl
  | cons p l ih =>
    have h : (slotBusy s c.id p.1).sched = { s.sched with cmds := (slotBusy s c.id p.1).sched.cmds } := by
      unfold slotBusy slotWrite
      rw [updCmd, written_emit s]
    rw [List.foldl_cons, ih, h]

theorem logRecords_begun (s : State) (c : Cmd) (l : List (Nat × Nat)) (page lo hi : Nat) :
    logRecords (begun s c l) page lo hi = logRecords s page lo hi := by
  have hsame := completes_begun s c l
  have hlintel : (begun s c l).lintel = s.lintel := by rw [hsame.same]
  have hlog : (begun s c l).hw.log = s.hw.log := by rw [hsame.hw]
  have hnext : (begun s c l).hw.next = s.hw.next := by rw [hsame.hw]
  have herr : (begun s c l).sched.errLog = s.sched.errLog := by
    rw [begun, sched_busySlots]
    rfl
  have herrNext : (begun s c l).sched.errNext = s.sched.errNext := by
    rw [begun, sched_busySlots]
    rfl
  unfold logRecords
  rw [hlintel, hlog, hnext, herr, herrNext]

theorem length_fit (n : Nat) (bs : List Byte) : (fit n bs).length = n := by
  simp only [fit, zeros, List.length_take, List.length_append, List.length_replicate]
  omega

/-- A POWER_STATE of STATE 0 asks for Serving, at once. -/
theorem actPowerState_serving (hreq : s.power.request = none) (hst : entField c 64 1 = 0) :
    actPowerState s c = succeed { s with power := { s.power with
      target := 0, automatic := false, request := none, waitFor := [] } } c 0 0 0 0 0 := by
  simp [actPowerState, hreq, hst]

/-- A POWER_STATE of another STATE is kept until that state is entered. -/
theorem actPowerState_other (hreq : s.power.request = none) (hst : entField c 64 1 ≠ 0) :
    actPowerState s c = { s with power := { s.power with
      target := entField c 64 1, automatic := false, request := some c.id
      waitFor := dispatchedBefore s c } } := by
  simp [actPowerState, hreq, hst]

theorem identPayload_module (h : identSelector c = 0) : identPayload s c = capability s := by
  simp [identPayload, h]

theorem identPayload_collection (h : identSelector c = 1) (hk : findColl s (entColl c) = some k) :
    identPayload s c = describe s k := by
  simp [identPayload, h, hk]

/-- Settles O37. -/
theorem logReadIdentifyAndPowerStateComplete : Obligations.LogReadIdentifyAndPowerStateComplete := by
  constructor
  · intro s q c
    refine ⟨fun ht hp => ?_, fun ht hp hst hreq => ?_, fun ht hp hst hreq => ?_⟩
    · intro b from' r
      have hr : logRecords b (entField c 64 1) from' (from' + entCount c) = r := logRecords_begun _ _ _ _ _ _
      rw [← hr]
      exact congrArg Host.Outcome.next (runCommand_passes ht hp)
    · exact congrArg Host.Outcome.next ((runCommand_passes ht hp).trans
        (actPowerState_serving (s := begun s c []) (c := ran c) hreq hst))
    · exact ⟨_, congrArg Host.Outcome.next ((runCommand_passes ht hp).trans
        (actPowerState_other (s := begun s c []) (c := ran c) hreq hst)), rfl, rfl, rfl, rfl⟩
  · intro s q c slots b ht hp
    have hact : exec (.identify q) s = .next (actIdentify b (ran c)) :=
      congrArg Host.Outcome.next (runCommand_passes ht hp)
    refine ⟨fun hsel => ⟨?_, length_fit _ _⟩, fun k hsel hk => ?_⟩
    · rw [hact, actIdentify, identPayload_module (c := ran c) hsel]
      rfl
    · have hk' : findColl b (entColl (ran c)) = some k := (Walks.findColl_begun _ _ _ _).trans hk
      rw [hact, actIdentify, identPayload_collection (c := ran c) hsel hk']
      rfl

end Sys2Proof.Queues
end

section
/-!
PROOF. The doorbells, the interrupts that coalesce, and the administration queues (R342, R348, R362, R372,
R377, R383).
-/

open Sys2Proof Sys2Proof.Machine Sys2Proof.Steps Sys2Proof.Lists Sys2Proof.Registers Sys2Proof.TimeKeeper
  Sys2Proof.Queues

namespace Sys2Proof.QueueRegisters

variable {s : State} {v : BitVec 32}

/-! ### Doorbells (R348, R377) -/

theorem blockAt_doorbell {o : Nat} (ho : o < 0x10000) : blockAt (0x20000 + o) = some (.doorbell, o) := by
  have hdiv : (0x20000 + o) / 0x10000 - 2 = 0 := by omega
  have hmod : (0x20000 + o) % 0x10000 = o := by omega
  rw [blockAt, if_neg (by omega), if_pos (by omega), hdiv, hmod]
  rfl

/-- A write of a doorbell that arrives while the module serves. -/
theorem companionRequest_doorbell {i : Instr} {o tag : Nat} (h : RequestArrives s)
    (hready : s.quoin.stage = 7) (ho : o < 0x10000) (h8 : o % 8 = 0)
    (hi : mmioOf i = some ⟨0x20000 + o, false, some (v.toNat, tag)⟩) :
    companionRequest s i = answer (writeDoorbell (awoken s) o v.toNat) (.cmpResp tag 0) := by
  have hup : blockUp (awoken s) .doorbell = true := (Bool.and_eq_true_iff.1 h.1).2
  have halign : (0x20000 + o) % accessBytes false = 0 := by
    have h4 : accessBytes false = 4 := rfl
    rw [h4]
    omega
  have hreg : regAt (awoken s) .doorbell (o / 8 * 8) = r32 0 := by simp [regAt]
  have hv : writeValue false o v.toNat (regAt (awoken s) .doorbell (o / 8 * 8)) = some v.toNat := by
    rw [hreg]
    simp [writeValue, r32, h8, Nat.mod_eq_of_lt v.isLt]
  rw [companionRequest_write h hready hi,
    writeReg_of_value (s := awoken s) halign (blockAt_doorbell ho) hup rfl hv]
  rfl

/-- Where no completion is held and no queue is being deleted, a head that advances posts nothing. -/
theorem ringHead_of_none_held {q n : Nat} (hheld : ∀ x ∈ s.sched.cqs, x.held = [])
    (hdel : ∀ x ∈ s.sched.sqs, x.deletedBy = none) : ringHead s q n =
      updCq s q fun x => if n < x.depth then { x with head := n } else { x with dbErr := true } := by
  have hnone : ∀ x ∈ (updCq s q fun x =>
      if n < x.depth then { x with head := n } else { x with dbErr := true }).sched.cqs, x.held = [] := by
    intro x hx
    obtain ⟨y, hy, rfl⟩ := List.mem_map.1 hx
    have hy := hheld y hy
    split
    · dsimp only
      split <;> exact hy
    · exact hy
  rw [ringHead, flushAllHeld]
  have hflush : ∀ (l : List ComplQ) (t : State), (∀ x ∈ l, x.held = []) →
      l.foldl (fun s q => flushHeld q.held.length q.id s) t = t := fun l t hl =>
    List.foldlRecOn (motive := (· = t)) l _ rfl fun u hu x hx => by rw [hl x hx]; exact hu
  rw [hflush _ _ hnone]
  exact CommandInterface.settleDeletes_of_none_deleted hdel

/-! ### The administration queues (R342, R372, R383) -/

/-- A write of ADMIN_QUEUE_CONTROL that arrives. -/
theorem companionRequest_adminControl {i : Instr} {tag : Nat} (h : RequestArrives s)
    (hready : s.quoin.stage = 7) (hup : blockUp s .sched = true)
    (hi : mmioOf i = some ⟨0x10, false, some (v.toNat, tag)⟩) :
    companionRequest s i = answer (writeAdminControl (awoken s) v.toNat) (.cmpResp tag 0) := by
  have hv : writeValue false 0x10 v.toNat (regAt (awoken s) .sched (0x10 / 8 * 8)) =
      some (v.toNat % 2 ^ 32) := rfl
  rw [companionRequest_write h hready hi,
    writeReg_of_value (s := awoken s) (b := .sched) rfl rfl hup rfl hv, Nat.mod_eq_of_lt v.isLt]
  rfl

/-- Bits set above the depths leave the depths as they are. -/
theorem bits_or {n m hi lo : Nat} (h : (m >>> lo) % 2 ^ (hi + 1 - lo) = 0) :
    bits (n ||| m) hi lo = bits n hi lo := by
  rw [bits, bits, Nat.shiftRight_or_distrib, Nat.or_mod_two_pow, h, Nat.or_zero]

theorem restart_bits {n : Nat} (h : n / 2 ^ 29 % 4 = 0) : bit n 29 = false ∧ bit n 30 = false := by
  have h29 : n / 2 ^ 29 % 2 = 0 := by omega
  have h30 : n / 2 ^ 30 % 2 = 0 := by omega
  rw [bit, bit, Nat.testBit_eq_decide_div_mod_eq, Nat.testBit_eq_decide_div_mod_eq, h29, h30]
  decide

theorem bit_or (n m i : Nat) : bit (n ||| m) i = (bit n i || bit m i) := Nat.testBit_or _ _ _

/-- ENABLE makes queues 0 of the depths that are written with it. -/
theorem writeAdminControl_enable {n : Nat} (hen : s.sched.adminEnable = false) (h31 : bit n 31 = true)
    (h30 : bit n 30 = bit n 29) (hok : adminOk s (bits n 11 0) (bits n 23 12) = true) :
    writeAdminControl s n = { s with sched := { s.sched with
      adminSqDepth := bits n 11 0, adminCqDepth := bits n 23 12, adminEnable := true
      sqs := s.sched.sqs ++ [{
        id := 0, cls := 4, depth := bits n 11 0 + 1, cq := 0, base := adminSqAddr s }]
      cqs := s.sched.cqs ++ [{
        id := 0, depth := bits n 23 12 + 1, base := adminCqAddr s, vector := some 0, coCount := 1
        coTime := 0 }] } } := by
  simp [writeAdminControl, hen, h31, h30, hok]

/-- RETRY and SKIP restart a queue 0 that is enabled and frozen. -/
theorem writeAdminControl_restart {n : Nat} (hen : s.sched.adminEnable = true) (hne : bit n 30 ≠ bit n 29)
    (hr : restartable s 0 = true) : writeAdminControl s n = restartQueue s 0 (bit n 30) none := by
  have hsame : { s with sched := { s.sched with adminEnable := true } } = s := by rw [← hen]
  simp only [writeAdminControl, hen, Bool.not_true, Bool.false_and, Bool.true_or, if_true, Bool.false_eq_true,
    if_false, hsame, hr, Bool.and_true, bne_iff_ne, ne_eq, hne, not_false_eq_true]

theorem adminOk_awoken (s : State) (sd cd : Nat) : adminOk (awoken s) sd cd = adminOk s sd cd := by
  rw [awoken_same]
  rfl

/-- Settles O39. -/
theorem doorbellsCoalescingAndAdminQueues : Obligations.DoorbellsCoalescingAndAdminQueues := by
  refine ⟨⟨fun s q v tag h hready => ?_, fun s q v tag h hready hheld hdel => ?_,
    fun s cq x t hx hfirst htime hdue => ?_⟩, fun s v tag h hready hup hv => ?_⟩
  · have ho : 16 * q.toNat < 0x10000 := by omega
    refine congrArg Host.Outcome.next ((companionRequest_doorbell h hready ho (by omega) rfl).trans ?_)
    have hstage : (awoken s).quoin.stage = 7 := hready
    have hdiv : 16 * q.toNat / 16 = q.toNat := by omega
    rw [writeDoorbell, hstage, hdiv]
    simp
    rfl
  · have ho : 16 * q.toNat + 8 < 0x10000 := by omega
    have haddr : 0x20008 + 16 * q.toNat = 0x20000 + (16 * q.toNat + 8) := by omega
    have hi : mmioOf (.cqHeadDoorbell q ⟨v, tag⟩) =
        some ⟨0x20000 + (16 * q.toNat + 8), false, some (v.toNat, tag.toNat)⟩ := by
      rw [← haddr]
      rfl
    refine congrArg Host.Outcome.next ((companionRequest_doorbell h hready ho (by omega) hi).trans ?_)
    have hstage : (awoken s).quoin.stage = 7 := hready
    have hdiv : (16 * q.toNat + 8) / 16 = q.toNat := by omega
    have hmod : ((16 * q.toNat + 8) % 16 == 0) = false := beq_false_of_ne (by omega)
    rw [writeDoorbell, hstage, hdiv, hmod, ringHead_of_none_held (s := awoken s) hheld hdel]
    rfl
  · have hexec : exec (.coalesceTimeout cq) s = execCoalesceTimeout cq s := rfl
    have hcd : coalesceDue s x = true := by simp [coalesceDue, hfirst, htime, hdue]
    rw [hexec, execCoalesceTimeout, hx]
    simp only [hcd, if_true]
    cases x.vector <;> rfl
  · intro r done
    obtain ⟨h29, h30⟩ := restart_bits hv
    refine ⟨fun hen hok => ?_, fun hen hrest => ⟨?_, ?_⟩⟩
    · refine congrArg Host.Outcome.next
        ((companionRequest_adminControl (v := v ||| 0x80000000) h hready hup rfl).trans ?_)
      have hnat : (v ||| 0x80000000).toNat = v.toNat ||| 0x80000000 := by simp
      have hsd : bits (v.toNat ||| 0x80000000) 11 0 = v.toNat % 4096 := bits_or (by decide)
      have hcd : bits (v.toNat ||| 0x80000000) 23 12 = v.toNat / 4096 % 4096 :=
        (bits_or (by decide)).trans (by rw [bits, Nat.shiftRight_eq_div_pow]; rfl)
      rw [hnat, writeAdminControl_enable (s := awoken s) hen
        (by rw [bit_or, show bit 0x80000000 31 = true by decide, Bool.or_true])
        (by rw [bit_or, bit_or, h29, h30]; decide) (by rw [hsd, hcd, adminOk_awoken]; exact hok), hsd, hcd]
      rfl
    · refine congrArg Host.Outcome.next
        ((companionRequest_adminControl (v := v ||| 0x40000000) h hready hup rfl).trans ?_)
      have hnat : (v ||| 0x40000000).toNat = v.toNat ||| 0x40000000 := by simp
      have hb30 : bit (v.toNat ||| 0x40000000) 30 = true := by rw [bit_or, h30]; decide
      have hb29 : bit (v.toNat ||| 0x40000000) 29 = false := by rw [bit_or, h29]; decide
      rw [hnat, writeAdminControl_restart (s := awoken s) hen (by rw [hb30, hb29]; decide) hrest, hb30]
    · refine congrArg Host.Outcome.next
        ((companionRequest_adminControl (v := v ||| 0x20000000) h hready hup rfl).trans ?_)
      have hnat : (v ||| 0x20000000).toNat = v.toNat ||| 0x20000000 := by simp
      have hb30 : bit (v.toNat ||| 0x20000000) 30 = false := by rw [bit_or, h30]; decide
      have hb29 : bit (v.toNat ||| 0x20000000) 29 = true := by rw [bit_or, h29]; decide
      rw [hnat, writeAdminControl_restart (s := awoken s) hen (by rw [hb30, hb29]; decide) hrest, hb30]
      rfl

end Sys2Proof.QueueRegisters
end

section
/-!
PROOF. Registers read with the counts that a read clears, and registers written over Uzone (R419, R529, R587
to R601).
-/

open Sys2Proof Sys2Proof.Machine Sys2Proof.Steps Sys2Proof.Lists Sys2Proof.Registers Sys2Proof.TimeKeeper

namespace Sys2Proof.RegisterAccess

variable {s : State} {a v tag : Nat} {eight : Bool} {i : Instr}

/-! ### Reads (R497, R593) -/

/-- A register that is read over Uzone while the module serves. -/
theorem companionRequest_read (h : RequestArrives s) (hready : s.quoin.stage = 7)
    (hi : mmioOf i = some ⟨a, eight, none⟩) (hreach : reaches (awoken s) a eight = true) :
    companionRequest s i = answer { readClears (awoken s) a eight with
      drawn := (readClears (awoken s) a eight).drawn + 1
      lastRead := BitVec.ofNat 64 (readReg (awoken s) a eight) }
      (.mmioData (Config.freeChoice (readClears (awoken s) a eight).drawn % 4096) eight
        (BitVec.ofNat 64 (readReg (awoken s) a eight))) := by
  have hin : mmioIn (awoken s) = true := h.1
  have hserved : mmioServed (awoken s) a = true := by simp [mmioServed, hready]
  have hread : mmioRead (awoken s) a eight = { readClears (awoken s) a eight with
      lastRead := BitVec.ofNat 64 (readReg (awoken s) a eight) } := by
    simp [mmioRead, hin, hserved, readAccess, hreach]
  rw [companionRequest_of_arrives h hi]
  simp only [mmioOne, hread]

theorem readReg_of_block {b : RegBlock} {o : Nat} (ha : a % accessBytes eight = 0)
    (hb : blockAt a = some (b, o)) (hup : blockUp s b = true) (hs : byteStruct s b o (accessBytes eight) = none) :
    readReg s a eight = regPart eight o (regAt s b (o / 8 * 8)) := by
  simp [readReg, ha, hb, hup, hs]

theorem readReg_wide {b : RegBlock} {o n : Nat} (ha : a % 8 = 0) (hb : blockAt a = some (b, o))
    (hup : blockUp s b = true) (hs : byteStruct s b o 8 = none) (hreg : regAt s b (o / 8 * 8) = r64 n) :
    readReg s a true = n % 2 ^ 64 := by
  rw [readReg_of_block (eight := true) ha hb hup hs, hreg]
  rfl

theorem readReg_narrow {b : RegBlock} {o n : Nat} (ha : a % 4 = 0) (hb : blockAt a = some (b, o))
    (hup : blockUp s b = true) (hs : byteStruct s b o 4 = none) (ho : o % 8 = 0)
    (hreg : regAt s b (o / 8 * 8) = r32 n) : readReg s a false = n % 2 ^ 32 := by
  rw [readReg_of_block (eight := false) ha hb hup hs, hreg]
  simp [regPart, r32, ho]

theorem readReg_uzoneErrors (hup : blockUp s .uzone = true) : readReg s 0x60020 true =
    (sat 0xFFFF s.uzone.retrains * 2 ^ 48 + sat 0xFFFF s.uzone.replays * 2 ^ 32 +
      sat 0xFFFF s.uzone.checkErrors * 2 ^ 16 + sat 0xFFFF s.uzone.uncorrectable) % 2 ^ 64 :=
  readReg_wide (o := 0x20) rfl rfl hup rfl rfl

theorem readReg_plumbFails (hup : blockUp s .plumb = true) : readReg s 0x50200 true =
    (s.plumb.auditFails * 2 ^ 32 + s.plumb.mortarFails * 2 ^ 16 + s.plumb.insertFails) % 2 ^ 64 :=
  readReg_wide (o := 0x200) rfl rfl hup rfl rfl

theorem readReg_peerEvents (hup : blockUp s .mortar = true) : readReg s 0x70028 true =
    (sat 0xFFFF s.mortar.lostCount * 2 ^ 48 + sat 0xFFFF s.mortar.regained * 2 ^ 32 +
      s.mortar.lastLost.toNat) % 2 ^ 64 :=
  readReg_wide (o := 0x28) rfl rfl hup rfl rfl

theorem readReg_errorCounts (s : State) : readReg s 0xA0300 true = errorCounts s % 2 ^ 64 :=
  readReg_wide (b := .quoin) (o := 0x300) rfl rfl rfl rfl rfl

theorem readReg_publishDelay (hup : blockUp s .sched = true) : readReg s 0x710 false =
    (sat 0xFFFF s.epochs.delayMax * 2 ^ 16 + sat 0xFFFF s.epochs.delayLast) % 2 ^ 32 :=
  readReg_narrow (o := 0x710) rfl rfl hup rfl rfl rfl

theorem readReg_clockStatus (s : State) : readReg s 0xA0410 false = clockStatus s % 2 ^ 32 :=
  readReg_narrow (b := .quoin) (o := 0x410) rfl rfl rfl rfl rfl rfl

/-! ### Writes (R11, R12, R529, R593) -/

/-- A write of 64 bits that arrives while the module serves. -/
theorem write_wide {x : BitVec 32} {y : BitVec 64} {tag : BitVec 12} (h : RequestArrives s)
    (hready : s.quoin.stage = 7) (ha : x.toNat = a) : companionRequest s (.registerWrite x true ⟨y, tag⟩) =
      answer (writeReg (awoken s) (companionSource a true y.toNat) a true y.toNat) (.cmpResp tag.toNat 0) := by
  refine companionRequest_write h hready ?_
  have hv : y.toNat % 2 ^ (8 * accessBytes true) = y.toNat := Nat.mod_eq_of_lt y.isLt
  rw [mmioOf, hv, ha]

/-- A write of 32 bits that arrives while the module serves. -/
theorem write_narrow {x : BitVec 32} {y : BitVec 64} {tag : BitVec 12} (h : RequestArrives s)
    (hready : s.quoin.stage = 7) (ha : x.toNat = a) :
    companionRequest s (.registerWrite x false ⟨y, tag⟩) =
      answer (writeReg (awoken s) (companionSource a false (y.toNat % 2 ^ 32)) a false (y.toNat % 2 ^ 32))
        (.cmpResp tag.toNat 0) := by
  refine companionRequest_write h hready ?_
  rw [mmioOf, ha]
  rfl

theorem writeValue_wide {o n v : Nat} (ho : o % 8 = 0) : writeValue true o v (r64 n) = some v := by
  simp [writeValue, r64, ho]

theorem writeValue_narrow {o n v : Nat} (ho : o % 8 = 0) (b : Bool) :
    writeValue b o v (r32 n) = some (v % 2 ^ 32) := by
  simp [writeValue, r32, ho]

/-- The polynomial of a Plumb unit. -/
theorem writeReg_poly (hup : blockUp s .plumb = true) {u : Fin 4} {w : Source} :
    writeReg s w (0x50008 + 0x40 * u.val) true v = writePlumb s (8 + 0x40 * u.val) v := by
  fin_cases u
  · exact writeReg_of_value (o := 0x08) rfl rfl hup rfl (writeValue_wide rfl)
  · exact writeReg_of_value (o := 0x48) rfl rfl hup rfl (writeValue_wide rfl)
  · exact writeReg_of_value (o := 0x88) rfl rfl hup rfl (writeValue_wide rfl)
  · exact writeReg_of_value (o := 0xC8) rfl rfl hup rfl (writeValue_wide rfl)

theorem writePlumb_poly {u : Fin 4} : writePlumb s (8 + 0x40 * u.val) v =
    updUnit s u.val fun p => { p with poly := BitVec.ofNat 64 v } := by
  fin_cases u <;> rfl

theorem writeReg_watchdog (hup : blockUp s .sched = true) {w : Source} (hv : v < 2 ^ 32) :
    writeReg s w 0x600 false v = auditedWrite s w 0x600 s.sched.watchdog v fun s =>
      { s with sched := { s.sched with watchdog := v } } := by
  have h : writeReg s w 0x600 false v = writeSched s w 0x600 (v % 2 ^ 32) :=
    writeReg_of_value (b := .sched) (o := 0x600) rfl rfl hup rfl (writeValue_narrow rfl false)
  rw [h, Nat.mod_eq_of_lt hv]
  rfl

/-- A topology with a reserved field is not taken. -/
theorem writeReg_topology (hup : blockUp s .mortar = true) {w : Source} (hv : topologyOk v = false) :
    writeReg s w 0x70000 true v = s := by
  have h : writeReg s w 0x70000 true v = writeMortar s w 0x70000 0 v :=
    writeReg_of_value (b := .mortar) (o := 0) rfl rfl hup rfl (writeValue_wide rfl)
  rw [h, writeMortar]
  simp [hv]

/-- BOOT_STATUS is read only. -/
theorem writeReg_bootStatus {w : Source} : writeReg s w 0xA0100 true v = s := by
  have h : writeReg s w 0xA0100 true v = writeQuoin s 0x100 v :=
    writeReg_of_value (b := .quoin) (o := 0x100) rfl rfl rfl rfl (writeValue_wide rfl)
  rw [h]
  rfl

/-- KV_SEQUENCES is read only. -/
theorem writeReg_sequences (hup : blockUp s .sched = true) {w : Source} : writeReg s w 0x500 false v = s := by
  have h : writeReg s w 0x500 false v = writeSched s w 0x500 (v % 2 ^ 32) :=
    writeReg_of_value (b := .sched) (o := 0x500) rfl rfl hup rfl (writeValue_narrow rfl false)
  rw [h]
  rfl

/-- No register lies at an address of no block. -/
theorem writeReg_absent {w : Source} : writeReg s w 0xC0000 true v = s := rfl

/-- Settles O55. -/
theorem registerReadsAndWrites : Obligations.RegisterReadsAndWrites := by
  refine ⟨?_, ?_, ?_⟩
  · intro s h hready hdom r gives
    have hin : s.power.domains.getLsbD 20 = true := (Bool.and_eq_true_iff.1 h.1).2
    refine ⟨?_, fun h1 h2 h3 h4 => ?_, ?_, ?_, ?_, ?_, ?_⟩
    · have hr : readReg (awoken s) 0x60020 true = readReg s 0x60020 true := by
        rw [readReg_uzoneErrors hin, readReg_uzoneErrors (s := awoken s) hin, awoken_same]
      refine congrArg Host.Outcome.next
        ((companionRequest_read (a := 0x60020) (eight := true) h hready rfl hin).trans ?_)
      rw [hr]
      rfl
    · rw [readReg_uzoneErrors hin, sat, sat, sat, sat, Nat.min_eq_right h1, Nat.min_eq_right h2,
        Nat.min_eq_right h3, Nat.min_eq_right h4]
      omega
    · refine congrArg Host.Outcome.next
        ((companionRequest_read (a := 0x50200) (eight := true) h hready rfl hdom).trans ?_)
      rw [readReg_plumbFails (s := awoken s) hdom]
      rfl
    · have hr : readReg (awoken s) 0x70028 true = readReg s 0x70028 true := by
        rw [readReg_peerEvents hdom, readReg_peerEvents (s := awoken s) hdom]
        rfl
      refine congrArg Host.Outcome.next
        ((companionRequest_read (a := 0x70028) (eight := true) h hready rfl hdom).trans ?_)
      rw [hr]
      rfl
    · have hr : readReg (awoken s) 0xA0300 true =
          min 0xFFFF s.hw.deferred * 2 ^ 32 + min 0xFFFFFFFF s.hw.corrected := by
        rw [readReg_errorCounts]
        refine Nat.mod_eq_of_lt ?_
        have h1 : errorCounts (awoken s) = min 0xFFFF s.hw.deferred * 2 ^ 32 + min 0xFFFFFFFF s.hw.corrected := rfl
        rw [h1]
        omega
      refine congrArg Host.Outcome.next ((companionRequest_read (eight := true) h hready rfl rfl).trans ?_)
      rw [hr]
      rfl
    · have hr : readReg (awoken s) 0x710 false =
          min 0xFFFF s.epochs.delayMax * 2 ^ 16 + min 0xFFFF s.epochs.delayLast := by
        rw [readReg_publishDelay (s := awoken s) hdom]
        refine Nat.mod_eq_of_lt ?_
        have h1 : sat 0xFFFF (awoken s).epochs.delayMax * 2 ^ 16 + sat 0xFFFF (awoken s).epochs.delayLast =
          min 0xFFFF s.epochs.delayMax * 2 ^ 16 + min 0xFFFF s.epochs.delayLast := rfl
        rw [h1]
        omega
      refine congrArg Host.Outcome.next
        ((companionRequest_read (a := 0x710) (eight := false) h hready rfl hdom).trans ?_)
      rw [hr]
      rfl
    · have hr : readReg (awoken s) 0xA0410 false = readReg s 0xA0410 false := by
        rw [readReg_clockStatus, readReg_clockStatus]
        rfl
      refine congrArg Host.Outcome.next ((companionRequest_read (eight := false) h hready rfl rfl).trans ?_)
      rw [hr]
      rfl
  · intro s a e v tag h n x w
    have hexec : exec (.registerWrite a e ⟨v, tag⟩) s =
        .next (answer (mmioWrite (awoken s) a.toNat e x) (.cmpResp tag.toNat 0)) :=
      congrArg Host.Outcome.next ((companionRequest_of_arrives h (x := ⟨a.toNat, e, some (x, tag.toNat)⟩) rfl).trans
        rfl)
    have hin : mmioIn (awoken s) = true := h.1
    refine ⟨fun hserved => ?_, fun hserved => ?_⟩
    · have hserved' : mmioServed (awoken s) a.toNat = true := hserved
      rw [hexec, mmioWrite, hin, hserved']
      rfl
    · have hserved' : mmioServed (awoken s) a.toNat = false := hserved
      rw [hexec, mmioWrite, hin, hserved']
      rfl
  · intro s v tag hserved h r gives
    obtain ⟨hready, -, -, hdom, haudit, hst, hentering⟩ := hserved
    refine ⟨fun u => ?_, ?_, fun htopo => ?_, ?_, ?_, ?_⟩
    · have hu : (0x50008 + 0x40 * BitVec.ofNat 32 u.val).toNat = 0x50008 + 0x40 * u.val := by
        fin_cases u <;> rfl
      refine congrArg Host.Outcome.next ((write_wide h hready hu).trans ?_)
      rw [writeReg_poly (s := awoken s) hdom, writePlumb_poly, BitVec.ofNat_toNat, BitVec.setWidth_eq]
      rfl
    · refine congrArg Host.Outcome.next ((write_narrow (a := 0x600) h hready rfl).trans ?_)
      have ha : auditOk (awoken s) = true := haudit
      rw [writeReg_watchdog (s := awoken s) hdom (Nat.mod_lt _ (by decide)), auditedWrite, ha, if_pos rfl,
        toServing_of_serving (s := awoken s) hst hentering]
      rfl
    · refine congrArg Host.Outcome.next ((write_wide (a := 0x70000) h hready rfl).trans ?_)
      rw [writeReg_topology (s := awoken s) hdom htopo]
    · refine congrArg Host.Outcome.next ((write_wide (a := 0xA0100) h hready rfl).trans ?_)
      rw [writeReg_bootStatus]
    · refine congrArg Host.Outcome.next ((write_narrow (a := 0x500) h hready rfl).trans ?_)
      rw [writeReg_sequences (s := awoken s) hdom]
    · refine congrArg Host.Outcome.next ((write_wide (a := 0xC0000) h hready rfl).trans ?_)
      rw [writeReg_absent]

end Sys2Proof.RegisterAccess
end

section
/-!
PROOF. The Uzone link: flits and replays, training, and the parameters (R407 to R432).
-/

open Sys2Proof Sys2Proof.Machine Sys2Proof.Steps Sys2Proof.Lists Sys2Proof.Moves Sys2Proof.Registers Sys2Proof.Nand
  Sys2Proof.CommandInterface

namespace Sys2Proof.UzoneLink

variable {s : State} {l m n : Link} {f : List Byte}

/-! ### What a link sends (R412 to R416) -/

/-- What leaves a link changes its flits that are kept or not, its credits and what waits alone. -/
def SendsOn (l m : Link) : Prop := m = { l with
  kept := m.kept, txNext := m.txNext, owed := m.owed, unkept := m.unkept, waiting := m.waiting
  credits := m.credits }

theorem SendsOn.trans (h1 : SendsOn l m) (h2 : SendsOn m n) : SendsOn l n := by
  unfold SendsOn at *
  rw [h2, h1]

theorem sendsOn_sendBodies (l : Link) (x : Msg) (bodies : List (List Byte → List Byte)) :
    SendsOn l (sendBodies l x bodies) :=
  List.foldlRecOn (motive := SendsOn l) _ _ rfl fun _ hm _ _ => hm.trans rfl

theorem sendsOn_sendMsg (u : Uzone) (x : Msg) : SendsOn u.link (sendMsg u x).link :=
  SendsOn.trans (by exact rfl) (sendsOn_sendBodies { u.link with
    credits := modAt u.link.credits (msgCost x).1 (· - (msgCost x).2) } _ _)

theorem sendsOn_pumpMsgs (u : Uzone) (ms : List Msg) (blocked : List Nat) :
    SendsOn u.link (pumpMsgs u ms blocked).link := by
  induction ms generalizing u blocked with
  | nil => rfl
  | cons x ms ih =>
    unfold pumpMsgs
    split
    · exact (sendsOn_sendMsg u x).trans (ih _ _)
    · exact SendsOn.trans (by exact rfl) (ih _ _)

theorem sendsOn_uzSend (u : Uzone) (ms : List Msg) : SendsOn u.link (uzSend u ms).link :=
  SendsOn.trans (by exact rfl) (sendsOn_pumpMsgs _ _ _)

/-- Where nothing waits, nothing leaves. -/
theorem pumpUzone_of_none_waiting {u : Uzone} (h : u.link.waiting = []) : pumpUzone u = u := by
  have hl : { u.link with waiting := [] } = u.link := by rw [← h]
  rw [pumpUzone, h, hl]
  rfl

/-! ### What a link receives (R412 to R416) -/

/-- What is sent without being kept leaves what has been received, what is kept and what waits. -/
def SendsUnkept (l m : Link) : Prop := m = { l with unkept := m.unkept, owed := m.owed }

theorem SendsUnkept.trans (h1 : SendsUnkept l m) (h2 : SendsUnkept m n) : SendsUnkept l n := by
  unfold SendsUnkept at *
  rw [h2, h1]

theorem sendsUnkept_returnCredits (l : Link) : SendsUnkept l (returnCredits l) :=
  List.foldlRecOn (motive := SendsUnkept l) _ _ rfl fun m hm _ _ => by
    split
    · exact hm
    · exact hm.trans rfl

/-- A flit that is dropped draws one NAK. -/
theorem dropFlit_spec (l : Link) : dropFlit l = { l with
    unkept := (dropFlit l).unkept
    discarding := true
    naksSent := l.naksSent + if l.discarding then 0 else 1 } := by
  unfold dropFlit
  split
  case isTrue h =>
    rw [← h]
    rfl
  case isFalse h => simp [h, sendNak, sendControl]

/-- The ACK and the credits of a flit. -/
def acknowledged (f : List Byte) (l : Link) : Link :=
  takeCredits (flitClass f) (flitCredits f) (takeAck (flitAck f) (freshLink l))

theorem acknowledged_same (f : List Byte) (l : Link) : acknowledged f l = { l with
    kept := (acknowledged f l).kept, unkept := [], credits := (acknowledged f l).credits } := by
  unfold acknowledged takeAck
  split <;> rfl

/-- A flit that is taken leaves the link's state, what it keeps and what waits. -/
theorem acceptFlit_same (w : SlotWalk) (f : List Byte) (l : Link) :
    (acceptFlit w f l).st = l.st ∧ (acceptFlit w f l).waiting = l.waiting := by
  unfold acceptFlit
  split
  · rw [sendsUnkept_returnCredits]
    exact ⟨rfl, rfl⟩
  · split
    · rw [dropFlit_spec]
      exact ⟨rfl, rfl⟩
    · exact ⟨rfl, rfl⟩

/-- A payload flit with the awaited number is delivered and acknowledged. -/
theorem acceptFlit_inSequence (w : SlotWalk) (h : inSequence f l = true) :
    (acceptFlit w f l).rxNext = l.rxNext + 1 ∧ (acceptFlit w f l).acked = some (flitSeq f) ∧
      (acceptFlit w f l).delivered = l.delivered ++ [flitSlots f] := by
  rw [acceptFlit, if_pos h, sendsUnkept_returnCredits]
  exact ⟨rfl, rfl, rfl⟩

/-! ### Counters (R430, R437) -/

/-- A counter that does not reach its limit is no event. -/
theorem countEvent_below {old new : Nat} (h : old = new ∨ new < 0xFFFF) : countEvent old new s = s := by
  have hc : (old != new && new == 0xFFFF) = false := by
    rcases h with h | h
    · simp [h]
    · simp [Nat.ne_of_lt h]
  rw [countEvent, hc]
  rfl

theorem sat_below {n : Nat} (h : n < 0xFFFF) : sat 0xFFFF n = n := Nat.min_eq_right h.le

/-- The codewords of a flit, where their count does not reach its limit. -/
theorem uzCodeword_below (errors : List Nat) (h : s.uzone.uncorrectable < 0xFFFE) :
    let e := codewordErrors (if s.uzone.link.degraded then 8 else 16) errors
    let c := codeStep s.uzone.cwBits s.uzone.cwErrors e
    uzCodeword s errors = ({ s with uzone := { s.uzone with
      link := freshLink s.uzone.link, cwBits := c.bits, cwErrors := c.errors
      uncorrectable := s.uzone.uncorrectable + (if c.begun ∧ 15 < e then 1 else 0)
      fecCorrected := if c.begun ∧ e ≤ 15 then (s.uzone.fecCorrected + e) % 2 ^ 64
        else s.uzone.fecCorrected } }, c.lost) := by
  intro e c
  have hn : (if c.begun && decide (15 < e) then sat 0xFFFF (s.uzone.uncorrectable + 1)
      else s.uzone.uncorrectable) = s.uzone.uncorrectable + (if c.begun ∧ 15 < e then 1 else 0) := by
    rw [sat_below (by omega)]
    simp only [Bool.and_eq_true, decide_eq_true_eq]
    split <;> rfl
  have hf : (if c.begun && decide (e ≤ 15) then (s.uzone.fecCorrected + e) % 2 ^ 64 else s.uzone.fecCorrected) =
      if c.begun ∧ e ≤ 15 then (s.uzone.fecCorrected + e) % 2 ^ 64 else s.uzone.fecCorrected := by
    simp only [Bool.and_eq_true, decide_eq_true_eq]
  unfold uzCodeword
  dsimp only
  rw [hn, hf, countEvent_below]
  right
  split <;> omega

/-! ### A flit that is taken, or dropped -/

theorem uzCredits_active (h : s.uzone.link.st = 2) : uzCredits s = s := by
  simp [uzCredits, h]

theorem uzSettle_quiet (h : s.uzone.link.waiting = []) (hb : (s.power.st == 2) = false) : uzSettle s = s := by
  unfold uzSettle
  dsimp only
  rw [pumpUzone_of_none_waiting h, hb]
  rfl

theorem uzDrop_below (check : Bool) (h : s.uzone.checkErrors < 0xFFFE) : uzDrop s check =
    { s with uzone := { s.uzone with
      link := dropFlit s.uzone.link, checkErrors := s.uzone.checkErrors + b2n check } } := by
  have hb : b2n check ≤ 1 := by cases check <;> decide
  unfold uzDrop
  dsimp only
  rw [sat_below (by omega), countEvent_below (.inr (by omega))]

/-! ### Retraining (R410) -/

theorem retrainUzone_below (h : s.uzone.retrains < 0xFFFE) : retrainUzone s = { s with uzone := { s.uzone with
    retrains := s.uzone.retrains + 1, cwBits := 0, cwErrors := 0, link := retrainLink s.uzone.link } } := by
  have hne : (s.uzone.retrains == 0xFFFE) = false := beq_false_of_ne (Nat.ne_of_lt h)
  simp only [retrainUzone, hne, Bool.false_eq_true, if_false]
  rw [sat_below (by omega)]

/-- Settles O42. -/
theorem uzoneFlitsAndReplay : Obligations.UzoneFlitsAndReplay := by
  intro s hst hheld
  refine ⟨?_, ?_, fun lane hdeg hre => ?_, fun hkept hre => ?_⟩
  · intro f low high errors e c w l0 hunc
    have hw := uzCodeword_below errors hunc
    have hwz : w = _ := congrArg Prod.fst hw
    have hlost : (uzCodeword s errors).2 = c.lost := congrArg Prod.snd hw
    have hrecv : uzReceives s.uzone.link = true := by simp [uzReceives, hst]
    have hexec : exec (.uzoneFlitReceived f low high) s = .next (serveHeld
        (if c.lost then uzDrop w false else if flitOk f then uzAccept w f else uzDrop w true)) := by
      have h : exec (.uzoneFlitReceived f low high) s = execUzoneFlitReceived f low high s := rfl
      rw [h, execUzoneFlitReceived, uzFlit, if_pos hrecv, ← hlost]
    have hl0 : l0 = _ := acknowledged_same f s.uzone.link
    have hl0st : l0.st = s.uzone.link.st := by rw [hl0]
    have hl0wait : l0.waiting = s.uzone.link.waiting := by rw [hl0]
    have hl0rx : l0.rxNext = s.uzone.link.rxNext := by rw [hl0]
    have hl0del : l0.delivered = s.uzone.link.delivered := by rw [hl0]
    have hlink : w.uzone.link = freshLink s.uzone.link := by rw [hwz]
    have hsame : w = { s with uzone := w.uzone } := by rw [hwz]
    have hwheld : w.uzone.heldDev = [] := by
      rw [hwz]
      exact hheld
    refine ⟨by rw [hwz], by rw [hwz], fun hnot hok hbad hwait hbank => ⟨?_, fun hkind hseq => ?_⟩,
      fun hdrop hchk => ?_⟩
    · have hacc : uzAccept w f = { w with uzone := { w.uzone with link := takePayload uzSlots f l0 } } := by
        have hl0 : takeCredits (flitClass f) (flitCredits f) (takeAck (flitAck f) w.uzone.link) = l0 := by
          rw [hlink]
        obtain ⟨hpst, hpwait⟩ := acceptFlit_same (walkPayload uzSlots f l0) f l0
        rw [hl0st] at hpst
        rw [hl0wait] at hpwait
        have hbank' : (w.power.st == 2) = false := by
          rw [hsame]
          exact beq_false_of_ne hbank
        unfold uzAccept
        dsimp only
        rw [hl0, if_neg (by rw [hbad]; exact Bool.false_ne_true)]
        rw [uzCredits_active (by exact hpst.trans hst),
          uzSettle_quiet (by exact hpwait.trans hwait) (by exact hbank')]
      rw [hexec, hnot, hok, if_neg Bool.false_ne_true, if_pos rfl, hacc, serveHeld_of_none (by exact hwheld)]
    · have hin : inSequence f l0 = true := by
        simp [inSequence, hkind, hseq, hl0rx]
      have hacc := acceptFlit_inSequence (walkPayload uzSlots f l0) hin
      rw [hl0rx, hl0del] at hacc
      exact hacc
    · have hb : (if c.lost then (0 : Nat) else 1) = b2n (!c.lost) := by cases c.lost <;> rfl
      have hchk' : w.uzone.checkErrors < 0xFFFE := by
        rw [hwz]
        exact hchk
      have hwhich : (if c.lost then uzDrop w false else if flitOk f then uzAccept w f else uzDrop w true) =
          uzDrop w (!c.lost) := by
        cases hl : c.lost with
        | true => rfl
        | false =>
          have hok : flitOk f = false := by
            rcases hdrop with h | h
            · rw [hl] at h
              cases h
            · exact h
          rw [hok]
          rfl
      have hd := uzDrop_below (s := w) (!c.lost) hchk'
      refine ⟨uzDrop w (!c.lost), ?_, ?_, ?_, ?_, ?_, ?_, ?_, ?_⟩
      · rw [hexec, hwhich, serveHeld_of_none (by rw [hd]; exact hwheld)]
      · rw [hd, hb, hwz]
      · rw [hd, hlink, dropFlit_spec]
      · rw [hd, hlink, dropFlit_spec]
        rfl
      · rw [hd, hlink, dropFlit_spec]
        rfl
      · rw [hd, hlink, dropFlit_spec]
        rfl
      · rw [hd, hlink, dropFlit_spec]
        rfl
      · rw [hd, hsame]
  · intro q hrep n t
    have hn : (takeNak q s.uzone.link).nakRun = n := by
      simp [takeNak, n]
    have hne : (s.uzone.replays == 0xFFFE) = false := beq_false_of_ne (Nat.ne_of_lt hrep)
    have hexec : exec (.uzoneNakReceived q) s = .next (if 8 ≤ n then retrainUzone t else t) := by
      have h : exec (.uzoneNakReceived q) s = execUzoneNakReceived q s := rfl
      have ht : { s with uzone := { s.uzone with
          link := takeNak q s.uzone.link, replays := sat 0xFFFF (s.uzone.replays + 1) } } = t := by
        rw [sat_below (by omega)]
        simp only [t, ← hn]
        rfl
      rw [h, execUzoneNakReceived, if_pos (by simp [hst])]
      dsimp only
      rw [hne, ht, hn, if_neg Bool.false_ne_true]
    exact ⟨fun h => by rw [hexec, if_neg (Nat.not_le.2 h)], fun h => by rw [hexec, if_pos h]⟩
  · have h : exec (.uzoneFecLockLost lane) s = execUzoneFecLockLost lane s := rfl
    rw [h, execUzoneFecLockLost, retrainUzone_below hre]
    simp [hst, laneActive, hdeg]
  · have h : exec .uzoneAckTimeout s = execUzoneAckTimeout s := rfl
    rw [h, execUzoneAckTimeout, retrainUzone_below hre]
    simp [hst, hkept]

/-! ### Training and parameters (R410, R411, R426 to R432) -/

/-- A half of the lanes that fails alone is left, from the first steps on. -/
theorem trainTimeout_half {lanes : Nat} (hlow : lanes % 256 = 0) (hne : lanes ≠ 0) (hstep : l.step ≤ 4)
    (hdeg : l.degraded = false) :
    trainTimeout 16 lanes l = { l with step := 1, degraded := true, upperHalf := false } := by
  have hhigh : (lanes / 2 ^ (16 / 2) == 0) = false := beq_false_of_ne (by omega)
  have hl : (lanes % 2 ^ (16 / 2) == 0) = true := beq_iff_eq.2 hlow
  simp only [trainTimeout, hhigh, hl]
  simp [hstep, hdeg]

/-- Where both halves fail, or none does, training starts over on the same lanes. -/
theorem trainTimeout_both {lanes : Nat} (h : lanes % 256 ≠ 0 ∧ lanes / 256 ≠ 0 ∨ lanes = 0) :
    trainTimeout 16 lanes l = { l with step := 1 } := by
  have hsame : ((lanes % 2 ^ (16 / 2) == 0) != (lanes / 2 ^ (16 / 2) == 0)) = false := by
    rcases h with ⟨h1, h2⟩ | h
    · have hlow : (lanes % 2 ^ (16 / 2) == 0) = false := beq_false_of_ne h1
      have hhigh : (lanes / 2 ^ (16 / 2) == 0) = false := beq_false_of_ne h2
      rw [hlow, hhigh]
      rfl
    · rw [h]
      rfl
  unfold trainTimeout
  dsimp only
  rw [hsame]
  rfl

/-- What a half of the lanes that is left reports (R411). -/
theorem uzDegraded_spec (s : State) (lanes : Nat) :
    SendsOn s.uzone.link (uzDegraded s lanes).uzone.link ∧
      (uzDegraded s lanes).hw.log.getLast? = some (hwRecord s 0 0x30 0 lanes 0 5) ∧
      (uzDegraded s lanes).mem = s.mem ∧ (uzDegraded s lanes).sched = s.sched := by
  have hsame := hwError_same s 0 0x30 0 lanes 0 5
  refine ⟨?_, hwError_getLast s 0x30 0 lanes 0 (.inr (by decide)), ?_, ?_⟩
  · exact (sendsOn_uzSend s.uzone [.intr 4033]).trans (sendsOn_uzSend _ [.intr 4034])
  · exact (congrArg State.mem hsame :)
  · exact (congrArg State.sched hsame :)

theorem sendParams_same (s : State) (l : Link) :
    (sendParams s l).st = l.st ∧ (sendParams s l).step = l.step := by
  unfold sendParams
  dsimp only
  split
  · rw [sendsUnkept_returnCredits]
    exact ⟨rfl, rfl⟩
  · exact ⟨rfl, rfl⟩

/-- A field of a structure in little-endian bytes. -/
theorem getLE_field {pre : List Byte} (post : List Byte) {off : Nat} (n v : Nat) (h : pre.length = off) :
    getLE (pre ++ leBytes n v ++ post) off n = v % 256 ^ n := by
  rw [← h, getLE, List.append_assoc, List.drop_left, List.take_left' (leBytes_length n v), fromLE_leBytes]

section ParamBlock

variable (s : State)

/-- The parameter block up to its session, and up to the memory it exposes. -/
def paramVersions : List Byte := header 64 ++ leBytes 2 (uzOffer s).1 ++ leBytes 2 (uzOffer s).2

def paramSession : List Byte := paramVersions s ++ leBytes 4 s.uzone.session.toNat ++ zeros 4

theorem length_paramVersions : (paramVersions s).length = 8 := by
  simp [paramVersions, header, leBytes_length]

theorem length_paramSession : (paramSession s).length = 16 := by
  simp [paramSession, length_paramVersions, leBytes_length, zeros]

theorem paramBlock_eq : paramBlock s = paramSession s ++ leBytes 8 0 ++ leBytes 2 256 ++ zeros 38 := rfl

theorem length_paramBlock : (paramBlock s).length = 64 := by
  simp only [paramBlock_eq, List.length_append, length_paramSession, leBytes_length, zeros,
    List.length_replicate]

theorem paramBlock_header : (paramBlock s).take 4 = header 64 := by
  have hlen : (header 64).length = 4 := rfl
  simp only [paramBlock, List.append_assoc]
  exact List.take_left' hlen

theorem paramBlock_session : getLE (paramBlock s) 8 4 = s.uzone.session.toNat := by
  have h := getLE_field (zeros 4 ++ (leBytes 8 0 ++ (leBytes 2 256 ++ zeros 38))) 4 s.uzone.session.toNat
    (length_paramVersions s)
  rw [paramBlock_eq, paramSession]
  simp only [List.append_assoc] at h ⊢
  rw [h]
  exact Nat.mod_eq_of_lt s.uzone.session.isLt

theorem paramBlock_exposed : getLE (paramBlock s) 16 8 = 0 := by
  have h := getLE_field (leBytes 2 256 ++ zeros 38) 8 0 (length_paramSession s)
  rw [paramBlock_eq]
  simp only [List.append_assoc] at h ⊢
  rw [h]
  rfl

theorem paramBlock_requests : getLE (paramBlock s) 24 2 = 256 := by
  have hlen : (paramSession s ++ leBytes 8 0).length = 24 := by
    rw [List.length_append, length_paramSession, leBytes_length]
  rw [paramBlock_eq]
  exact getLE_field (zeros 38) 2 256 hlen

end ParamBlock

/-- Settles O43: one fact per training step, with the parameter block read field by field. -/
theorem uzoneTrainsAndExchangesParameters : Obligations.UzoneTrainsAndExchangesParameters := by
  intro s
  refine ⟨fun lanes hst => ⟨fun hboth => ?_, fun hlow hne hstep hdeg => ?_⟩, fun b hst hok hnew => ?_,
    fun hst hdom hstage => ?_, fun hst hwait => ?_, fun hst => ?_, length_paramBlock s, paramBlock_header s,
    paramBlock_exposed s, paramBlock_requests s, paramBlock_session s⟩
  · have hboth' : lanes.toNat % 256 ≠ 0 ∧ lanes.toNat / 256 ≠ 0 ∨ lanes.toNat = 0 :=
      hboth.imp_right fun h => by rw [h]; rfl
    have hdeg : (s.uzone.link.degraded && !s.uzone.link.degraded) = false := by
      cases s.uzone.link.degraded <;> rfl
    have h : exec (.uzoneTrainingTimeout lanes) s = execUzoneTrainingTimeout lanes s := rfl
    rw [h, execUzoneTrainingTimeout, if_pos (by simpa using hst), trainTimeout_both hboth']
    dsimp only
    rw [hdeg]
    rfl
  · have hne' : lanes.toNat ≠ 0 := fun h => hne (BitVec.eq_of_toNat_eq h)
    have h : exec (.uzoneTrainingTimeout lanes) s = execUzoneTrainingTimeout lanes s := rfl
    obtain ⟨hlink, hlog, hmem, hsched⟩ := uzDegraded_spec { s with uzone := { s.uzone with
      link := { s.uzone.link with step := 1, degraded := true, upperHalf := false } } } lanes.toNat
    refine ⟨_, ?_, ?_, ?_, ?_, ⟨_, hlog, rfl, rfl⟩, hmem, hsched⟩
    · rw [h, execUzoneTrainingTimeout, if_pos (by simpa using hst), trainTimeout_half hlow hne' hstep hdeg]
      dsimp only
      rw [hdeg]
      rfl
    · rw [hlink]
    · rw [hlink]
    · rw [hlink]
  · intro lo hi
    have hexec : exec (.uzoneParameterBlock b) s = .next { s with uzone := takeParams s b } := by
      have h : exec (.uzoneParameterBlock b) s = execUzoneParameterBlock b s := rfl
      rw [h, execUzoneParameterBlock, if_pos (by simpa [hok] using hst), if_neg (by rw [hnew]; decide)]
    refine ⟨takeParams s b, hexec, fun h => ⟨if_pos h, if_pos h, ?_⟩, fun h => ⟨if_neg (Nat.not_le.2 h),
      if_neg (Nat.not_le.2 h), ?_⟩, rfl, ?_, rfl, rfl, rfl⟩
    · exact (sendParams_same s _).2.trans (if_pos h)
    · exact (sendParams_same s _).1.trans (if_neg (Nat.not_le.2 h))
    · simp only [takeParams, beq_iff_eq]
  · exact ⟨trainUzone s.uzone, by
      have h : exec .uzoneDownRetry s = execUzoneDownRetry s := rfl
      rw [h, execUzoneDownRetry]
      simp [hst, hdom, hstage], rfl, rfl, rfl, rfl⟩
  · have h : exec .uzoneLowPowerExit s = execUzoneLowPowerExit s := rfl
    rw [h, execUzoneLowPowerExit, if_pos (by simp [hst]), linkWake, if_pos (by simp [hst]),
      pumpUzone_of_none_waiting (by exact hwait)]
  · have h : exec .uzoneCompanionRetrain s = execUzoneCompanionRetrain s := rfl
    rw [h, execUzoneCompanionRetrain, if_pos (by simpa using hst)]

end Sys2Proof.UzoneLink
end

section
/-!
PROOF. The companion's requests to stack memory, its snoops, and its responses (R421 to R425, R603).
-/

open Sys2Proof Sys2Proof.Machine Sys2Proof.Steps Sys2Proof.TimeKeeper Sys2Proof.SlabRuns Sys2Proof.Tiers
  Sys2Proof.Writes Sys2Proof.Registers Sys2Proof.UzoneLink Sys2Proof.Moves

namespace Sys2Proof.Coherence

variable {s t : State} {u : Uzone} {r : Range} {i : Instr}

/-! ### How a request finds its units (R603) -/

theorem pumpUzone_st (u : Uzone) : (pumpUzone u).link.st = u.link.st := by
  have h := sendsOn_pumpMsgs { u with link := { u.link with waiting := [] } } u.link.waiting []
  unfold SendsOn at h
  rw [pumpUzone, h]

theorem uzoneDown_awoken (h : uzAwake s = true) : uzoneDown (awoken s) = uzoneDown s := by
  have hst : (awoken s).uzone.link.st = (linkWake s.uzone.link).st := pumpUzone_st _
  have hawake : s.uzone.link.st = 2 ∨ s.uzone.link.st = 4 := by simpa [uzAwake] using h
  unfold uzoneDown
  rw [hst]
  rcases hawake with h | h <;> simp [linkWake, h]

theorem reachUnit_withUzone (hexp : u.exposed = s.uzone.exposed)
    (hdown : uzoneDown { s with uzone := u } = uzoneDown s) (seen : Bool) (k : Nat) (w : Bool) (a : Nat) :
    reachUnit { s with uzone := u } seen k w a = reachUnit s seen k w a := by
  have hroute : ∀ d, reachable { s with uzone := u } d = reachable s d := fun d =>
    congrArg (fun f : Nat → Option (Nat × Nat) => (f d).isSome) (route_congr rfl)
  have hback : ∀ x, backing { s with uzone := u } x = backing s x := fun x => by
    cases x with
    | companion a =>
      simp only [backing, hexp, hdown]
    | neighbour a =>
      simp only [backing, hroute]
      rfl
    | _ => rfl
  simp only [reachUnit, hback]
  rfl

theorem devReach_withUzone (hexp : u.exposed = s.uzone.exposed) (hmaj : u.negMajor = s.uzone.negMajor)
    (hmin : u.negMinor = s.uzone.negMinor) (hdown : uzoneDown { s with uzone := u } = uzoneDown s) :
    devReach { s with uzone := u } r = devReach s r := by
  have hpoison : poisonStatus { s with uzone := u } = poisonStatus s := by
    simp only [poisonStatus, hmaj, hmin]
  simp only [devReach, reachUnit_withUzone hexp hdown, hpoison]
  rfl

theorem devReach_awoken (h : uzAwake s = true) : devReach (awoken s) r = devReach s r := by
  have hsame := awoken_same s
  exact devReach_withUzone (congrArg (·.uzone.exposed) hsame) (congrArg (·.uzone.negMajor) hsame)
    (congrArg (·.uzone.negMinor) hsame) (uzoneDown_awoken h)

/-! ### Requests, one at a time (R421) -/

/-- A request to memory that arrives is served, or waits, at once over the link that is awake. -/
theorem companionRequest_dev (h : RequestArrives s) (hi : mmioOf i = none) :
    companionRequest s i = if (devOne (awoken s) i).2 then (devOne (awoken s) i).1
      else { (devOne (awoken s) i).1 with
        uzone := { (devOne (awoken s) i).1.uzone with
          heldDev := i :: (devOne (awoken s) i).1.uzone.heldDev } } := by
  obtain ⟨hin, hawake, hheld, hroom⟩ := h
  have hsame : { awoken s with uzone := { (awoken s).uzone with heldDev := [] } } = awoken s := by
    rw [← (awoken_heldDev s).trans hheld]
  simp only [companionRequest, hin, hawake, hheld, Nat.not_le.2 hroom, Bool.and_self, Bool.not_true,
    Bool.false_eq_true, if_false, List.nil_append, awoken_with_heldDev]
  simp only [serveHeld, List.length_singleton, serveWith, serveOne, hi]
  rw [hsame]

section DevOne

variable (hasked : s.uzone.devAsked = false)
include hasked

theorem devOne_error {st : Nat} (h : devReach s (devWrites i).1 = .error st) :
    devOne s i = (devAnswer s i st, true) := by
  simp only [devOne, hasked, h, Bool.false_eq_true, if_false]

theorem devOne_hold (h : devReach s (devWrites i).1 = .hold) : devOne s i = (s, false) := by
  simp only [devOne, hasked, h, Bool.false_eq_true, if_false]

/-- A request whose accesses have all been made at once is answered at once. -/
theorem devOne_ok (h : devReach s (devWrites i).1 = .ok) (hfar : (devAccess s i).uzone.devFar = none)
    (hfailed : (devAccess s i).uzone.devFailed = none) (hout : accessOut (devAccess s i) .dev true = false) :
    devOne s i = (devAnswer (devOver (devAccess s i)) i 0, true) := by
  simp only [devOne, hasked, h, devEnd, hfailed, hfar, hout, Option.isSome_none, Bool.or_self,
    Bool.false_eq_true, if_false]

end DevOne

/-- The request in front has been asked for. -/
def devBegun (s : State) : State := { s with uzone := { s.uzone with devAsked := true } }

theorem devOver_devBegun (hasked : s.uzone.devAsked = false) (hfar : s.uzone.devFar = none)
    (hfailed : s.uzone.devFailed = none) : devOver (devBegun s) = s := by
  have h : { s.uzone with devAsked := false, devFar := none, devFailed := none } = s.uzone := by
    cases hu : s.uzone
    simp_all
  simp only [devOver, devBegun, h]

theorem accessOut_congr {o : Owner} {w : Bool} (hreqs : t.uzone.reqs = s.uzone.reqs)
    (hlink : t.uzone.link = s.uzone.link) (hm : t.mortar = s.mortar) : accessOut t o w = accessOut s o w := by
  unfold accessOut uzOut peerOut
  rw [hreqs, hlink, hm]

theorem devOk_near (hw : r.write = false) (h : devReach s r = .ok) {a : Nat} (ha : a ∈ unitsOf r) :
    devAway (reachUnit s false 4 false a) = false := by
  unfold devReach at h
  rw [hw] at h
  dsimp only at h
  repeat' split at h
  any_goals cases h
  next hany =>
    simp only [List.any_eq_true, not_exists, not_and, Bool.not_eq_true] at hany
    exact hany a ha

theorem foldl_of_fixed {α σ : Type} {f : σ → α → σ} {x : σ} {l : List α} (h : ∀ a ∈ l, f x a = x) :
    l.foldl f x = x := by
  induction l with
  | nil => rfl
  | cons a l ih => rw [List.foldl_cons, h a (by simp), ih fun b hb => h b (by simp [hb])]

/-- Units in place are read where they are. -/
theorem devAsk_of_near (h : ∀ a ∈ unitsOf r, devAway (reachUnit s false 4 false a) = false) :
    devAsk s r = s := by
  refine foldl_of_fixed fun a ha => ?_
  have hnear := h a ha
  generalize reachUnit s false 4 false a = x at hnear
  cases x with
  | host => cases hnear
  | peer n => cases hnear
  | far l => cases hnear
  | _ => rfl

theorem reachUnit_devBegun (seen : Bool) (k : Nat) (w : Bool) (a : Nat) :
    reachUnit (devBegun s) seen k w a = reachUnit s seen k w a :=
  reachUnit_withUzone (u := { s.uzone with devAsked := true }) rfl rfl seen k w a

theorem devAsk_of_ok (hw : r.write = false) (h : devReach s r = .ok) : devAsk (devBegun s) r = devBegun s :=
  devAsk_of_near fun a ha => (congrArg devAway (reachUnit_devBegun false 4 false a)).trans (devOk_near hw h ha)

/-- A request that arrives and finds its units in place is answered at once, where its accesses are done. -/
theorem companionRequest_ok (h : RequestArrives s) (hi : mmioOf i = none) (hasked : s.uzone.devAsked = false)
    (hreach : devReach s (devWrites i).1 = .ok) (hfar : (devAccess (awoken s) i).uzone.devFar = none)
    (hfailed : (devAccess (awoken s) i).uzone.devFailed = none)
    (hout : accessOut (devAccess (awoken s) i) .dev true = false) :
    companionRequest s i = devAnswer (devOver (devAccess (awoken s) i)) i 0 := by
  have hasked' : (awoken s).uzone.devAsked = false := (congrArg (·.uzone.devAsked) (awoken_same s)).trans hasked
  have hone := devOne_ok hasked' ((devReach_awoken h.2.1).trans hreach) hfar hfailed hout
  rw [companionRequest_dev h hi, hone, if_pos rfl]

theorem companionRequest_error {st : Nat} (h : RequestArrives s) (hi : mmioOf i = none)
    (hasked : s.uzone.devAsked = false) (hreach : devReach s (devWrites i).1 = .error st) :
    companionRequest s i = devAnswer (awoken s) i st := by
  have hasked' : (awoken s).uzone.devAsked = false := (congrArg (·.uzone.devAsked) (awoken_same s)).trans hasked
  rw [companionRequest_dev h hi, devOne_error hasked' ((devReach_awoken h.2.1).trans hreach), if_pos rfl]

theorem companionRequest_hold (h : RequestArrives s) (hi : mmioOf i = none)
    (hasked : s.uzone.devAsked = false) (hreach : devReach s (devWrites i).1 = .hold) :
    companionRequest s i = { awoken s with uzone := { (awoken s).uzone with heldDev := [i] } } := by
  have hasked' : (awoken s).uzone.devAsked = false := (congrArg (·.uzone.devAsked) (awoken_same s)).trans hasked
  have hheld : (awoken s).uzone.heldDev = [] := (awoken_heldDev s).trans h.2.2.1
  rw [companionRequest_dev h hi, devOne_hold hasked' ((devReach_awoken h.2.1).trans hreach),
    if_neg Bool.false_ne_true, hheld]

/-- The error status of a request is never OK. -/
theorem devReach_error_ne {st : Nat} (h : devReach s r = .error st) : st ≠ 0 := by
  have hpoison : poisonStatus s ≠ 0 := by
    unfold poisonStatus
    split <;> decide
  unfold devReach at h
  dsimp only at h
  split at h
  · cases h; decide
  split at h
  · cases h; decide
  split at h
  · cases h
  split at h
  · cases h; exact hpoison
  split at h <;> cases h

/-! ### What a request writes (R603) -/

/-- Runs of bytes written from an address on. -/
def writeRuns (o : Option Owner) (a : Nat) (xs : List (Nat × List Byte)) (s : State) : State :=
  xs.foldl (fun s x => deviceWrite s o (a + x.1) x.2) s

theorem written_writeRuns (o : Option Owner) (a : Nat) (xs : List (Nat × List Byte)) (s : State) :
    Machine.Written s (writeRuns o a xs s) :=
  .foldl (fun s _ => written_deviceWrite s o _ _) _ _

theorem homeOf_of_written (h : Machine.Written s t) (x : Nat) : homeOf t x = homeOf s x := by
  unfold Machine.Written at h
  rw [h]
  exact homeOf_congr rfl rfl rfl rfl (fun _ => rfl) x

/-- A part of a range has some of its units. -/
theorem spanUnits_subset {a n a' n' x : Nat} (ha : a ≤ a') (hn : a' + n' ≤ a + n) (hx : x ∈ spanUnits a' n') :
    x ∈ spanUnits a n := by
  unfold spanUnits unitsOf at hx ⊢
  dsimp only at hx ⊢
  split at hx
  · cases hx
  · next hne =>
    have hne' : n' ≠ 0 := by simpa using hne
    obtain ⟨i, hi, rfl⟩ := List.mem_map.1 hx
    have hi' := List.mem_range.1 hi
    rw [if_neg (by simp; omega)]
    refine List.mem_map.2 ⟨a' / unitBytes - a / unitBytes + i, List.mem_range.2 ?_, ?_⟩
    · simp only [unitBytes] at *
      omega
    · simp only [unitBytes] at *
      omega

/-- Runs within a range whose units have their homes in the stacks change no link. -/
theorem writeRuns_stack {o : Option Owner} {a n : Nat} {xs : List (Nat × List Byte)}
    (h : ∀ u ∈ spanUnits a n, ∃ x, homeOf s u = .stack x) (hin : ∀ x ∈ xs, x.1 + x.2.length ≤ n) :
    (writeRuns o a xs s).uzone = s.uzone ∧ (writeRuns o a xs s).mortar = s.mortar := by
  induction xs generalizing s with
  | nil => exact ⟨rfl, rfl⟩
  | cons x xs ih =>
    have hx := hin x (by simp)
    have hone := deviceWrite_stack (o := o) (a := a + x.1) (bs := x.2) (s := s)
      fun u hu => h u (spanUnits_subset (Nat.le_add_right a x.1) (by omega) hu)
    obtain ⟨hu, hm⟩ := ih (s := deviceWrite s o (a + x.1) x.2)
      (fun u hu => by
        rw [homeOf_of_written (written_deviceWrite s o (a + x.1) x.2)]
        exact h u hu)
      (fun y hy => hin y (by simp [hy]))
    exact ⟨hu.trans hone.1, hm.trans hone.2⟩

/-- The runs hold these data, each at its place. -/
def RunsOf (d : List Byte) (xs : List (Nat × List Byte)) : Prop :=
  ∀ x ∈ xs, ∀ j < x.2.length, x.2.getD j 0 = d.getD (x.1 + j) 0

/-- A byte that a run holds is that run's, and every other byte is kept. -/
theorem readByte_writeRuns {o : Option Owner} {a b : Nat} {xs : List (Nat × List Byte)} {d : List Byte}
    (hm : memWf s.mem = true) (h : RunsOf d xs) :
    readByte (writeRuns o a xs s).mem b =
      if ∃ x ∈ xs, a + x.1 ≤ b ∧ b < a + x.1 + x.2.length then d.getD (b - a) 0 else readByte s.mem b := by
  induction xs generalizing s with
  | nil => simp [writeRuns]
  | cons x xs ih =>
    have hm' : memWf (deviceWrite s o (a + x.1) x.2).mem = true := canon_deviceWrite s o _ _ hm
    have hrest := ih hm' fun y hy => h y (by simp [hy])
    have hstep : writeRuns o a (x :: xs) s = writeRuns o a xs (deviceWrite s o (a + x.1) x.2) := rfl
    rw [hstep, hrest, readByte_deviceWrite hm]
    simp only [List.mem_cons, exists_eq_or_imp]
    by_cases hx : a + x.1 ≤ b ∧ b < a + x.1 + x.2.length
    · have hval := h x (by simp) (b - (a + x.1)) (by omega)
      have hpos : x.1 + (b - (a + x.1)) = b - a := by omega
      rw [hpos] at hval
      rw [if_pos hx, hval, if_pos (Or.inl hx), ite_self]
    · rw [if_neg hx]
      simp only [hx, false_or]

theorem runsOf_whole {d : List Byte} (n : Nat) : RunsOf d [(0, d.take n)] := by
  intro x hx j hj
  rw [List.mem_singleton.1 hx] at hj ⊢
  have hj' : j < n := (List.length_take ▸ hj).trans_le (min_le_left _ _)
  simp [List.getD_eq_getElem?_getD, hj']

/-- The bytes from `i` on that a mask of `n` bits sets without a gap. -/
def runLength (mask n i : Nat) : Nat := (((List.range n).drop i).takeWhile (bit mask)).length

theorem lt_runLength {mask n i j : Nat} :
    j < runLength mask n i ↔ i + j < n ∧ ∀ k ≤ j, bit mask (i + k) = true := by
  have hlen : runLength mask n i = List.findIdx (fun a => !bit mask a) ((List.range n).drop i) := by
    rw [runLength, List.takeWhile_eq_take_findIdx_not, List.length_take,
      min_eq_left List.findIdx_le_length]
  rw [hlen, List.lt_findIdx_iff]
  simp only [List.length_drop, List.length_range, List.getElem_drop, List.getElem_range, Bool.not_eq_false',
    exists_prop]
  exact and_congr_left fun _ => by omega

theorem mem_maskRuns {mask n : Nat} {d : List Byte} {x : Nat × List Byte} :
    x ∈ maskRuns mask d n ↔ ∃ i < n, (bit mask i = true ∧ (i = 0 ∨ bit mask (i - 1) = false)) ∧
      (i, (d.drop i).take (runLength mask n i)) = x := by
  simp only [maskRuns, runLength, List.mem_map, List.mem_filter, List.mem_range, Bool.and_eq_true,
    Bool.or_eq_true, beq_iff_eq, Bool.not_eq_true', and_assoc]

/-- The runs of a mask cover the bytes that it sets. -/
theorem covered_iff {mask n j : Nat} : (∃ i < n, (bit mask i = true ∧ (i = 0 ∨ bit mask (i - 1) = false)) ∧
    i ≤ j ∧ j < i + runLength mask n i) ↔ j < n ∧ bit mask j = true := by
  constructor
  · rintro ⟨i, -, -, hle, hlt⟩
    have hrun := lt_runLength.1 (show j - i < runLength mask n i by omega)
    have hj : i + (j - i) = j := by omega
    exact ⟨by omega, hj ▸ hrun.2 (j - i) le_rfl⟩
  · rintro ⟨hj, hbit⟩
    induction j with
    | zero => exact ⟨0, hj, ⟨hbit, .inl rfl⟩, le_rfl, by
        have := (lt_runLength (mask := mask) (n := n) (i := 0) (j := 0)).2 ⟨by omega, fun k hk => by
          rw [Nat.le_zero.1 hk]
          exact hbit⟩
        omega⟩
    | succ j ih =>
      cases hprev : bit mask j with
      | false =>
        refine ⟨j + 1, hj, ⟨hbit, .inr hprev⟩, le_rfl, ?_⟩
        have := (lt_runLength (mask := mask) (n := n) (i := j + 1) (j := 0)).2 ⟨by omega, fun k hk => by
          rw [Nat.le_zero.1 hk]
          exact hbit⟩
        omega
      | true =>
        obtain ⟨i, hi, hstart, hle, hlt⟩ := ih (by omega) hprev
        have hrun := lt_runLength.1 (show j - i < runLength mask n i by omega)
        have hmore := (lt_runLength (mask := mask) (n := n) (i := i) (j := j + 1 - i)).2
          ⟨by omega, fun k hk => by
            by_cases hk' : k ≤ j - i
            · exact hrun.2 k hk'
            · have hlast : i + k = j + 1 := by omega
              rw [hlast]
              exact hbit⟩
        exact ⟨i, hi, hstart, by omega, by omega⟩

section MaskRuns

variable {mask n : Nat} {d : List Byte} (hlen : d.length = n)
include hlen

theorem length_maskRun (i : Nat) : ((d.drop i).take (runLength mask n i)).length = runLength mask n i := by
  rw [List.length_take, List.length_drop, hlen, min_eq_left]
  by_contra hlt
  have := (lt_runLength.1 (Nat.not_le.1 hlt)).1
  omega

theorem runsOf_maskRuns : RunsOf d (maskRuns mask d n) := by
  intro x hx j hj
  obtain ⟨i, -, -, rfl⟩ := mem_maskRuns.1 hx
  rw [length_maskRun hlen] at hj
  simp [List.getD_eq_getElem?_getD, hj]

theorem maskRuns_within : ∀ x ∈ maskRuns mask d n, x.1 + x.2.length ≤ n := by
  intro x hx
  obtain ⟨i, hi, -, rfl⟩ := mem_maskRuns.1 hx
  rw [length_maskRun hlen]
  by_contra hlt
  have := (lt_runLength (mask := mask) (n := n) (i := i) (j := n - i)).1 (by omega)
  omega

theorem maskRuns_cover {a b : Nat} :
    (∃ x ∈ maskRuns mask d n, a + x.1 ≤ b ∧ b < a + x.1 + x.2.length) ↔
      a ≤ b ∧ b < a + n ∧ bit mask (b - a) = true := by
  have hcov := covered_iff (mask := mask) (n := n) (j := b - a)
  constructor
  · rintro ⟨x, hx, hle, hlt⟩
    obtain ⟨i, hi, hstart, rfl⟩ := mem_maskRuns.1 hx
    rw [length_maskRun hlen] at hlt
    obtain ⟨hb, hbit⟩ := hcov.1 ⟨i, hi, hstart, by omega, by omega⟩
    exact ⟨by omega, by omega, hbit⟩
  · rintro ⟨hab, hb, hbit⟩
    obtain ⟨i, hi, hstart, hle, hlt⟩ := hcov.2 ⟨by omega, hbit⟩
    refine ⟨_, mem_maskRuns.2 ⟨i, hi, hstart, rfl⟩, ?_, ?_⟩
    · dsimp only
      omega
    · rw [length_maskRun hlen]
      dsimp only
      omega

end MaskRuns

/-! ### The requests of O44 -/

section Requests

variable (harrives : RequestArrives s) (hasked : s.uzone.devAsked = false) (hfar : s.uzone.devFar = none)
  (hfailed : s.uzone.devFailed = none) (hout : accessOut (awoken s) .dev true = false)
include harrives hasked hfar hfailed hout

omit harrives hout in
theorem devOver_awoken : devOver (devBegun (awoken s)) = awoken s :=
  have h := awoken_same s
  devOver_devBegun ((congrArg (·.uzone.devAsked) h).trans hasked) ((congrArg (·.uzone.devFar) h).trans hfar)
    ((congrArg (·.uzone.devFailed) h).trans hfailed)

/-- A read whose units are in place is answered at once. -/
theorem companionRequest_devRd (a : Addr) (n : BitVec 2) (g : BitVec 12)
    (hreach : devReach s (devRange a.toNat (n.toNat + 1) false) = .ok) :
    companionRequest s (.devRd a n g) = devAnswer (awoken s) (.devRd a n g) 0 := by
  have h := awoken_same s
  have hacc : devAccess (awoken s) (.devRd a n g) = devBegun (awoken s) :=
    devAsk_of_ok rfl ((devReach_awoken harrives.2.1).trans hreach)
  have hout' : accessOut (devBegun (awoken s)) .dev true = false :=
    (accessOut_congr rfl rfl rfl).trans hout
  rw [companionRequest_ok (i := .devRd a n g) harrives rfl hasked hreach
    (by rw [hacc]; exact (congrArg (·.uzone.devFar) h).trans hfar)
    (by rw [hacc]; exact (congrArg (·.uzone.devFailed) h).trans hfailed) (by rw [hacc]; exact hout'), hacc,
    devOver_awoken hasked hfar hfailed]

/-- A write whose units are in the stacks is answered at once. -/
theorem companionRequest_writes {i : Instr} {a n : Nat} {xs : List (Nat × List Byte)} (hi : mmioOf i = none)
    (hdev : devWrites i = (devRange a n true, xs)) (hreach : devReach s (devRange a n true) = .ok)
    (hstack : ∀ u ∈ unitsOf (devRange a n true), ∃ x, homeOf s u = .stack x)
    (hin : ∀ x ∈ xs, x.1 + x.2.length ≤ 64 * n) :
    ∃ t, companionRequest s i = devAnswer t i 0 ∧
      t.mem = (writeRuns (some .dev) (a / 64 * 64) xs (devBegun (awoken s))).mem ∧
      t.uzone = (awoken s).uzone ∧ t.sched = s.sched := by
  have hacc : devAccess (awoken s) i = writeRuns (some .dev) (a / 64 * 64) xs (devBegun (awoken s)) := by
    unfold devAccess
    rw [hdev]
    rfl
  have hhome : ∀ u, homeOf (devBegun (awoken s)) u = homeOf s u := fun u =>
    homeOf_congr rfl rfl rfl rfl (fun _ => rfl) u
  obtain ⟨hu, hm⟩ := writeRuns_stack (o := some .dev) (s := devBegun (awoken s)) (a := a / 64 * 64)
    (n := 64 * n) (xs := xs) (fun u hu => by rw [hhome]; exact hstack u hu) hin
  have hw := written_writeRuns (some .dev) (a / 64 * 64) xs (devBegun (awoken s))
  have hover := devOver_awoken hasked hfar hfailed
  have h := awoken_same s
  have hsched : (writeRuns (some .dev) (a / 64 * 64) xs (devBegun (awoken s))).sched = s.sched := by
    unfold Machine.Written at hw
    rw [hw]
    rfl
  rw [← hacc] at hu hm hsched ⊢
  have hreach' : devReach s (devWrites i).1 = .ok := by rw [hdev]; exact hreach
  refine ⟨_, companionRequest_ok harrives hi hasked hreach' ?_ ?_ ?_, rfl, ?_, hsched⟩
  · rw [hu]
    exact (congrArg (·.uzone.devFar) h).trans hfar
  · rw [hu]
    exact (congrArg (·.uzone.devFailed) h).trans hfailed
  · exact (accessOut_congr (congrArg (·.reqs) hu) (congrArg (·.link) hu) hm).trans hout
  · refine Eq.trans ?_ (congrArg State.uzone hover)
    unfold devOver
    dsimp only
    rw [hu]

end Requests

/-- The whole lines of a write of at most four. -/
theorem readByte_devWr {a b : Nat} {bs : List Byte} (hm : memWf s.mem = true) :
    readByte (writeRuns (some .dev) a [(0, bs.take (64 * min 4 (bs.length / 64)))] s).mem b =
      if a ≤ b ∧ b < a + 64 * min 4 (bs.length / 64) then bs.getD (b - a) 0 else readByte s.mem b := by
  have hlen : (bs.take (64 * min 4 (bs.length / 64))).length = 64 * min 4 (bs.length / 64) := by
    rw [List.length_take]
    omega
  rw [readByte_writeRuns hm (runsOf_whole _)]
  simp [hlen]

/-- The bytes of a line that a mask sets. -/
theorem readByte_devWrPartial {a b : Nat} {m : BitVec 64} {bs : List Byte} (hm : memWf s.mem = true)
    (hlen : 64 ≤ bs.length) :
    readByte (writeRuns (some .dev) a (maskRuns m.toNat (bs.take 64) 64) s).mem b =
      if a ≤ b ∧ b < a + 64 ∧ m.getLsbD (b - a) = true then bs.getD (b - a) 0 else readByte s.mem b := by
  have htake : (bs.take 64).length = 64 := by
    rw [List.length_take]
    omega
  have hbit : ∀ i, bit m.toNat i = m.getLsbD i := fun _ => rfl
  rw [readByte_writeRuns hm (runsOf_maskRuns htake)]
  simp only [maskRuns_cover htake, hbit]
  by_cases hb : a ≤ b ∧ b < a + 64 ∧ m.getLsbD (b - a) = true
  · have hlt : b - a < 64 := by omega
    rw [if_pos hb, if_pos hb]
    simp [List.getD_eq_getElem?_getD, hlt]
  · rw [if_neg hb, if_neg hb]

theorem devAnswer_devRd_error (a : Addr) (n : BitVec 2) (g : BitVec 12) {st : Nat} (h : st ≠ 0) :
    devAnswer s (.devRd a n g) st = answer s (.dataResp g.toNat st []) := by
  have hst : (st == 0) = false := beq_false_of_ne h
  simp only [devAnswer, hst, Bool.false_eq_true, if_false]

theorem exec_devRd (a : Addr) (n : BitVec 2) (g : BitVec 12) :
    exec (.devRd a n g) s = .next (companionRequest s (.devRd a n g)) := rfl
theorem exec_devWr (a : Addr) (bs : List Byte) (g : BitVec 12) :
    exec (.devWr a bs g) s = .next (companionRequest s (.devWr a bs g)) := rfl
theorem exec_devWrPartial (a : Addr) (m : BitVec 64) (bs : List Byte) (g : BitVec 12) :
    exec (.devWrPartial a m bs g) s = .next (companionRequest s (.devWrPartial a m bs g)) := rfl

/-! ### Snoops (R424, R425) -/

theorem drainOut_of_none (h : s.uzone.out = []) : drainOut s = s := by
  have hu : { s.uzone with out := [] } = s.uzone := by rw [← h]
  rw [drainOut, h, hu]
  rfl

theorem linkWake_of_active {l : Link} (h : l.st = 2) : linkWake l = l := if_neg (by simp [h])

theorem drainOut_uzSend {ms : List Msg} (h : u.out = []) :
    drainOut { s with uzone := uzSend u ms } = { s with uzone := uzSend u ms } :=
  drainOut_of_none ((congrArg Uzone.out (uzSend_same u ms)).trans h)

theorem snoop_active {a g : Nat} {share : Bool} (hst : s.uzone.link.st = 2) (hout : s.uzone.out = []) :
    snoop s a g share = { s with
      uzone := uzSend { s.uzone with
        lines := if share then mapIf (·.addr == a / 64 * 64) (fun l => { l with st := 1 }) s.uzone.lines
          else s.uzone.lines.filter (·.addr != a / 64 * 64) }
        [if lineState s.uzone (a / 64 * 64) == 3 then .snpRspData g (lineBytes s.mem (a / 64 * 64))
          else if share && lineState s.uzone (a / 64 * 64) != 0 then .snpRspS g else .snpRspI g] } := by
  unfold snoop
  dsimp only
  rw [linkWake_of_active hst]
  exact drainOut_uzSend (by exact hout)

/-! ### Responses (R420, R422, R424) -/

theorem pumpUzone_out (u : Uzone) : (pumpUzone u).out = u.out := by
  rw [pumpUzone, pumpMsgs_same]

theorem dropReq_out (tag : Nat) : (dropReq s tag).uzone.out = s.uzone.out := pumpUzone_out _

theorem agentEvict_out (m : Mem) (u : Uzone) (agent : Nat) : (agentEvict m u agent).out = u.out := by
  unfold agentEvict
  split
  · rfl
  · split
    · rfl
    · rw [uzSend_same]

theorem setLine_out (m : Mem) (u : Uzone) (agent line st : Nat) : (setLine m u agent line st).out = u.out := by
  unfold setLine
  split
  · rfl
  · split
    · rfl
    · exact agentEvict_out m u agent

/-- A response whose tag is in flight. -/
theorem respondTo_active {tag st : Nat} {act : State → UzReq → State} {r : UzReq} (hst : s.uzone.link.st = 2)
    (hfind : s.uzone.reqs.find? (·.tag == tag) = some r)
    (hout : (if st == 0 then act (dropReq s tag) r else dropReq s tag).uzone.out = []) :
    respondTo s tag st act =
      settleReq (if st == 0 then act (dropReq s tag) r else dropReq s tag) r st := by
  have hawake : uzAwake s = true := by simp [uzAwake, hst]
  have hsame : { s with uzone := { s.uzone with link := linkWake s.uzone.link } } = s := by
    rw [linkWake_of_active hst]
  unfold respondTo
  rw [if_pos hawake, hfind]
  dsimp only
  rw [hsame, drainOut_of_none hout]

section Responses

variable {g : BitVec 12} {q : UzReq} (hst : s.uzone.link.st = 2) (hout : s.uzone.out = [])
  (hfind : s.uzone.reqs.find? (·.tag == g.toNat) = some q)
include hst hout hfind

theorem exec_grantE (hk : q.kind = 2) : exec (.grantE g) s = .next (serveHeld (settleReq
    { dropReq s g.toNat with
      uzone := setLine (dropReq s g.toNat).mem (dropReq s g.toNat).uzone q.agent q.addr 2 } q 0)) := by
  have hact : (if q.kind == 2 then grantLine (dropReq s g.toNat) q else dropReq s g.toNat) =
      { dropReq s g.toNat with
        uzone := setLine (dropReq s g.toNat).mem (dropReq s g.toNat).uzone q.agent q.addr 2 } := by
    rw [if_pos (by simpa using hk), grantLine, if_neg (by simp [hk])]
  have h : exec (.grantE g) s = .next (serveHeld (grantIn s g.toNat)) := rfl
  rw [h, grantIn, respondTo_active hst hfind]
  · exact congrArg (fun x => Host.Outcome.next (serveHeld (settleReq x q 0))) hact
  · refine (congrArg (·.uzone.out) hact).trans ?_
    exact (setLine_out _ _ _ _ _).trans ((dropReq_out _).trans hout)

omit hout in
/-- Bytes of DATA are taken as their request asks. -/
theorem exec_data (h : BitVec 2) (bs : List Byte) (hlast : (takeData (dropReq s g.toNat) q bs).uzone.out = []) :
    exec (.data g h 0 bs) s = .next (serveHeld (settleReq (takeData (dropReq s g.toNat) q bs) q 0)) := by
  have h' : exec (.data g h 0 bs) s = .next (serveHeld (dataIn s g.toNat 0 bs)) := rfl
  have hgo : respondTo s g.toNat 0 (fun s r => takeData s r bs) =
      settleReq (takeData (dropReq s g.toNat) q bs) q 0 :=
    respondTo_active (st := 0) (act := fun s r => takeData s r bs) hst hfind hlast
  rw [h', dataIn, hgo]

theorem exec_data_bytes (hk : q.kind = 3) (h : BitVec 2) (bs : List Byte) :
    exec (.data g h 0 bs) s = .next (serveHeld (settleReq { dropReq s g.toNat with
      mem := writeBytes s.mem (hostName s q.addr) (bs.take 256) } q 0)) := by
  have hact : takeData (dropReq s g.toNat) q bs = { dropReq s g.toNat with
      mem := writeBytes s.mem (hostName s q.addr) (bs.take 256) } := by
    rw [takeData, if_pos (by simpa using hk)]
    rfl
  rw [exec_data hst hfind h bs (by rw [hact]; exact (dropReq_out _).trans hout), hact]

theorem exec_data_line (hk : q.kind = 1 ∨ q.kind = 2) (h : BitVec 2) (bs : List Byte) :
    exec (.data g h 0 bs) s = .next (serveHeld (settleReq { dropReq s g.toNat with
      mem := writeBytes s.mem (companionBase + q.addr) (bs.take 64)
      uzone := setLine (writeBytes s.mem (companionBase + q.addr) (bs.take 64)) (dropReq s g.toNat).uzone
        q.agent q.addr (if q.kind = 1 then 1 else 2) } q 0)) := by
  have hne : q.kind ≠ 3 := by omega
  have hact : takeData (dropReq s g.toNat) q bs = { dropReq s g.toNat with
      mem := writeBytes s.mem (companionBase + q.addr) (bs.take 64)
      uzone := setLine (writeBytes s.mem (companionBase + q.addr) (bs.take 64)) (dropReq s g.toNat).uzone
        q.agent q.addr (if q.kind = 1 then 1 else 2) } := by
    rw [takeData, if_neg (by simpa using hne), if_pos (by simpa using hk), grantLine]
    simp only [beq_iff_eq]
    rfl
  have hlast : (takeData (dropReq s g.toNat) q bs).uzone.out = [] := by
    rw [hact]
    exact (setLine_out _ _ _ _ _).trans ((dropReq_out _).trans hout)
  rw [exec_data hst hfind h bs hlast, hact]

theorem exec_cmp (st : BitVec 16) :
    exec (.cmp g st) s = .next (serveHeld (settleReq (dropReq s g.toNat) q st.toNat)) := by
  have h : exec (.cmp g st) s = .next (serveHeld (cmpIn s g.toNat st.toNat)) := rfl
  rw [h, cmpIn, respondTo_active hst hfind (by rw [ite_self]; exact (dropReq_out _).trans hout), ite_self]

end Responses

/-! ### The statement -/

/-- Settles O44: one lemma per request, snoop and response. -/
theorem companionRequestsAndResponses : Obligations.CompanionRequestsAndResponses := by
  constructor
  · intro s harrives hmem hasked hfar hfailed hout onStack
    refine ⟨fun a n g => ?_, fun a bs g => ?_, fun a m bs g => ?_⟩
    · intro r
      refine ⟨fun hok => ?_, fun st herr => ?_, fun hhold => ?_⟩
      · rw [exec_devRd, companionRequest_devRd harrives hasked hfar hfailed hout a n g hok]
        rfl
      · rw [exec_devRd, companionRequest_error (i := .devRd a n g) harrives rfl hasked herr,
          devAnswer_devRd_error a n g (devReach_error_ne herr)]
      · rw [exec_devRd, companionRequest_hold (i := .devRd a n g) harrives rfl hasked hhold]
    · intro n r hok hstack
      obtain ⟨t, ht, htm, htu, hts⟩ := companionRequest_writes harrives hasked hfar hfailed hout
        (i := .devWr a bs g) (a := a.toNat) rfl rfl hok hstack (by simp [List.length_take])
      refine ⟨t, ?_, fun b => ?_, htu, hts⟩
      · rw [exec_devWr, ht]
        rfl
      · rw [htm, readByte_devWr (s := devBegun (awoken s)) hmem]
        rfl
    · intro r hok hstack hlen
      have htake : (bs.take 64).length = 64 := by
        rw [List.length_take]
        omega
      obtain ⟨t, ht, htm, htu, hts⟩ := companionRequest_writes harrives hasked hfar hfailed hout
        (i := .devWrPartial a m bs g) (a := a.toNat) rfl rfl hok hstack (maskRuns_within htake)
      refine ⟨t, ?_, fun b => ?_, htu, hts⟩
      · rw [exec_devWrPartial, ht]
        rfl
      · rw [htm, readByte_devWrPartial (s := devBegun (awoken s)) hmem hlen]
        rfl
  · intro s hst hout hheld
    refine ⟨fun a g => ?_, fun g q hfind => ?_⟩
    · intro line x
      constructor
      · have h : exec (.snpShare a g) s = .next (if uzAwake s then snoop s a.toNat g.toNat true else s) := rfl
        rw [h, if_pos (by simp [uzAwake, hst]), snoop_active hst hout]
        simp only [beq_iff_eq, Bool.true_and, bne_iff_ne, if_true]
        rfl
      · have h : exec (.snpInv a g) s = .next (if uzAwake s then snoop s a.toNat g.toNat false else s) := rfl
        rw [h, if_pos (by simp [uzAwake, hst]), snoop_active hst hout]
        simp only [beq_iff_eq, Bool.false_and, Bool.false_eq_true, if_false]
        rfl
    · intro t goes
      have hgoes : ∀ x, goes x = serveHeld (settleReq x q 0) := fun x => by
        simp only [goes, settleReq]
        cases q.owner <;> rfl
      refine ⟨fun hwait => ?_, fun hk => ?_, fun hk h bs => ?_, fun hk h bs => ?_, ?_, fun o ho => ?_⟩
      · simp only [t, dropReq]
        rw [pumpUzone_of_none_waiting (by exact hwait)]
      · rw [exec_grantE hst hout hfind hk, hgoes]
      · rw [exec_data_bytes hst hout hfind hk, hgoes]
      · exact (exec_data_line hst hout hfind hk h bs).trans (congrArg Host.Outcome.next (hgoes _).symm)
      · rw [exec_cmp hst hout hfind, hgoes]
        rfl
      · rw [exec_cmp hst hout hfind]
        simp only [settleReq, ho]
        rfl

end Sys2Proof.Coherence
end

section
/-!
PROOF. Mortar's control messages, and messages in transit (R446 to R450, R461 to R466, R526, R527).
-/

open Sys2Proof Sys2Proof.Machine Sys2Proof.Steps Sys2Proof.Lists Sys2Proof.CommandInterface
  Sys2Proof.UzoneLink

namespace Sys2Proof.MortarControl

variable {s : State} {p : Nat} {q : Port} {alive : Byte}

/-! ### Ports -/

theorem portAt_updPort {f : Port → Port} (hp : p < s.mortar.ports.length) :
    portAt (updPort s p f) p = f (portAt s p) := getD_modAt_self hp

theorem returnCredits_same (l : Link) : (returnCredits l).st = l.st := by
  rw [sendsUnkept_returnCredits]

theorem length_ports_aliveTaken : (aliveTaken s p alive).mortar.ports.length = s.mortar.ports.length :=
  length_modAt _ _ _

theorem farEnd_aliveTaken : farEnd (aliveTaken s p alive) = farEnd s := rfl

/-- A message whose alive counter follows is taken. -/
theorem checkAlive_follows {act : State → State}
    (h : (portAt s p).aliveIn = none ∨ (portAt s p).aliveIn = some ((alive.toNat + 255) % 256)) :
    checkAlive s p alive act = act (aliveTaken s p alive) := by
  unfold checkAlive
  exact if_pos (by simpa using h)

theorem controlIn_arrives {port : BitVec 3} {act : State → State} (h : ControlArrives s port.toNat alive) :
    controlIn s port alive act = act (aliveTaken s port.toNat alive) := by
  obtain ⟨hserv, henc, halive⟩ := h
  unfold controlIn
  dsimp only
  rw [hserv, henc]
  exact checkAlive_follows halive

/-! ### HELLO (R446, R447) -/

theorem grantPort_hello : (grantPort q).hello = q.hello := by
  unfold grantPort
  split <;> rfl

theorem takeHello_hello (b : List Byte) (hp : p < s.mortar.ports.length) :
    (portAt (takeHello s p b) p).hello = ((helloResult s p b).1 == 1 || (helloResult s p b).1 == 3) := by
  unfold takeHello
  dsimp only
  rw [portAt_updPort hp, grantPort_hello]
  rfl

/-- A HELLO that names the module at the other end, and a version that both have. -/
theorem helloResult_training {b : List Byte} (hst : (portAt s p).link.st = 1)
    (hfar : farEnd s (fabNum s) p = some (getLE b 4 2 % 8192))
    (hver : max (getLE b 6 2) (mortarOffer s).1 ≤ min (getLE b 8 2) (mortarOffer s).2)
    (henc : encryptBit s p = false) :
    helloResult s p b = (1, min (getLE b 8 2) (mortarOffer s).2) := by
  have hfar' : (farEnd s (fabNum s) p != some (getLE b 4 2 % 8192)) = false := by rw [hfar]; simp
  unfold helloResult
  dsimp only
  rw [hfar', henc, hst, if_neg Bool.false_ne_true, if_neg (Nat.not_lt.2 hver)]
  rfl

theorem length_helloBlock : (helloBlock s).length = 32 := by
  simp only [helloBlock, header, bondBytes, List.length_append, leBytes_length, zeros, List.length_replicate,
    List.length_cons, List.length_nil]

theorem helloBlock_number : getLE (helloBlock s) 4 2 = fabNum s := by
  have h := getLE_field (pre := header 32) (leBytes 2 (mortarOffer s).1 ++ (leBytes 2 (mortarOffer s).2 ++
    (bondBytes s 14 4 ++ (zeros 2 ++ (leBytes 8 (exportBytes s) ++ zeros 8))))) (off := 4) 2 (fabNum s) rfl
  have hlt : fabNum s < 256 ^ 2 := (Nat.mod_lt _ (by decide)).trans (by decide : 2 ^ 13 < 256 ^ 2)
  rw [Nat.mod_eq_of_lt hlt] at h
  simp only [helloBlock, List.append_assoc] at h ⊢
  exact h

/-- What a port has after a HELLO of version `hi` that is taken in its training. -/
def helloTaken (s : State) (b : List Byte) (p hi : Nat) (q : Port) : Port :=
  grantPort (sendHello s { q with
    peer := BitVec.ofNat 13 (getLE b 4 2)
    peerExport := getLE b 16 8
    peerCommands := [byteAt b 10, byteAt b 11, byteAt b 12, byteAt b 13]
    version := hi / 256 * 16 + hi % 256
    hello := true
    encrypted := false
    link := { q.link with
      reversed := Config.portReversed p, polarity := Config.portPolarity p, st := 1, step := 6 } })

theorem takeHello_eq {b : List Byte} {hi : Nat} (hres : helloResult s p b = (1, hi))
    (henc : encryptBit s p = false) : takeHello s p b = updPort s p (helloTaken s b p hi) := by
  unfold takeHello
  rw [hres, henc]
  rfl

theorem exec_hello {port : BitVec 3} {b : List Byte} (hp : port.toNat < s.mortar.ports.length)
    (hst : (portAt s port.toNat).link.st = 1) (hok : versionOk b 32 = true)
    (halive : (portAt s port.toNat).aliveIn = none ∨
      (portAt s port.toNat).aliveIn = some ((alive.toNat + 255) % 256))
    (hfar : farEnd s (fabNum s) port.toNat = some (getLE b 4 2 % 8192))
    (hver : max (getLE b 6 2) (mortarOffer s).1 ≤ min (getLE b 8 2) (mortarOffer s).2)
    (henc : encryptBit s port.toNat = false) :
    exec (.hello port alive b) s = .next (updPort (aliveTaken s port.toNat alive) port.toNat
      (helloTaken (aliveTaken s port.toNat alive) b port.toNat
        (min (getLE b 8 2) (mortarOffer s).2))) := by
  have h : exec (.hello port alive b) s = execHello port alive b s := rfl
  have hst' : (portAt (aliveTaken s port.toNat alive) port.toNat).link.st = 1 := by
    rw [aliveTaken, portAt_updPort hp]
    exact hst
  have hres := helloResult_training hst' hfar hver henc
  have hhello : (portAt (takeHello (aliveTaken s port.toNat alive) port.toNat b) port.toNat).hello = true := by
    rw [takeHello_hello b (length_ports_aliveTaken.symm ▸ hp), hres]
    rfl
  rw [h, execHello]
  dsimp only
  rw [if_pos (by simp [hst, hok]), checkAlive_follows halive, if_pos hhello, takeHello_eq hres henc]
  rfl

/-! ### LINK_STATE and TIME_SYNC (R448, R464) -/

theorem exec_linkState {port : BitVec 3} (n : BitVec 13) (l : BitVec 3) (up : Bool)
    (h : ControlArrives s port.toNat alive) :
    exec (.linkState port alive n l up) s = .next
      (if s.mortar.links.contains (n.toNat, l.toNat) == !up then aliveTaken s port.toNat alive
        else linksChanged (aliveTaken s port.toNat alive)
          (flood (setLink (aliveTaken s port.toNat alive) n.toNat l.toNat up) port.toNat n.toNat l.toNat up)) := by
  have h' : exec (.linkState port alive n l up) s = execLinkState port alive n l up s := rfl
  rw [h', execLinkState, controlIn_arrives h]
  rfl

theorem exec_timeSync {port : BitVec 3} (t0 t1 t2 t3 : BitVec 64) (h : ControlArrives s port.toNat alive)
    (hvalid : s.time.valid = true) :
    exec (.timeSync port alive t0 t1 t2 t3) s = .next
      (if !s.mortar.isRoot && port.toNat == s.mortar.parentPort then
        takeSync (aliveTaken s port.toNat alive) t0.toNat t1.toNat t2.toNat t3.toNat
      else controlSend (aliveTaken s port.toNat alive) port.toNat 0x21
        (syncBytes t0.toNat s.time.ns.toNat s.time.ns.toNat 0)) := by
  have h' : exec (.timeSync port alive t0 t1 t2 t3) s = execTimeSync port alive t0 t1 t2 t3 s := rfl
  have hvalid' : (aliveTaken s port.toNat alive).time.valid = true := hvalid
  rw [h', execTimeSync, controlIn_arrives h, hvalid']
  rfl

/-- Where no port has a key of its own, none is rolled. -/
theorem rollKey_none (h : ∀ x ∈ s.mortar.ports, x.keyOut = none) (p : Nat) : rollKey s p = s := by
  have hkey : (portAt s p).keyOut = none := by
    unfold portAt
    rw [List.getD_eq_getElem?_getD]
    cases hx : s.mortar.ports[p]? with
    | none => rfl
    | some x => exact h x (List.mem_of_getElem? hx)
  unfold rollKey
  rw [hkey]

theorem exec_timeSyncTimer (hvalid : s.time.valid = true) (hroot : s.mortar.isRoot = false)
    (hserv : portInService s s.mortar.parentPort = true) (hkeys : ∀ x ∈ s.mortar.ports, x.keyOut = none) :
    exec .timeSyncTimer s = .next (controlSend s s.mortar.parentPort 0x21 (syncBytes s.time.ns.toNat 0 0 0)) := by
  have h : exec .timeSyncTimer s = execTimeSyncTimer s := rfl
  have hroll : (List.range 8).foldl rollKey s = s := List.foldl_fixed' (rollKey_none hkeys) _
  rw [h, execTimeSyncTimer, hroll, hvalid, hroot, hserv]
  rfl

/-! ### KEY_ROLL and messages in transit (R450, R526, R527) -/

theorem exec_keyRoll {port : BitVec 3} (k : BitVec 32) (salt : List Byte)
    (hp : port.toNat < s.mortar.ports.length) (hserv : portInService s port.toNat = true)
    (henc : (portAt s port.toNat).encrypted = true)
    (halive : (portAt s port.toNat).aliveIn = none ∨
      (portAt s port.toNat).aliveIn = some ((alive.toNat + 255) % 256))
    (hk : k.toNat = (((portAt s port.toNat).keyIn.map (·.1)).getD 0) + 1) :
    exec (.keyRoll port alive k salt) s =
      .next (updPort (aliveTaken s port.toNat alive) port.toNat fun q => { q with
        keyIn := some (k.toNat, Config.hkdf (q.fabricKey.getD [])
          (keyInfo q.peer.toNat (fabNum s) k.toNat salt))
        rxFlits := 0 }) := by
  have h : exec (.keyRoll port alive k salt) s = execKeyRoll port alive k salt s := rfl
  have hkey : (portAt (aliveTaken s port.toNat alive) port.toNat).keyIn = (portAt s port.toNat).keyIn := by
    rw [aliveTaken, portAt_updPort hp]
  rw [h, execKeyRoll]
  dsimp only
  rw [hserv, henc, checkAlive_follows halive, hkey, hk, bne_self_eq_false]
  rfl

theorem exec_mortarTransitForward {port : BitVec 3} {vc ch : Bool} {m : List Byte} {out : Nat}
    (hserv : portInService s port.toNat = true) (hdest : getLE m 2 2 % 8192 ≠ fabNum s)
    (hop : byteAt m 0 < 0x20) (hway : transitTo s port.toNat vc m = some (out, ch)) :
    exec (.mortarTransitForward port vc m) s = .next (updPort s out fun q => portSend q [msgOf ch m]) := by
  have h : exec (.mortarTransitForward port vc m) s = execMortarTransitForward port vc m s := rfl
  rw [h, execMortarTransitForward, hserv, hway, if_neg (by simp [hdest, hop])]

/-! ### The statement -/

/-- Settles O46: one lemma per message, each over a port whose alive counter follows. -/
theorem mortarControlMessagesAndTransit : Obligations.MortarControlMessagesAndTransit := by
  intro s port alive hports p q a
  have hp : port.toNat < s.mortar.ports.length := by
    rw [hports]
    exact port.isLt
  refine ⟨fun b hst hok halive => ?_, fun harrives => ⟨fun n l up => ⟨fun h => ?_, fun h => ?_⟩,
    fun t0 t1 t2 t3 hvalid => ⟨fun hroot hparent => ?_, fun hroot => ?_⟩⟩,
    fun hvalid hroot hserv hkeys => ?_, fun k salt hserv henc halive hk => ?_,
    fun vc m out ch hserv hdest hop hway => ?_⟩
  · intro lo hi
    exact fun hfar hver henc => ⟨exec_hello hp hst hok halive hfar hver henc, length_helloBlock,
      helloBlock_number⟩
  · rw [exec_linkState n l up harrives, if_pos (by simpa using h)]
  · rw [exec_linkState n l up harrives, if_neg (by rw [h]; cases up <;> decide)]
  · rw [exec_timeSync t0 t1 t2 t3 harrives hvalid, if_pos (by simpa [hroot] using hparent)]
  · rw [exec_timeSync t0 t1 t2 t3 harrives hvalid, if_neg (by simp [hroot])]
    rfl
  · exact exec_timeSyncTimer hvalid hroot hserv hkeys
  · exact exec_keyRoll k salt hp hserv henc halive hk
  · exact exec_mortarTransitForward hserv hdest hop hway

end Sys2Proof.MortarControl
end

section
/-!
PROOF. Requests of other modules, and their answers (R288, R446, R452 to R454, R457, R459, R467).
-/

open Sys2Proof Sys2Proof.Machine Sys2Proof.Steps

namespace Sys2Proof.RemoteRequests

variable {s t w : State} {h : MortarHeader} {i : Instr} {r : MReq} {bs : List Byte}

/-! ### Messages that arrive -/

/-- A link that a message wakes (R431). -/
def portWoken (s : State) (h : MortarHeader) : State :=
  { s with
    mortar := { s.mortar with
      ports := modAt s.mortar.ports h.port.toNat fun q => { q with link := linkWake q.link } } }

theorem mortarIn_arrives {act : State → State} (ha : Arrives s h) :
    mortarIn s h act = act (portWoken s h) := by
  obtain ⟨hserv, hdest, henc, -⟩ := ha
  unfold mortarIn
  dsimp only
  rw [hserv, hdest, henc, bne_self_eq_false]
  rfl

/-- A message of one piece is taken as it is. -/
theorem withPieces_whole {act : State → List Byte → State} (hlast : h.last = true) (hp : s.mortar.pieces = []) :
    withPieces s h bs act = act s bs := by
  have hsame : { s with mortar := { s.mortar with pieces := [] } } = s := by rw [← hp]
  have hnone : piecesOf s h = [] := by rw [piecesOf, hp]; rfl
  unfold withPieces
  dsimp only
  rw [hlast, if_pos rfl, hnone, hp]
  exact congrArg (fun x => act x bs) hsame

/-- The first piece of a message waits for the others. -/
theorem withPieces_first {act : State → List Byte → State} (hlast : h.last = false)
    (hp : s.mortar.pieces = []) :
    withPieces s h bs act = { s with
      mortar := { s.mortar with pieces := [(h.source.toNat, h.tag.toNat, bs)] } } := by
  have hnone : piecesOf s h = [] := by rw [piecesOf, hp]; rfl
  unfold withPieces
  dsimp only
  rw [hlast, if_neg Bool.false_ne_true, hnone, hp]
  rfl

/-! ### Requests in their turn (R452) -/

/-- What a request leaves that is the only one in the store. -/
theorem nextInbound_stored (hhead : requestHead i = some h)
    (hseq : nextSeq w.mortar.inSeq h.source.toNat = h.pairSeq.toNat)
    (hserve : remoteServe (stored w i) i = some t) (hkeep : t.mortar.inbound = [i]) :
    nextInbound (stored w i) = some (executed t h) := by
  have hturn : inTurn (stored w i) i = true := by
    unfold inTurn
    rw [hhead]
    exact beq_iff_eq.2 hseq
  have hin : (stored w i).mortar.inbound = [i] := rfl
  unfold nextInbound
  rw [hin]
  simp only [List.findSome?_cons, hturn, if_true, hserve, Option.map_some, hkeep, hhead,
    List.erase_cons_head]
  rfl

theorem takeRequest_inTurn (hhead : requestHead i = some h) (hin : w.mortar.inbound = [])
    (href : w.mortar.refused = []) (hseq : nextSeq w.mortar.inSeq h.source.toNat = h.pairSeq.toNat)
    (hserve : remoteServe (stored w i) i = some t) (hkeep : t.mortar.inbound = [i]) :
    takeRequest w i h = executed t h := by
  have hstored : { w with mortar := { w.mortar with refused := [], inbound := [i] } } = stored w i := by
    rw [← href]
    rfl
  have hahead : (h.pairSeq.toNat + 2 ^ 32 - h.pairSeq.toNat) % 2 ^ 32 = 0 := by
    rw [Nat.add_sub_cancel_left, Nat.mod_self]
  have hn := nextInbound_stored hhead hseq hserve hkeep
  unfold takeRequest
  dsimp only
  rw [hin, href, hseq, hahead, if_neg (by simp), if_neg (by decide)]
  refine (congrArg serveInbound hstored).trans ?_
  have hone : serveInbound (stored w i) = serveInboundN 1 (stored w i) := rfl
  rw [hone, serveInboundN, hn]
  rfl

/-- What a request does to the store, where its answer leaves the store as it is. -/
theorem exec_inTurn {i : Instr} (ha : ArrivesInTurn s h) (hhead : requestHead i = some h)
    (hserve : remoteServe (stored (portWoken s h) i) i = some t) (hkeep : t.mortar.inbound = [i]) :
    mortarIn s h (fun s => takeRequest s i h) = executed t h := by
  obtain ⟨harrives, hin, href, hseq⟩ := ha
  rw [mortarIn_arrives harrives]
  exact takeRequest_inTurn hhead hin href hseq hserve hkeep

theorem inbound_reply (s : State) (opcode : Nat) (bs : List Byte) :
    (reply s h opcode bs).mortar.inbound = s.mortar.inbound :=
  holds_reply (x := .store s.mortar.inbound) rfl

theorem inbound_deviceWrite (s : State) (o : Option Owner) (a : Nat) :
    (deviceWrite s o a bs).mortar.inbound = s.mortar.inbound :=
  holds_deviceWrite (x := .store s.mortar.inbound) rfl

theorem inbound_serveFan (s : State) : (serveFan s h bs).mortar.inbound = s.mortar.inbound :=
  holds_serveFan (x := .store s.mortar.inbound) rfl

theorem remoteServe_rd {n : BitVec 32} (hreach : remoteReach s h.address.toNat n.toNat false = .ok) :
    remoteServe s (.remoteRd h n) =
      some (reply s h 0x10 (readBytes s.mem (exportBase s + h.address.toNat) n.toNat)) := by
  simp only [remoteServe, hreach]

theorem remoteServe_wr (hreach : remoteReach s h.address.toNat bs.length true = .ok) :
    remoteServe s (.remoteWr h bs) =
      some (reply (deviceWrite s none (exportBase s + h.address.toNat) bs) h 0x11 [0]) := by
  simp only [remoteServe, hreach]

theorem remoteServe_fanout (hserves : notServing s = false) :
    remoteServe s (.fanout h bs) = some (serveFan s h bs) := by
  simp only [remoteServe, hserves, Bool.false_eq_true, if_false]

theorem exportBase_stored (i : Instr) : exportBase (stored (portWoken s h) i) = exportBase s := rfl

theorem mem_stored (i : Instr) : (stored (portWoken s h) i).mem = s.mem := rfl

theorem remoteReach_stored (i : Instr) (a n : Nat) (write : Bool) :
    remoteReach (stored w i) a n write = remoteReach w a n write := by
  have hbase : exportBase (stored w i) = exportBase w := rfl
  have hbytes : exportBytes (stored w i) = exportBytes w := rfl
  have hregion : ∀ u, regionOf (stored w i) u = regionOf w u := CommandInterface.regionOf_congr rfl
  have hhome : ∀ u, homeOf (stored w i) u = homeOf w u :=
    Tiers.homeOf_congr rfl rfl rfl rfl fun _ => rfl
  have hcourse : ∀ u, courseOff (stored w i) u = courseOff w u := fun _ => rfl
  have hpoison : ∀ r, poisonedIn (stored w i) r = poisonedIn w r := fun _ => rfl
  simp only [remoteReach, hbase, hbytes, hregion, hhome, hcourse, hpoison]

/-- REMOTE_RD within the exported bytes answers them. -/
theorem exec_remoteRd {n : BitVec 32} (ha : ArrivesInTurn s h)
    (hreach : remoteReach (portWoken s h) h.address.toNat n.toNat false = .ok) :
    exec (.remoteRd h n) s = .next (executed (reply (stored (portWoken s h) (.remoteRd h n)) h 0x10
      (readBytes s.mem (exportBase s + h.address.toNat) n.toNat)) h) := by
  have hx : exec (.remoteRd h n) s = .next (mortarIn s h fun s => takeRequest s (.remoteRd h n) h) := rfl
  have hserve := remoteServe_rd ((remoteReach_stored (.remoteRd h n) _ _ _).trans hreach)
  rw [exportBase_stored, mem_stored] at hserve
  exact hx.trans (congrArg Host.Outcome.next (exec_inTurn ha rfl hserve (inbound_reply _ _ _)))

/-- REMOTE_WR within the exported bytes stores them. -/
theorem exec_remoteWr (ha : ArrivesInTurn s h)
    (hreach : remoteReach (portWoken s h) h.address.toNat bs.length true = .ok) :
    exec (.remoteWr h bs) s = .next (executed (reply (deviceWrite (stored (portWoken s h) (.remoteWr h bs)) none
      (exportBase s + h.address.toNat) bs) h 0x11 [0]) h) :=
  have hx : exec (.remoteWr h bs) s = .next (mortarIn s h fun s => takeRequest s (.remoteWr h bs) h) := rfl
  have hserve := remoteServe_wr ((remoteReach_stored (.remoteWr h bs) _ _ _).trans hreach)
  hx.trans (congrArg Host.Outcome.next (exec_inTurn ha rfl hserve
    ((inbound_reply _ _ _).trans (inbound_deviceWrite _ _ _))))

/-- FANOUT starts the member's part where the module serves. -/
theorem exec_fanout (ha : ArrivesInTurn s h) (hlast : h.last = true) (hp : s.mortar.pieces = [])
    (hserves : notServing s = false) :
    exec (.fanout h bs) s =
      .next (executed (serveFan (stored (portWoken s h) (.fanout h bs)) h bs) h) := by
  have haway : awayFromServing s = false := by
    unfold notServing at hserves
    exact (Bool.or_eq_false_iff.1 hserves).1
  have hwake : { portWoken s h with
      power := { (portWoken s h).power with
        wake := (portWoken s h).power.wake || awayFromServing (portWoken s h) } } =
        portWoken s h := by
    have haway' : awayFromServing (portWoken s h) = false := haway
    rw [haway', Bool.or_false]
  have hserve : remoteServe (stored (portWoken s h) (.fanout h bs)) (.fanout h bs) =
      some (serveFan (stored (portWoken s h) (.fanout h bs)) h bs) := remoteServe_fanout hserves
  have hgo := exec_inTurn ha rfl hserve (inbound_serveFan _)
  rw [mortarIn_arrives ha.1] at hgo
  have hx : exec (.fanout h bs) s = .next (mortarIn s h fun s => withPieces s h bs fun s all =>
      takeRequest { s with power := { s.power with wake := s.power.wake || awayFromServing s } }
        (.fanout h all) h) := rfl
  rw [hx, mortarIn_arrives ha.1, withPieces_whole hlast (by exact hp)]
  exact congrArg Host.Outcome.next ((congrArg (fun x => takeRequest x (.fanout h bs) h) hwake).trans hgo)

/-! ### Answers (R452, R454, R459) -/

section Answers

variable (ha : Arrives s h) (hreq : reqOf s h = some r)
include ha hreq

omit ha hreq in
/-- What an answer does to the request that it answers. -/
def answered (s : State) (h : MortarHeader) (act : State → MReq → State) : State :=
  match reqOf s h with
  | none => s
  | some r => act s r

theorem mortarIn_answered (act : State → MReq → State) :
    mortarIn s h (fun s => answered s h act) = act (portWoken s h) r := by
  have hreq' : reqOf (portWoken s h) h = some r := hreq
  rw [mortarIn_arrives ha, answered, hreq']

theorem exec_remoteData : exec (.remoteData h bs) s =
    .next (serveHeld (withPieces (portWoken s h) h bs fun s all => takeRemote s r all)) := by
  have hx : exec (.remoteData h bs) s = .next (serveHeld (mortarIn s h fun s => answered s h fun s r =>
    withPieces s h bs fun s all => takeRemote s r all)) := rfl
  rw [hx, mortarIn_answered ha hreq]

theorem exec_remoteCmp (st : Byte) :
    exec (.remoteCmp h st) s = .next (serveHeld (takeStatus (portWoken s h) r st.toNat)) := by
  have hx : exec (.remoteCmp h st) s = .next (serveHeld (mortarIn s h fun s => answered s h fun s r =>
    takeStatus s r st.toNat)) := rfl
  rw [hx, mortarIn_answered ha hreq]

omit ha hreq in
/-- A request that a neighbour cannot serve holds its pair back, once. -/
def heldBack (s : State) (r : MReq) : State :=
  if s.mortar.backoffs.any (·.1 == r.dest) then s
  else { s with mortar := { s.mortar with backoffs := s.mortar.backoffs ++ [(r.dest, r.pairSeq)] } }

theorem exec_backoff (hnone : s.mortar.backoffs = []) : exec (.backoff h) s = .next { portWoken s h with
    mortar := { (portWoken s h).mortar with backoffs := [(r.dest, r.pairSeq)] } } := by
  have hx : exec (.backoff h) s = .next (mortarIn s h fun s => answered s h heldBack) := rfl
  have hnone' : (portWoken s h).mortar.backoffs = [] := hnone
  rw [hx, mortarIn_answered ha hreq, heldBack, hnone']
  rfl

omit ha hreq in
/-- A list of a member's part. -/
def listTaken (h : MortarHeader) (bs : List Byte) (s : State) (r : MReq) : State :=
  match r.owner with
  | some (.fan f) => withPieces s h bs fun s all => takePartial (forgetReq s r.tag) r f all
  | _ => s

theorem exec_partialList {f : Nat} (ho : r.owner = some (.fan f)) (hlast : h.last = true)
    (hp : s.mortar.pieces = []) : exec (.partialList h bs) s =
      .next (takePartial (forgetReq (portWoken s h) r.tag) r f bs) := by
  have hx : exec (.partialList h bs) s = .next (mortarIn s h fun s => answered s h (listTaken h bs)) := rfl
  rw [hx, mortarIn_answered ha hreq, listTaken, ho]
  exact congrArg Host.Outcome.next (withPieces_whole hlast hp)

end Answers

theorem takeStatus_ok (hheld : r.held = false) (hk : r.kind ≠ 3) : takeStatus s r 0 = wakeReq s r := by
  have hk' : (r.kind == 3) = false := beq_false_of_ne hk
  unfold takeStatus
  rw [hheld, hk']
  rfl

theorem takeStatus_fan (hheld : r.held = false) (hk : r.kind = 3) (st : Nat) :
    takeStatus s r st = endReq (forgetReq s r.tag) r st := by
  unfold takeStatus
  rw [hheld, hk]
  rfl

/-- A request that its module's queue of faults cannot take ends what it served. -/
theorem takeStatus_unbacked {o : Owner} (hheld : r.held = false) (hk : r.kind ≠ 3) (ho : r.owner = some o)
    (hdev : o ≠ .dev) (hoff : s.tiers.enable = false) :
    takeStatus s r 0x10 = endOwner (forgetReq s r.tag) o { status := 0x20, a := r.unit } := by
  have hk' : (r.kind == 3) = false := beq_false_of_ne hk
  have hun : takeStatus s r 0x10 = unbacked s r := by
    unfold takeStatus
    rw [hheld, hk']
    rfl
  rw [hun, unbacked, ho]
  cases o with
  | dev => exact absurd rfl hdev
  | _ => simp only [hoff, Bool.false_eq_true, if_false]

theorem takeRemote_bytes (hheld : r.held = false) (hk : r.kind = 1) : takeRemote s r bs =
    wakeReq { s with mem := writeBytes s.mem (r.unit + r.addr % unitBytes) bs } r := by
  unfold takeRemote
  rw [hheld, hk]
  rfl

/-! ### Backoff and timeouts (R452, R467) -/

theorem exec_backoffResend {d : BitVec 13} {seq : Nat} (hone : s.mortar.backoffs = [(d.toNat, seq)]) :
    exec (.backoffResend d) s = .next (((s.mortar.reqs.filter fun r => r.dest == d.toNat && !r.held).dropWhile
      (·.pairSeq != seq)).foldl resend { s with mortar := { s.mortar with backoffs := [] } }) := by
  have hx : exec (.backoffResend d) s = execBackoffResend d s := rfl
  have hfind : s.mortar.backoffs.find? (·.1 == d.toNat) = some (d.toNat, seq) := by simp [hone]
  have hnone : s.mortar.backoffs.filter (·.1 != d.toNat) = [] := by simp [hone]
  rw [hx, execBackoffResend, hfind]
  dsimp only
  rw [hnone]

theorem exec_mortarRequestTimeout {t : BitVec 32} (hfind : s.mortar.reqs.find? (·.tag == t.toNat) = some r)
    (hheld : r.held = false) (hon : s.mortar.timeout ≠ 0) (hdue : r.sent + s.mortar.timeout * 1000 ≤ now s) :
    exec (.mortarRequestTimeout t) s = .next (peerLost s r.dest) := by
  have hx : exec (.mortarRequestTimeout t) s = execMortarRequestTimeout t s := rfl
  rw [hx, execMortarRequestTimeout, hfind]
  dsimp only
  rw [if_pos (by simp [hon, hheld, hdue])]

/-! ### The statement -/

/-- Settles O47: a request in its turn is alone in the store, which its execution keeps; an answer is taken
by the request that it answers. -/
theorem remoteRequestsAndResponses : Obligations.RemoteRequestsAndResponses := by
  intro s h w
  refine ⟨fun ha => ⟨fun n hreach => exec_remoteRd ha hreach, fun bs hreach => exec_remoteWr ha hreach,
    fun bs hlast hp hserves => exec_fanout ha hlast hp hserves⟩, fun r ha hreq hheld => ?_,
    fun d seq hone => exec_backoffResend hone,
    fun t r hfind hheld hon hdue => exec_mortarRequestTimeout hfind hheld hon hdue⟩
  intro goes
  have hgoes : ∀ x, goes x = serveHeld (wakeReq x r) := fun x => by
    simp only [goes, wakeReq]
    cases r.owner <;> rfl
  refine ⟨fun bs hk hlast hp => ?_, fun bs hlast hp => ?_, fun hk => ?_, fun hk o ho hdev hoff => ?_,
    fun st hk => ?_, fun hnone => exec_backoff ha hreq hnone,
    fun bs f ho hlast hp => exec_partialList ha hreq ho hlast hp⟩
  · rw [exec_remoteData ha hreq, withPieces_whole hlast (by exact hp), takeRemote_bytes hheld hk, hgoes]
    rfl
  · rw [exec_remoteData ha hreq, withPieces_first hlast (by exact hp)]
    rfl
  · rw [exec_remoteCmp ha hreq, hgoes]
    exact congrArg (fun x => Host.Outcome.next (serveHeld x)) (takeStatus_ok hheld hk)
  · rw [exec_remoteCmp ha hreq]
    exact congrArg (fun x => Host.Outcome.next (serveHeld x))
      (takeStatus_unbacked (s := portWoken s h) hheld hk ho hdev hoff)
  · rw [exec_remoteCmp ha hreq, takeStatus_fan hheld hk]
    rfl

end Sys2Proof.RemoteRequests
end

section
/-!
PROOF. Messages over SMBus, and the test access port (R572, R580 to R584).
-/

open Sys2Proof Sys2Proof.Machine

namespace Sys2Proof.SmbusAndTap

variable {s : State}

/-! ### SMBus (R580 to R582) -/

section Mail

variable (h : mailUp s = true)
include h

theorem mctpAnswer_up (bs : List Byte) :
    mctpAnswer s bs = { s with quoin := { s.quoin with mctpReply := bs } } := if_pos h

/-- A response that takes free bytes. -/
theorem mctpAnswer_drawn (bs : List Byte) : mctpAnswer { s with drawn := s.drawn + 1 } bs =
    { s with quoin := { s.quoin with mctpReply := bs }, drawn := s.drawn + 1 } := if_pos h

theorem exec_telemetryRequest : exec .telemetryRequest s = .next { s with
    quoin := { s.quoin with telemetry := vendorMessage 2 (telemetryBody s) } } :=
  congrArg Host.Outcome.next (if_pos h)

theorem exec_setEndpointId {e : Byte} (h0 : e ≠ 0) (hff : e ≠ 0xFF) : exec (.setEndpointId e) s = .next { s with
    quoin := { s.quoin with endpointId := e, mctpReply := [0, 0, e, 0] } } := by
  have hx : exec (.setEndpointId e) s = execSetEndpointId e s := rfl
  have hup : mailUp { s with quoin := { s.quoin with endpointId := e } } = true := h
  have hfree : ¬ (e == 0 || e == 0xFF) = true := by
    simpa only [Bool.or_eq_true, beq_iff_eq] using not_or.2 ⟨h0, hff⟩
  rw [hx, execSetEndpointId, if_neg hfree, if_pos h, mctpAnswer_up hup]

theorem exec_getEndpointId : exec .getEndpointId s = .next { s with
    quoin := { s.quoin with mctpReply := [0, s.quoin.endpointId, 0, 0] } } :=
  congrArg Host.Outcome.next (mctpAnswer_up h _)

theorem exec_getMctpVersionSupport : exec .getMctpVersionSupport s = .next { s with
    quoin := { s.quoin with mctpReply := [0, 1] ++ freeBytes s 4 }, drawn := s.drawn + 1 } :=
  congrArg Host.Outcome.next (mctpAnswer_drawn h _)

theorem exec_getMessageTypeSupport : exec .getMessageTypeSupport s = .next { s with
    quoin := { s.quoin with mctpReply := [0, 1, 0x7F] } } :=
  congrArg Host.Outcome.next (mctpAnswer_up h _)

theorem exec_getVendorDefinedMessageSupport : exec .getVendorDefinedMessageSupport s = .next { s with
    quoin := { s.quoin with mctpReply := [0, 0xFF, 1, 0, 0, 0xEC, 0x01] ++ freeBytes s 2 }
    drawn := s.drawn + 1 } :=
  congrArg Host.Outcome.next (mctpAnswer_drawn h _)

end Mail

/-! ### The test access port (R583, R584) -/

section Tap

variable (hon : s.power.aonOn = true)
include hon

theorem tapSet_on (ir : Nat) (tdr : BitVec 32) :
    tapSet s ir tdr = { s with pins := { s.pins with ir := ir, tdr := tdr, highz := false } } := if_pos hon

theorem scanIns_on (ir : Nat) : scanIns s ir = if scanAllowed s then
    { s with pins := { s.pins with ir := ir, tdr := 0, highz := ir == 5, scanned := true } }
    else { s with pins := { s.pins with ir := 0, tdr := 0, highz := false } } := by
  unfold scanIns tapOn
  rw [hon]
  rfl

/-- EXTEST, CLAMP or HIGHZ where they are executed. -/
theorem scanIns_allowed (hscan : scanAllowed s = true) (ir : Nat) : scanIns s ir =
    { s with pins := { s.pins with ir := ir, tdr := 0, highz := ir == 5, scanned := true } } :=
  (scanIns_on hon ir).trans (if_pos hscan)

/-- Elsewhere they are BYPASS. -/
theorem scanIns_bypass (hscan : scanAllowed s = false) (ir : Nat) : scanIns s ir =
    { s with pins := { s.pins with ir := 0, tdr := 0, highz := false } } :=
  (scanIns_on hon ir).trans (if_neg (by rw [hscan]; exact Bool.false_ne_true))

end Tap

/-- Settles O51: each message and each instruction by its own lemma. -/
theorem smbusAndTestAccessPort : Obligations.SmbusAndTestAccessPort := by
  refine fun s => ⟨fun h => ⟨exec_telemetryRequest h, fun e h0 hff => exec_setEndpointId h h0 hff,
    exec_getEndpointId h, exec_getMctpVersionSupport h, exec_getMessageTypeSupport h,
    exec_getVendorDefinedMessageSupport h⟩, rfl, fun hon => ⟨fun hscan => ⟨?_, ?_, ?_⟩, fun hscan => ?_,
    fun l => ?_, ?_, ?_, ?_⟩⟩
  · exact congrArg Host.Outcome.next (scanIns_allowed hon hscan 3)
  · exact congrArg Host.Outcome.next (scanIns_allowed hon hscan 4)
  · exact congrArg Host.Outcome.next (scanIns_allowed hon hscan 5)
  · exact ⟨congrArg Host.Outcome.next (scanIns_bypass hon hscan 3),
      congrArg Host.Outcome.next (scanIns_bypass hon hscan 4),
      congrArg Host.Outcome.next (scanIns_bypass hon hscan 5)⟩
  · exact congrArg Host.Outcome.next (if_pos hon)
  · exact congrArg Host.Outcome.next (tapSet_on hon 1 idcodeValue)
  · exact congrArg Host.Outcome.next (tapSet_on hon 0 0)
  · exact congrArg Host.Outcome.next (tapSet_on hon 1 idcodeValue)

end Sys2Proof.SmbusAndTap
end

section
/-!
PROOF. Lintel's mailbox requests (R508 to R523, R529).
-/

open Sys2Proof Sys2Proof.Machine

namespace Sys2Proof.LintelRequests

variable {s : State} {r : MailReq} {req : List Byte} {b : Bool}

/-! ### What requests share (R484, R532) -/

/-- An audited act is done where the audit stream stands. -/
theorem mailAudited_ok {event : Nat} {detail : List Nat} {obj : List Byte} {act : State → State}
    (h : auditOk s = true) : mailAudited s event detail obj act = act (mailAudit s event detail obj) := if_pos h

theorem withEntropy_ok {act : State → State} (h : s.lintel.entropyFault = false) : withEntropy s act = act s :=
  if_neg (by rw [h]; exact Bool.false_ne_true)

/-- Staged bytes that can be read are put into their buffer. -/
theorem stageRequest_ok {size : Nat} {old : List Host.Cell} {put : State → List Host.Cell → State}
    (hok : stageErr req size = none) (hreach : reachRanges s s.quoin.mbGot (stageRanges req) = none) :
    stageRequest s req size old put = mailEnd (put s (putBuffer old (rArg req 0) (stageData s req))) 0 := by
  unfold stageRequest
  rw [hok]
  dsimp only
  rw [hreach]

theorem length_getBuffer (cells : List Host.Cell) (a n : Nat) : (getBuffer cells a n).length = n := by
  rw [getBuffer, List.length_map, List.length_range]

/-! ### LINTEL_STAGE, LINTEL_READ, ATTEST and DEBUG_CHALLENGE (R508, R510, R517) -/

theorem exec_lintelStage (hr : Requested s r 0x40 req b) (hok : stageErr req 32768 = none)
    (hreach : reachRanges (mailStart s b req) (mailStart s b req).quoin.mbGot (stageRanges req) = none) :
    exec (.lintelStage r) s = .next (mailEnd { mailStart s b req with
      lintel := { (mailStart s b req).lintel with
        inBuf := putBuffer (mailStart s b req).lintel.inBuf (rArg req 0)
          (stageData (mailStart s b req) req) } } 0) := by
  have h : exec (.lintelStage r) s = execLintelStage r s := rfl
  rw [h, execLintelStage, mailRun_requested hr, stageRequest_ok hok hreach]

/-- A LINTEL_READ within the limits of its request. -/
theorem exec_lintelRead (hr : Requested s r 0x41 req b) (hsel : rArg req 0 ≤ 1) (hlow : 1 ≤ rArg req 2)
    (hhigh : rArg req 2 ≤ 4064) : exec (.lintelRead r) s = .next
      (if (lintelSource (mailStart s b req) (rArg req 0)).length < rArg req 1 + rArg req 2 then
        mailEnd (mailStart s b req) 0x10
      else mailDone (mailStart s b req) 0 (rArg req 0) (rArg req 1) (rArg req 2)
        (((lintelSource (mailStart s b req) (rArg req 0)).drop (rArg req 1)).take (rArg req 2))) := by
  have h : exec (.lintelRead r) s = execLintelRead r s := rfl
  have h0 : (rArg req 2 == 0) = false := beq_false_of_ne (by omega)
  rw [h, execLintelRead, mailRun_requested hr]
  simp only [Nat.not_lt.2 hsel, Nat.not_lt.2 hhigh, h0, decide_false, Bool.false_or, decide_eq_true_eq]

theorem exec_attest (hr : Requested s r 0x42 req b) (hlen : (rPayload req).length = 32) :
    exec (.attest r) s = .next (mailEnd (signOut (mailStart s b req) 4
      (attestBytes (mailStart s b req) (rPayload req))) 0) := by
  have h : exec (.attest r) s = execAttest r s := rfl
  rw [h, execAttest, mailRun_requested hr, if_neg (by simp [hlen])]

/-- The nonce of a challenge (R517). -/
def nonceOf (s : State) : List Byte := fit 48 (Config.entropy s.lintel.draws 48)

/-- A challenge made and signed. -/
def challenged (s : State) : State :=
  let x := signOut s 6 (challengeBytes s (nonceOf s))
  { x with lintel := { x.lintel with challenge := some (nonceOf s, now s), draws := x.lintel.draws + 1 } }

theorem exec_debugChallenge (hr : Requested s r 0x44 req b)
    (hent : (mailStart s b req).lintel.entropyFault = false) :
    exec (.debugChallenge r) s = .next (mailEnd (challenged (mailStart s b req)) 0) := by
  have h : exec (.debugChallenge r) s = execDebugChallenge r s := rfl
  rw [h, execDebugChallenge, mailRun_requested hr, withEntropy_ok hent]
  rfl

/-! ### ROLLBACK_COMMIT (R512) -/

section Rollback

variable (hr : Requested s r 0x43 req b)
include hr

/-- A counter that stands at its value or above. -/
theorem exec_rollbackCommit_kept (hwhich : rArg req 0 = 1) (hle : (mailStart s b req).lintel.fwRollback ≤ 128)
    (hold : (mailStart s b req).lintel.fwRollback ≤ (mailStart s b req).lintel.fwCounter) :
    exec (.rollbackCommit r) s = .next (mailEnd (mailStart s b req) 0) := by
  have h : exec (.rollbackCommit r) s = execRollbackCommit r s := rfl
  rw [h, execRollbackCommit, mailRun_requested hr]
  simp [hwhich, Nat.not_lt.2 hle, hold]

theorem exec_rollbackCommit_firmware (hwhich : rArg req 0 = 1)
    (hle : (mailStart s b req).lintel.fwRollback ≤ 128)
    (hold : (mailStart s b req).lintel.fwCounter < (mailStart s b req).lintel.fwRollback)
    (haudit : auditOk (mailStart s b req) = true) :
    let m := mailStart s b req
    let a := mailAudit m 0x12 [1, m.lintel.fwCounter, m.lintel.fwRollback] []
    exec (.rollbackCommit r) s = .next (mailEnd { a with
      lintel := { a.lintel with fwCounter := m.lintel.fwRollback } } 0) := by
  intro m a
  have h : exec (.rollbackCommit r) s = execRollbackCommit r s := rfl
  have h2 : ((1 : Nat) == 2) = false := rfl
  rw [h, execRollbackCommit, mailRun_requested hr]
  simp only [hwhich, h2, beq_self_eq_true, Bool.false_eq_true, if_true, if_false]
  rw [if_neg (by simp [Nat.not_lt.2 hle]), if_neg (Nat.not_le.2 hold), mailAudited_ok haudit]

theorem exec_rollbackCommit_image (hwhich : rArg req 0 = 2) {i : List Byte}
    (hactive : (mailStart s b req).quoin.active = some i) (hle : getLE i 12 4 ≤ 128)
    (hold : (mailStart s b req).lintel.bondCounter < getLE i 12 4)
    (haudit : auditOk (mailStart s b req) = true) :
    let m := mailStart s b req
    let a := mailAudit m 0x12 [2, m.lintel.bondCounter, getLE i 12 4] []
    exec (.rollbackCommit r) s = .next (mailEnd { a with
      lintel := { a.lintel with bondCounter := getLE i 12 4 } } 0) := by
  intro m a
  have h : exec (.rollbackCommit r) s = execRollbackCommit r s := rfl
  have hfield : imageField (mailStart s b req) 12 4 = getLE i 12 4 := by rw [imageField, hactive]; rfl
  have h1 : ((2 : Nat) == 1) = false := rfl
  rw [h, execRollbackCommit, mailRun_requested hr]
  simp only [hwhich, h1, hfield, Bool.false_eq_true, if_false]
  rw [if_neg (by simp [hactive, Nat.not_lt.2 hle]), if_neg (Nat.not_le.2 hold), mailAudited_ok haudit]
  rfl

end Rollback

/-! ### Debug (R518 to R520) -/

theorem exec_debugUnlock (hr : Requested s r 0x45 req b) :
    let m := mailStart s b req
    let t := inObjectBytes m 128
    m.time.valid = true → auditOk m = true → versionOk t 128 = true → byteAt t 4 = 1 ∨ byteAt t 4 = 2 →
    1 ≤ getLE t 8 4 → getLE t 8 4 ≤ 86400 →
    exec (.debugUnlock r) s = .next (if tokenGood m t then
        mailEnd (openDebug (mailAudit m 0x20 [byteAt t 4, now m + getLE t 8 4 * 1000000000] t) (byteAt t 4)
          (getLE t 8 4)) 0
      else mailFail { m with lintel := { m.lintel with challenge := none } } 0x50) := by
  intro m t hvalid haudit hver hscope hlow hhigh
  have h : exec (.debugUnlock r) s = execDebugUnlock r s := rfl
  have h0 : (getLE t 8 4 == 0) = false := beq_false_of_ne (by omega)
  have hsc : (byteAt t 4 != 1 && byteAt t 4 != 2) = false := by
    rcases hscope with hs | hs <;> rw [hs] <;> rfl
  rw [h, execDebugUnlock, mailRun_requested hr]
  dsimp only
  rw [if_neg (by rw [hvalid]; decide), if_neg (by rw [hver]; decide),
    if_neg (by rw [hsc, h0]; simpa using hhigh), mailAudited_ok haudit]

theorem exec_debugClose_closed (hr : Requested s r 0x46 req b) (hshut : (mailStart s b req).lintel.debug = 0) :
    exec (.debugClose r) s = .next (mailEnd (mailStart s b req) 0) := by
  have h : exec (.debugClose r) s = execDebugClose r s := rfl
  rw [h, execDebugClose, mailRun_requested hr, if_pos (by simpa using hshut)]

theorem exec_debugClose_open (hr : Requested s r 0x46 req b) (hopen : (mailStart s b req).lintel.debug ≠ 0)
    (haudit : auditOk (mailStart s b req) = true) : exec (.debugClose r) s =
      .next (mailEnd (shutDebug (mailAudit (mailStart s b req) 0x21 [2] [])) 0) := by
  have h : exec (.debugClose r) s = execDebugClose r s := rfl
  rw [h, execDebugClose, mailRun_requested hr, if_neg (by simpa using hopen), mailAudited_ok haudit]

theorem exec_debugExpiry (hopen : s.lintel.debug ≠ 0) (hdue : s.lintel.debugExpiry ≤ now s)
    (haudit : auditOk s = true) :
    exec .debugExpiry s = .next (shutDebug (audit s 5 0x21 [1] 0 [])) := by
  have h : exec .debugExpiry s = execDebugExpiry s := rfl
  rw [h, execDebugExpiry, if_pos (by simp [hopen, hdue]), if_pos haudit]

theorem exec_challengeExpiry {n : List Byte} {t : Nat} (hopen : s.lintel.challenge = some (n, t))
    (hdue : t + 600000000000 ≤ now s) :
    exec .challengeExpiry s = .next { s with lintel := { s.lintel with challenge := none } } := by
  have h : exec .challengeExpiry s = execChallengeExpiry s := rfl
  rw [h, execChallengeExpiry, hopen]
  dsimp only
  rw [if_pos hdue]

/-! ### Keys and anchors (R514, R521 to R523) -/

section Keys

variable (hr : Requested s r 0x47 req b)
include hr

theorem exec_keyInstall_refused {st : Nat}
    (hp : keyPackage (mailStart s b req) (inObjectBytes (mailStart s b req) 416) = .error st) :
    exec (.keyInstall r) s = .next (mailFail (mailStart s b req) st) := by
  have h : exec (.keyInstall r) s = execKeyInstall r s := rfl
  rw [h, execKeyInstall, mailRun_requested hr]
  dsimp only
  rw [hp]

theorem exec_keyInstall_taken {k : List Byte}
    (hp : keyPackage (mailStart s b req) (inObjectBytes (mailStart s b req) 416) = .ok k)
    (haudit : auditOk (mailStart s b req) = true) :
    let p := inObjectBytes (mailStart s b req) 416
    let handle := if byteAt p 4 = 1 then getLE p 6 2 else 0
    let a := mailAudit (mailStart s b req) 0x30 [byteAt p 4, handle, getLE p 24 4] p
    exec (.keyInstall r) s = .next (mailEnd { a with
      lintel := { a.lintel with
        keys := if byteAt p 4 = 1 then a.lintel.keys ++ [(handle, k)] else a.lintel.keys
        fabricKey := if byteAt p 4 = 2 then some k else a.lintel.fabricKey
        keySeq := getLE p 24 4 } } 0) := by
  intro p handle a
  have h : exec (.keyInstall r) s = execKeyInstall r s := rfl
  rw [h, execKeyInstall, mailRun_requested hr]
  dsimp only
  rw [hp]
  dsimp only
  rw [mailAudited_ok haudit]
  simp only [beq_iff_eq]
  rfl

end Keys

section KeyDestroy

variable (hr : Requested s r 0x48 req b) (hlow : 1 ≤ rArg req 0) (hhigh : rArg req 0 ≤ 4095)
  (hfree : handleUsed (mailStart s b req) (rArg req 0) = false)
include hr hlow hhigh hfree

/-- A handle that nothing names is destroyed, or is empty as it was. -/
theorem exec_keyDestroy : exec (.keyDestroy r) s = .next
    (if !((mailStart s b req).lintel.keys.any (·.1 == rArg req 0)) then mailEnd (mailStart s b req) 0
      else mailAudited (mailStart s b req) 0x31 [rArg req 0] [] fun s => mailEnd { s with
        lintel := { s.lintel with keys := s.lintel.keys.filter (·.1 != rArg req 0) } } 0) := by
  have h : exec (.keyDestroy r) s = execKeyDestroy r s := rfl
  have h0 : (rArg req 0 == 0) = false := beq_false_of_ne (by omega)
  rw [h, execKeyDestroy, mailRun_requested hr]
  dsimp only
  rw [if_neg (by simp [h0, hfree, hhigh])]

end KeyDestroy

section Anchors

variable (hr : Requested s r 0x49 req b)
include hr

theorem exec_anchorUpdate_refused {st : Nat}
    (hu : anchorErr (mailStart s b req) (inObjectBytes (mailStart s b req) 96) = some st) :
    exec (.anchorUpdate r) s = .next (mailFail (mailStart s b req) st) := by
  have h : exec (.anchorUpdate r) s = execAnchorUpdate r s := rfl
  rw [h, execAnchorUpdate, mailRun_requested hr]
  dsimp only
  rw [hu]

theorem exec_anchorUpdate_taken
    (hu : anchorErr (mailStart s b req) (inObjectBytes (mailStart s b req) 96) = none)
    (haudit : auditOk (mailStart s b req) = true) :
    let u := inObjectBytes (mailStart s b req) 96
    let a := mailAudit (mailStart s b req) 0x32 [byteAt u 4, byteAt u 5] u
    exec (.anchorUpdate r) s = .next (mailEnd { a with
      lintel := { a.lintel with
        ownerAnchors := if byteAt u 4 = 1 then
            modAt a.lintel.ownerAnchors (byteAt u 5) fun _ => some ((u.drop 24).take 48)
          else a.lintel.ownerAnchors
        ownerRevoked := if byteAt u 4 = 2 then
            a.lintel.ownerRevoked ||| BitVec.ofNat 4 (2 ^ byteAt u 5)
          else a.lintel.ownerRevoked
        vendorRevoked := if byteAt u 4 = 3 then
            a.lintel.vendorRevoked ||| BitVec.ofNat 4 (2 ^ byteAt u 5)
          else a.lintel.vendorRevoked } } 0) := by
  intro u a
  have h : exec (.anchorUpdate r) s = execAnchorUpdate r s := rfl
  rw [h, execAnchorUpdate, mailRun_requested hr]
  dsimp only
  rw [hu]
  dsimp only
  rw [mailAudited_ok haudit]
  simp only [beq_iff_eq]
  rfl

end Anchors

/-! ### The statement -/

/-- Settles O50: one lemma per request and outcome. -/
theorem lintelMailboxRequests : Obligations.LintelMailboxRequests := by
  intro s r req b m recorded
  refine ⟨exec_lintelStage, fun hr hsel hlow hhigh hroom => ?_, fun hr hsel hlow hhigh => ?_,
    exec_attest, fun hr hwhich hle => ⟨exec_rollbackCommit_kept hr hwhich hle,
      exec_rollbackCommit_firmware hr hwhich hle⟩, fun hr hwhich i hi hold hle haudit => ?_, exec_debugChallenge,
    fun hr hvalid haudit => ?_, fun hr => ⟨exec_debugClose_closed hr, exec_debugClose_open hr⟩,
    exec_debugExpiry, fun n t => exec_challengeExpiry, fun hr haudit => ?_,
    fun hr hlow hhigh hfree => ⟨fun hany haudit => ?_, fun hnone => ?_⟩, fun hr haudit => ?_⟩
  · rw [exec_lintelRead hr (by omega) hlow hhigh, hsel]
    have hsource : lintelSource m 1 = getBuffer m.lintel.outBuf 0 32768 := rfl
    rw [hsource, length_getBuffer, if_neg (Nat.not_lt.2 hroom)]
  · rw [exec_lintelRead hr (by omega) hlow hhigh, hsel]
    rfl
  · exact exec_rollbackCommit_image hr hwhich hi hle hold haudit
  · exact exec_debugUnlock hr hvalid haudit
  · intro p kind handle a
    cases hp : keyPackage m p with
    | error st => exact exec_keyInstall_refused hr hp
    | ok k => exact exec_keyInstall_taken hr hp haudit
  · rw [exec_keyDestroy hr hlow hhigh hfree, if_neg (by simpa using hany), mailAudited_ok haudit]
  · rw [exec_keyDestroy hr hlow hhigh hfree, hnone]
    rfl
  · intro u action slot a
    cases hu : anchorErr m u with
    | some st => exact exec_anchorUpdate_refused hr hu
    | none => exact exec_anchorUpdate_taken hr hu haudit

end Sys2Proof.LintelRequests
end

section
/-!
PROOF. What is measured, and the hardware's events (R504, R543, R547 to R549, R553, R559, R563, R577, R586 to
R590).
-/

open Sys2Proof Sys2Proof.Machine Sys2Proof.Nand

namespace Sys2Proof.Measurements

variable {s : State}

/-! ### Figures of the power input and the clock (R543, R563, R577) -/

theorem exec_powerCapThrottle (w m a n : Nat) (o : Bool) : exec (.powerCapThrottle w m a o n) s = .next { s with
    power := { s.power with
      inputMw := min 0xFFFFF w, mainMv := min 0xFFFF m, auxMv := min 0xFFFF a, mainOver := o
      capDuty := min 12 n, capUnmet := decide (12 < n) } } := by
  have h : exec (.powerCapThrottle w m a o n) s = execPowerCapThrottle w m a o n s := rfl
  rw [h, execPowerCapThrottle, sat, sat, sat]

/-- The loss of the reference is counted once until it is back. -/
theorem exec_refclkLost : exec .refclkLost s = .next { s with
    clock := { s.clock with
      refLost := true, refLostSeen := true
      lossCount := if s.clock.refLost then s.clock.lossCount
        else min 0xFFFF (s.clock.lossCount + 1) } } := by
  have h : exec .refclkLost s = execRefclkLost s := rfl
  rw [h, execRefclkLost, sat]

/-! ### The hold-up bank (R547 to R549, R559) -/

theorem exec_holdupFloorCrossing (n : Nat) : exec (.holdupFloorCrossing n) s = .next { s with
    holdup := { s.holdup with
      stored := min 0xFFFFF n
      below := decide (s.holdup.health < 30000) || decide (n < 15000) } } := by
  have h : exec (.holdupFloorCrossing n) s = execHoldupFloorCrossing n s := rfl
  rw [h, execHoldupFloorCrossing, sat, belowFloor]

theorem testDue_of (hready : s.quoin.stage = 7)
    (hdue : s.holdup.bootTest = true ∨ s.holdup.testTime + 86400000000000 ≤ now s) : testDue s = true := by
  unfold testDue
  rcases hdue with h | h
  · simp [h, hready]
  · simp [h]

theorem exec_holdupTestTimer (hready : s.quoin.stage = 7) (hidle : s.holdup.testing = false)
    (hdue : s.holdup.bootTest = true ∨ s.holdup.testTime + 86400000000000 ≤ now s) :
    exec .holdupTestTimer s = .next { s with holdup := { s.holdup with testing := true, bootTest := false } } := by
  have h : exec .holdupTestTimer s = execHoldupTestTimer s := rfl
  rw [h, execHoldupTestTimer, if_neg (by simp [hready]), hidle, if_neg Bool.false_ne_true,
    if_pos (testDue_of hready hdue)]

/-- A test whose voltage falls writes no record where HEALTH does not cross its floor. -/
theorem bankRecord_none {v1 v2 : Nat} (hfall : v2 < v1)
    (hfloor : 30000 ≤ newHealth s v1 v2 ∨ s.holdup.health < 30000) : bankRecord s v1 v2 = false := by
  unfold bankRecord
  rw [decide_eq_false (Nat.not_le.2 hfall), Bool.false_or, Bool.and_eq_false_iff]
  exact hfloor.symm.imp (fun h => decide_eq_false (Nat.not_le.2 h)) fun h => decide_eq_false (Nat.not_lt.2 h)

theorem exec_holdupTestEnd {v1 v2 : Nat} (n : Nat) (hfall : v2 < v1) (htest : s.holdup.testing = true)
    (hmail : s.holdup.mailTest = false) (hfloor : 30000 ≤ newHealth s v1 v2 ∨ s.holdup.health < 30000) :
    exec (.holdupTestEnd v1 v2 n) s = .next (testEnd s v1 v2 n) := by
  have h : exec (.holdupTestEnd v1 v2 n) s = execHoldupTestEnd v1 v2 n s := rfl
  rw [h, execHoldupTestEnd, if_pos htest]
  dsimp only
  rw [bankRecord_none hfall hfloor, hmail, if_neg Bool.false_ne_true]
  rfl

/-! ### Sensors (R586) -/

/-- THERM_CRIT# from a sensor at its limit on, until all are below theirs. -/
theorem critStep_limits (r : ThermalReading) (c : Bool) :
    (110 ≤ r.kiln ∨ 100 ≤ r.stack ∨ 85 ≤ r.nand ∨ 70 ≤ r.bank → critStep r c = true) ∧
    (r.kiln ≤ 108 → r.stack ≤ 98 → r.nand ≤ 83 → r.bank ≤ 68 → critStep r c = false) := by
  unfold critStep
  refine ⟨fun h => ?_, fun h1 h2 h3 h4 => ?_⟩
  · rcases h with h | h | h | h <;> simp [h]
  · have g1 : ¬ 110 ≤ r.kiln := by omega
    have g2 : ¬ 100 ≤ r.stack := by omega
    have g3 : ¬ 85 ≤ r.nand := by omega
    have g4 : ¬ 70 ≤ r.bank := by omega
    simp [h1, h2, h3, h4, g1, g2, g3, g4]

/-- The bank's charge pauses from 60 degrees on, down to 55. -/
theorem chargePaused_limits (r : ThermalReading) (t : Thermal) :
    (60 ≤ r.bank → (thermalStep r t).chargePaused = true) ∧
    (r.bank ≤ 55 → (thermalStep r t).chargePaused = false) := by
  unfold thermalStep
  refine ⟨fun h => by simp [h], fun h => ?_⟩
  have h1 : ¬ 60 ≤ r.bank := by omega
  have h2 : ¬ 55 < r.bank := by omega
  simp [h1, h2]

/-! ### Scrubs (R553, R559) -/

/-- A corrected error that nothing more is done about is counted alone. -/
theorem hwError_counted (source unit location status : Nat) (hroom : s.hw.deferred ≤ 0xFFFF) :
    hwError s 0 source unit location status 0 = { s with
      hw := { s.hw with
        corrected := sat 0xFFFFFFFF (s.hw.corrected + 1)
        since := s.hw.since.filter (fun x => !(x.1 == source && x.2.1 == unit)) ++
          [(source, unit, sat 0xFFFFFFFF (corrections s source unit + 1))] } } := by
  have hdef : sat 0xFFFF (s.hw.deferred + 0) = s.hw.deferred := min_eq_right hroom
  have h01 : ((0 : Nat) == 1) = false := rfl
  rw [hwError]
  simp only [beq_self_eq_true, Bool.and_self, if_true, h01, Bool.false_eq_true, if_false, hdef, b2n]

/-- A line that a scrub corrects is counted. -/
theorem exec_memoryScrub_corrected (n : BitVec 3) (o : Nat) (hroom : s.hw.deferred ≤ 0xFFFF) :
    exec (.memoryScrub n [{ offset := o, corrected := true }]) s = .next { s with
      hw := { s.hw with
        corrected := min 0xFFFFFFFF (s.hw.corrected + 1)
        since := s.hw.since.filter (fun x => !(x.1 == 1 && x.2.1 == n.toNat)) ++
          [(1, n.toNat, min 0xFFFFFFFF (corrections s 1 n.toNat + 1))] } } := by
  have hx : exec (.memoryScrub n [{ offset := o, corrected := true }]) s =
      .next (hwError s 0 0x01 n.toNat (n.toNat * stackBytes + o / 64 * 64) 0 0) := rfl
  rw [hx, hwError_counted _ _ _ _ hroom, sat, sat]

/-- A line that a scrub cannot correct, of a unit outside protected memory. -/
theorem exec_memoryScrub_poisons {n : BitVec 3} {o u : Nat}
    (hunit : unitAtFrame s (unitOf (n.toNat * stackBytes + o % stackBytes / 64 * 64)) = some u)
    (hpin : pinned s u = false) :
    let name := u + (n.toNat * stackBytes + o % stackBytes / 64 * 64) % unitBytes
    let e := hwError s 1 0x01 n.toNat name 0x32 0
    exec (.memoryScrub n [{ offset := o, corrected := false }]) s = .next { e with
      hw := { e.hw with poisoned := name :: e.hw.poisoned.filter (· != name) } } := by
  intro name e
  have hx : exec (.memoryScrub n [{ offset := o, corrected := false }]) s =
      .next (poisonLine s n.toNat (o % stackBytes)) := rfl
  rw [hx, poisonLine]
  dsimp only
  rw [hunit]
  dsimp only
  rw [hpin, if_neg Bool.false_ne_true]

theorem hwError_poisoned (cls source unit location status action : Nat) :
    (hwError s cls source unit location status action).hw.poisoned = s.hw.poisoned := by
  rw [hwError, apply_ite State.hw, apply_ite HwErr.poisoned]
  exact ite_self _

/-! ### The statement -/

/-- Settles O53: a field that is measured is set, a record is the log's last. -/
theorem measurementsAndHardwareEvents : Obligations.MeasurementsAndHardwareEvents := by
  refine ⟨fun s => ⟨exec_powerCapThrottle, exec_holdupTestTimer, exec_holdupFloorCrossing,
    fun v1 v2 n hfall htest hmail => ?_, fun r => ?_⟩, fun s => ⟨exec_refclkLost, rfl, fun n o u => ?_,
    fun n o => exec_memoryScrub_corrected n o, fun r mv => ?_, rfl, rfl⟩⟩
  · intro h hfloor
    have hh : newHealth s v1 v2 = h := if_pos hfall
    rw [exec_holdupTestEnd n hfall htest hmail (by rw [hh]; exact hfloor), testEnd, hh]
    simp only [sat, belowFloor]
    rfl
  · obtain ⟨hcrit, hclear⟩ := critStep_limits r s.thermal.crit
    obtain ⟨hpause, hcharge⟩ := chargePaused_limits r s.thermal
    exact ⟨_, rfl, rfl, rfl, rfl, rfl, rfl, rfl, hcrit, hclear, hpause, hcharge, rfl, rfl, rfl, rfl, rfl, rfl⟩
  · intro a hunit hpin
    have hsame := hwError_same s 1 0x01 n.toNat (u + a % unitBytes) 0x32 0
    obtain ⟨r, hlast, hcls, hsource, hru, hstatus⟩ :=
      hwError_log s (cls := 1) (action := 0) 0x01 n.toNat (u + a % unitBytes) 0x32 (.inl (by decide))
    have hpoisoned := hwError_poisoned (s := s) 1 0x01 n.toNat (u + a % unitBytes) 0x32 0
    have hx := exec_memoryScrub_poisons hunit hpin
    dsimp only at hx
    generalize hwError s 1 0x01 n.toNat (u + a % unitBytes) 0x32 0 = e at hx hsame hlast hpoisoned
    refine ⟨_, hx, List.mem_cons_self, fun l hl => ?_, ⟨r, hlast, hcls, hsource, hru, hstatus⟩,
      (congrArg State.mem hsame :), (congrArg State.sched hsame :)⟩
    simp only [hpoisoned, List.mem_cons, List.mem_filter, bne_iff_ne]
    exact ⟨fun h => h.elim (fun h => absurd h hl) And.left, fun h => .inr ⟨h, hl⟩⟩
  · have hsame := hwError_same s 1 0x42 r.toNat mv 0 0
    have hx : exec (.railFault r mv) s = execRailFault r mv s := rfl
    rw [execRailFault] at hx
    have hlast := hwError_getLast s (cls := 1) (action := 0) 0x42 r.toNat mv 0 (.inl (by decide))
    exact ⟨hwError s 1 0x42 r.toNat mv 0 0, hwRecord s 1 0x42 r.toNat mv 0 0, hx, hlast, rfl, rfl, rfl, rfl,
      (congrArg State.mem hsame :), (congrArg State.sched hsame :), (congrArg State.power hsame :)⟩

end Sys2Proof.Measurements
end

section
/-!
PROOF. Boot, resets and the loss of power (R494, R495, R550, R551, R564, R574).
-/

open Sys2Proof Sys2Proof.Machine Sys2Proof.Index Sys2Proof.Nand

namespace Sys2Proof.Boots

variable {s t : State} {f : BootFindings}

/-! ### What recovery keeps (R267, R300) -/

theorem changes_deviceWrite (o : Option Owner) (a : Nat) (bs : List Byte) :
    (deviceWrite s o a bs).index.changes = s.index.changes :=
  congrArg (·.index.changes) (written_deviceWrite s o a bs)

theorem changes_putCode (coll slot code : Nat) : (putCode s coll slot code).index.changes = s.index.changes := by
  unfold putCode
  split
  · rfl
  · unfold writeCode
    split
    · rfl
    · exact changes_deviceWrite _ _ _

theorem changes_foldl {α : Type} {g : State → α → State} (h : ∀ s x, (g s x).index.changes = s.index.changes)
    (l : List α) (s : State) : (l.foldl g s).index.changes = s.index.changes := by
  induction l generalizing s with
  | nil => rfl
  | cons x l ih => exact (ih _).trans (h s x)

theorem changes_freeSlot (coll slot : Nat) : (freeSlot s coll slot).index.changes = s.index.changes := by
  unfold freeSlot
  split
  · rfl
  · dsimp only
    rw [changes_putCode]
    split
    · rw [changes_deviceWrite]
      exact changes_foldl (fun _ _ => changes_deviceWrite _ _ _) _ _
    · exact changes_foldl (fun _ _ => changes_deviceWrite _ _ _) _ _

/-- The entries that the release epoch has passed go. -/
theorem changes_retire (s : State) :
    (retire s).index.changes = s.index.changes.filter fun e => !passed (release s) e := by
  unfold retire
  dsimp only
  rw [changes_foldl fun s e => ?_]
  split
  · exact changes_freeSlot _ _
  · exact changes_putCode _ _ _

theorem indexWrites_writeSummary (o : Option Owner) (q : KvSeq) (p : KvPage) :
    IndexWrites s (writeSummary s o q p) := by
  unfold writeSummary
  split
  · exact indexWrites_deviceWrite _ _ _
  · exact .refl s

theorem changes_writeSummary (o : Option Owner) (q : KvSeq) (p : KvPage) :
    (writeSummary s o q p).index.changes = s.index.changes := by
  unfold writeSummary
  split
  · exact changes_deviceWrite _ _ _
  · rfl

theorem indexWrites_restoreTables (s : State) (q : KvSeq) : IndexWrites s (restoreTables s q) := by
  unfold restoreTables
  dsimp only
  refine IndexWrites.trans (t := { s with
    mem := (q.units.flatMap fun u => unitsOf { addr := u.1, len := u.2 }).foldl zeroUnit s.mem })
    ⟨rfl, rfl, rfl, rfl⟩ (.foldl (fun s p => ?_) _ _)
  exact (indexWrites_deviceWrite none _ _).trans (indexWrites_writeSummary none q p)

theorem changes_restoreTables (s : State) (q : KvSeq) :
    (restoreTables s q).index.changes = s.index.changes := by
  unfold restoreTables
  dsimp only
  refine (changes_foldl (fun s p => ?_) _ _).trans rfl
  exact (changes_writeSummary none q p).trans (changes_deviceWrite none _ _)

/-- What a reset makes of the objects in memory, before the tables of its sequences are written again. -/
def recovered (s : State) : State :=
  let s1 := { s with
    kv := { restoreSeqs s.kv with merged := List.replicate 8 0 }
    tiers := { s.tiers with
      entries := recoverEntries { s with kv := restoreSeqs s.kv }
      recovered := true }
    lintel := { s.lintel with
      coKeys := s.lintel.coKeys.filter fun k => !k.1 || ((restoreSeqs s.kv).seqs.map KvSeq.id).contains k.2.1 } }
  { s1 with
    mem := (strayUnits s).zipIdx.foldl (fun m u => freeUnit m u.1 (s.drawn + u.2))
      { cells := s1.mem.cells.filter fun c => hasHome s1 c.1
        fills := s1.mem.fills.filter (fillHome s1) }
    drawn := s.drawn + (strayUnits s).length }

/-- Its tables written again. -/
def restored (s : State) : State := (restoreSeqs s.kv).seqs.foldl restoreTables (recovered s)

theorem recover_eq (s : State) : recover s = retire (restored s) := rfl

theorem indexWrites_restored (s : State) : IndexWrites (recovered s) (restored s) :=
  .foldl indexWrites_restoreTables _ _

theorem recover_writes (s : State) : IndexWrites (recovered s) (recover s) :=
  (indexWrites_restored s).trans (indexWrites_retire _)

/-- With nothing in flight the floor alone holds entries back. -/
theorem release_of_idle (hcmds : s.sched.cmds = []) (hfans : s.mortar.fans = []) :
    release s = s.epochs.floor := by
  rw [release, hcmds, hfans]
  rfl

theorem changes_recover (hcmds : s.sched.cmds = []) (hfans : s.mortar.fans = []) :
    (recover s).index.changes = s.index.changes.filter fun e => !passed s.epochs.floor e := by
  have hw := indexWrites_restored s
  have hrelease : release (restored s) = s.epochs.floor :=
    (release_of_idle ((congrArg Sched.cmds hw.sched).trans hcmds) (hw.fans.trans hfans)).trans
      (congrArg Epochs.floor hw.epochs)
  have hchanges : (restored s).index.changes = s.index.changes := changes_foldl changes_restoreTables _ _
  rw [recover_eq, changes_retire, hrelease, hchanges]

/-- Recovery leaves these parts as they are. -/
theorem recover_power (s : State) : (recover s).power = s.power := (congrArg State.power (recover_writes s).same :)
theorem recover_epochs (s : State) : (recover s).epochs = s.epochs := (recover_writes s).epochs
theorem recover_time (s : State) : (recover s).time = s.time := (congrArg State.time (recover_writes s).same :)
theorem recover_log (s : State) : (recover s).hw.log = s.hw.log := (congrArg HwErr.log (recover_writes s).hw :)

theorem recover_lintel (s : State) :
    (recover s).lintel = { s.lintel with coKeys := (recovered s).lintel.coKeys } :=
  (congrArg State.lintel (recover_writes s).same :)

/-! ### What a reset keeps (R494) -/

section Reset

variable (s : State) (cause : Nat) (goesOn session : Bool)

theorem resetState_power : (resetState s cause goesOn session).power = keptPower s.power :=
  congrArg keptPower (recover_power (dropCommands s))

theorem resetState_epochs : (resetState s cause goesOn session).epochs = keptEpochs s.epochs :=
  congrArg keptEpochs (recover_epochs (dropCommands s))

theorem resetState_time : (resetState s cause goesOn session).time = { s.time with source := false, rate := 0 } :=
  congrArg (fun x : FabricTime => { x with source := false, rate := 0 }) (recover_time (dropCommands s))

theorem resetState_lintel : (resetState s cause goesOn session).lintel =
    keptLintel { s.lintel with coKeys := (recovered (dropCommands s)).lintel.coKeys } :=
  congrArg keptLintel (recover_lintel (dropCommands s))

theorem resetState_log : (resetState s cause goesOn session).hw.log = s.hw.log := recover_log (dropCommands s)

theorem resetState_changes : (resetState s cause goesOn session).index.changes =
    s.index.changes.filter fun e => !passed s.epochs.floor e :=
  changes_recover (s := dropCommands s) rfl rfl

end Reset

/-- What is closed and written before a reset or a loss of power. -/
def goneDown (s : State) : State := saveStaging (closeByReset s)

theorem closeByReset_same (s : State) : closeByReset s = { s with
    lintel := { s.lintel with
      audit := (closeByReset s).lintel.audit
      auditNext := (closeByReset s).lintel.auditNext
      auditAlive := (closeByReset s).lintel.auditAlive }
    drawn := (closeByReset s).drawn } := by
  unfold closeByReset
  split
  · rw [audit]
  · rfl

theorem saveStaging_same (s : State) : saveStaging s = { s with power := (saveStaging s).power } := by
  unfold saveStaging
  split <;> rfl

theorem goneDown_same (s : State) : goneDown s = { s with
    lintel := { s.lintel with
      audit := (goneDown s).lintel.audit
      auditNext := (goneDown s).lintel.auditNext
      auditAlive := (goneDown s).lintel.auditAlive }
    drawn := (goneDown s).drawn
    power := (goneDown s).power } := by
  unfold goneDown
  rw [saveStaging_same, closeByReset_same]

theorem goneDown_power (s : State) : (goneDown s).power.aonOn = s.power.aonOn ∧
    (goneDown s).power.flushed = (s.power.flushed || decide (s.power.st < 2)) := by
  have hpower : (closeByReset s).power = s.power := (congrArg State.power (closeByReset_same s) :)
  unfold goneDown saveStaging
  rw [hpower]
  split
  · next h =>
    rw [hpower, decide_eq_false (Nat.not_lt.2 h), Bool.or_false]
    exact ⟨rfl, rfl⟩
  · next h =>
    rw [decide_eq_true (Nat.not_le.1 h), Bool.or_true]
    exact ⟨rfl, rfl⟩

/-! ### Boot (R492, R495, R574) -/

theorem boot_off (h : f.mainOk = false) : boot s f = { s with
    power := { s.power with mainOn := false }, quoin := { s.quoin with stage := 1 } } := by
  rw [boot, h]
  rfl

/-- A ROM that cannot read its slots stops the boot at step 2. -/
theorem boot_rom (h : f.mainOk = true) (hrom : f.romOk = false) :
    boot s f = stopBoot { s with power := { s.power with mainOn := true } } 2 2 0x50 := by
  have hnone : ∀ t, bootFirmware t false = none := fun _ => rfl
  rw [boot, h, hrom]
  dsimp only
  rw [hnone]
  rfl

theorem drawModuleKeys_mem (s : State) : (drawModuleKeys s).mem = s.mem := by
  unfold drawModuleKeys
  dsimp only
  split
  · rfl
  split
  · exact (congrArg State.mem (hwError_same s 1 0x50 0 0 0x30 0) :)
  · rfl

/-- With every part there, the boot draws its keys and trains its links. -/
theorem bootMedia_whole (hstack : f.stackFail = []) (hflush : f.flushMissing = none) (hdie : f.dieFail = [])
    (hclosing : s.epochs.closing = []) :
    bootMedia s f = bootLinks (drawModuleKeys s) f.xfMode f.xfBytes := by
  rw [bootMedia, hstack, hflush, hdie]
  dsimp only [List.foldl_nil]
  rw [hclosing]
  rfl

/-! ### The loss of power (R550, R551, R564) -/

theorem powerDown_eq (s : State) : powerDown s = { resetState (goneDown s) 0 false true with
    power := { (resetState (goneDown s) 0 false true).power with mainOn := false, domains := 0 }
    quoin := { (resetState (goneDown s) 0 false true).quoin with stage := 1 } } := rfl

theorem powerDown_power (s : State) : (powerDown s).power =
    { keptPower (goneDown s).power with mainOn := false, domains := 0 } :=
  congrArg (fun p : Power => { p with mainOn := false, domains := 0 }) (resetState_power (goneDown s) 0 false true)

theorem powerDown_epochs (s : State) : (powerDown s).epochs = keptEpochs s.epochs :=
  (resetState_epochs (goneDown s) 0 false true).trans
    (congrArg (fun t : State => keptEpochs t.epochs) (goneDown_same s) :)

theorem powerDown_time (s : State) : (powerDown s).time = { s.time with source := false, rate := 0 } :=
  (resetState_time (goneDown s) 0 false true).trans
    (congrArg (fun t : State => ({ t.time with source := false, rate := 0 } : FabricTime)) (goneDown_same s) :)

theorem powerDown_log (s : State) : (powerDown s).hw.log = s.hw.log :=
  (resetState_log (goneDown s) 0 false true).trans (congrArg (·.hw.log) (goneDown_same s) :)

theorem powerDown_changes (s : State) :
    (powerDown s).index.changes = s.index.changes.filter fun e => !passed s.epochs.floor e :=
  (resetState_changes (goneDown s) 0 false true).trans
    (congrArg (fun t : State => t.index.changes.filter fun e => !passed t.epochs.floor e) (goneDown_same s) :)

/-- The keys and counters stay; debug is closed. -/
theorem powerDown_lintel (s : State) : (powerDown s).lintel.fwCounter = s.lintel.fwCounter ∧
    (powerDown s).lintel.bondCounter = s.lintel.bondCounter ∧ (powerDown s).lintel.keys = s.lintel.keys ∧
    (powerDown s).lintel.debug = 0 := by
  have h := resetState_lintel (goneDown s) 0 false true
  have hg := goneDown_same s
  exact ⟨(congrArg Lintel.fwCounter h).trans (congrArg (·.lintel.fwCounter) hg :),
    (congrArg Lintel.bondCounter h).trans (congrArg (·.lintel.bondCounter) hg :),
    (congrArg Lintel.keys h).trans (congrArg (·.lintel.keys) hg :), congrArg Lintel.debug h⟩

/-- What the loss of the always-on domain keeps, whether the main input stood before or not. -/
theorem down_keeps (s : State) (h : t = powerDown s ∨ t = s) : t.epochs.published = s.epochs.published ∧
    t.lintel.keys = s.lintel.keys ∧ t.hw.log = s.hw.log := by
  rcases h with rfl | rfl
  · exact ⟨(congrArg Epochs.published (powerDown_epochs s) :), (powerDown_lintel s).2.2.1, powerDown_log s⟩
  · exact ⟨rfl, rfl, rfl⟩

/-! ### The statement -/

/-- Settles O54: each part that a reset or a loss of power keeps has its own lemma. -/
theorem bootResetAndPowerLoss : Obligations.BootResetAndPowerLoss := by
  refine fun s => ⟨fun f haon => ?_, fun f haon hmain => ?_, fun f => boot_off, fun f h hrom => ?_,
    fun f hstack hflush hdie hclosing => ?_, fun haon hmain => ⟨?_, ?_⟩, fun haon => ?_⟩
  · refine ⟨_, congrArg Host.Outcome.next (if_neg (by rw [haon]; exact Bool.false_ne_true)), rfl, rfl, rfl, rfl⟩
  · refine ⟨_, congrArg Host.Outcome.next (if_pos (by rw [haon, hmain]; rfl)), rfl, rfl, rfl, rfl⟩
  · exact ⟨_, boot_rom h hrom, rfl, rfl, rfl, rfl⟩
  · exact ⟨_, bootMedia_whole hstack hflush hdie hclosing, rfl, rfl, rfl, rfl, rfl, drawModuleKeys_mem s⟩
  · exact congrArg Host.Outcome.next (if_pos (by rw [haon, hmain]; rfl))
  · have hp := powerDown_power s
    obtain ⟨hon, hflushed⟩ := goneDown_power s
    have he := powerDown_epochs s
    obtain ⟨hfw, hbond, hkeys, hdebug⟩ := powerDown_lintel s
    refine ⟨powerDown s, congrArg Host.Outcome.next (if_pos (by rw [haon, hmain]; rfl)), ?_, ?_, ?_, rfl, ?_, rfl,
      (congrArg Epochs.published he :), (congrArg Epochs.floor he :), powerDown_time s, powerDown_changes s,
      hfw, hbond, hkeys, hdebug, powerDown_log s⟩
    · exact congrArg Power.mainOn hp
    · exact (congrArg Power.aonOn hp).trans (hon.trans haon)
    · exact congrArg Power.domains hp
    · exact (congrArg Power.flushed hp).trans hflushed
  · have hkeeps : ∃ t, (if s.power.mainOn then powerDown s else s) = t ∧ (t = powerDown s ∨ t = s) := by
      cases s.power.mainOn
      · exact ⟨s, rfl, .inr rfl⟩
      · exact ⟨powerDown s, rfl, .inl rfl⟩
    obtain ⟨t, ht, hdown⟩ := hkeeps
    obtain ⟨hpub, hkeys, hlog⟩ := down_keeps s hdown
    have hexec : exec .auxInputLoss s = .next (aonDown t) :=
      congrArg Host.Outcome.next ((if_pos haon).trans (congrArg aonDown ht))
    exact ⟨aonDown t, hexec, rfl, rfl, rfl, rfl, hpub, hkeys, hlog⟩

end Sys2Proof.Boots
end
